-- ==== Sys2Proof/Word.lean ====
section
/-! DEFINITION. The word types of the LX9 and their plainest arithmetic (00_scope.md R6, R11). -/

namespace Sys2Proof

/-- A byte of memory (R6). -/
abbrev Byte := BitVec 8
/-- A v register (R66), a mask register, a 32-bit special value. -/
abbrev Word := BitVec 32
/-- An s register, an instruction word, a virtual address, a system register. -/
abbrev DWord := BitVec 64
/-- A 9-bit operand field of an F word (R49). -/
abbrev Field := BitVec 9

/-- Bits `hi` down to `lo` of `x`, as a natural number (R11, `x[h:l]`). -/
def bitsOf (x hi lo : Nat) : Nat := (x / 2 ^ lo) % 2 ^ (hi + 1 - lo)

/-- Bit `i` of `x`. -/
def bitOf (x i : Nat) : Bool := (x / 2 ^ i) % 2 == 1

/-- `wrap(x, w)` of R11 on a natural number. -/
def wrapN (w x : Nat) : Nat := x % 2 ^ w

/-- `wrap(x, w)` of R11 on an integer. -/
def wrapI (w : Nat) (x : Int) : Nat := (x % ((2 ^ w : Nat) : Int)).toNat

/-- The signed value of the low `w` bits of `x`. -/
def signedOf (w x : Nat) : Int :=
  let y := x % 2 ^ w
  if y < 2 ^ (w - 1) then (y : Int) else (y : Int) - ((2 ^ w : Nat) : Int)

/-- `1` for true and `0` for false. -/
def b2n (b : Bool) : Nat := if b then 1 else 0

/-- The `n` low bytes of `x`, least significant first (R6). -/
def toBytes : Nat → Nat → List Byte
  | 0, _ => []
  | n + 1, x => BitVec.ofNat 8 x :: toBytes n (x / 256)

/-- The number that bytes stored least significant first stand for (R6). -/
def ofBytes : List Byte → Nat
  | [] => 0
  | b :: bs => b.toNat + 256 * ofBytes bs

end Sys2Proof
end

