-- ==== Sys2Proof/Config.lean ====
section
/-! DEFINITION. The free values: constants without a body for what the spec leaves open, so that nothing can be
proved of their values. Those that are read afresh are applied to the counter `tick` of the state. -/

namespace Sys2Proof

/-- Which of the agents that may move moves next (17_block_pool.md R374, 06_memory_access.md R161: arrival orders
the device does not fix). -/
opaque Config.turn : Nat → Nat
/-- The cycles of the Bricor clock that pass in a step (06_memory_access.md R161: latencies are not architectural). -/
opaque Config.cycles : Nat → Nat
/-- The cycles of the Tlaska clock that pass in a step (04_compute_instructions.md R87). -/
opaque Config.latencyCycles : Nat → Nat
/-- The nanoseconds of package time that pass in a step. -/
opaque Config.nanoseconds : Nat → Nat
/-- The line a cache replaces (14_coherence.md R310 gives sizes and no policy). -/
opaque Config.victim : Nat → Nat
/-- The ACTIVE port of its route through which a message to another package goes (20_link.md R433 leaves the route to the
fabric). -/
opaque Config.route : Nat → Nat
/-- The old bytes of a tile that has just been mapped (06_memory_access.md R151). -/
opaque Config.undefinedByte : Nat → Byte
/-- The bytes of a pool frame that another package has owned: the time at which ownership came here and the offset
(13_page.md R301). -/
opaque Config.poolByte : Nat → Nat → Byte
/-- The metadata of line `i` of a pool frame that another package has owned: the time at which ownership came here and the
line (07_consistency.md R183, 13_page.md R301). -/
opaque Config.poolMeta : Nat → Nat → Nat
/-- Whether an instruction package that a core has fetched before is read from memory again (03_encoding.md R65 and
08_context.md R222 leave open what a fetch before icinv reads). -/
opaque Config.refetch : Nat → Bool
/-- Whether a HALT reaches a wave within a turn of its own (08_context.md R220): the time and the wave's slot. -/
opaque Config.haltMeets : Nat → Nat → Bool
/-- The bytes that a save writes in an image area: the time and the package address (08_context.md R218, "The layout of the
image is particular to the implementation"). -/
opaque Config.imageByte : Nat → Nat → Byte
/-- What CTX_DBG_DATA reads at a reserved KIND, or at an INDEX that the wave does not have (08_context.md R219). -/
opaque Config.debugWord : Nat → DWord
/-- The element of accumulator memory that a soft error strikes at a time, if any (16_matrix.md R350). -/
opaque Config.softError : Nat → Option Nat
/-- The SHA3-512 digest of the items of a configuration image (22_platform.md R451, "Its encoding is particular to the
implementation"). -/
opaque Config.imageDigest : List (List Nat) → Nat
/-- The signature of an SPDM response by the identity key: the sealed key, the time and the digest that is reported
(22_platform.md R454). -/
opaque Config.signature : List Byte → Nat → Nat → Nat
/-- Which FREE epoch a snap takes (19_shutter.md R422, "a FREE epoch"). -/
opaque Config.epoch : Nat → Nat
/-- How many frames of those it may release an sgrow.trim releases (19_shutter.md R426). -/
opaque Config.trim : Nat → Nat
/-- The TEMP that PLT_MON gives for a die without clusters (22_platform.md R458, "the hottest cluster for a die"). -/
opaque Config.dieTemperature : Nat → Nat
/-- The `.f32` result of frsq at a source that R105 gives no exact point for. -/
opaque Config.frsq : Word → Word
/-- The `.f32` result of fexp2 at a source that R105 gives no exact point for. -/
opaque Config.fexp2 : Word → Word
/-- The `.f32` result of flog2 at a source that R105 gives no exact point for. -/
opaque Config.flog2 : Word → Word
/-- The `.f32` result of fsin at a source that R105 gives no exact point for. -/
opaque Config.fsin : Word → Word
/-- The `.f32` result of fcos at a source that R105 gives no exact point for. -/
opaque Config.fcos : Word → Word
/-- The `.f32` result of ftanh at a source that R105 gives no exact point for. -/
opaque Config.ftanh : Word → Word

end Sys2Proof
end

