-- ==== Sys2Proof/Machine/Cells.lean ====
section
/-! DEFINITION. Sparse maps as plain data: a list of (key, value) pairs with strictly rising keys. Every
indexed collection of the machine, memory among them, is held this way, so that equal contents are equal data. -/

namespace Sys2Proof.Machine

/-- A sparse map from natural numbers, as a list of pairs with strictly rising keys. -/
abbrev Cells (α : Type) := List (Nat × α)

/-- Looks a key up. -/
def Cells.find {α : Type} : Cells α → Nat → Option α
  | [], _ => none
  | (k, v) :: m, x => if x = k then some v else Cells.find m x

/-- Enters a value under a key, replacing what stood there. -/
def Cells.put {α : Type} : Cells α → Nat → α → Cells α
  | [], x, v => [(x, v)]
  | (k, w) :: m, x, v =>
    if x = k then (x, v) :: m else if x < k then (x, v) :: (k, w) :: m else (k, w) :: Cells.put m x v

/-- Removes a key. -/
def Cells.del {α : Type} : Cells α → Nat → Cells α
  | [], _ => []
  | (k, w) :: m, x => if x = k then Cells.del m x else (k, w) :: Cells.del m x

/-- The value under a key, or the default that unlisted keys hold. -/
def Cells.get {α : Type} (d : α) (m : Cells α) (x : Nat) : α := (Cells.find m x).getD d

/-- Writes a value under a key: the default removes the entry, so the form stays canonical. -/
def Cells.set {α : Type} [DecidableEq α] (d : α) (m : Cells α) (x : Nat) (v : α) : Cells α :=
  if v = d then Cells.del m x else Cells.put m x v

/-- Every key of the map is above `lo` (`none`: no bound) and the keys rise strictly. -/
def Cells.risingFrom {α : Type} : Option Nat → Cells α → Bool
  | _, [] => true
  | none, (k, _) :: m => Cells.risingFrom (some k) m
  | some lo, (k, _) :: m => decide (lo < k) && Cells.risingFrom (some k) m

/-- The canonical form: keys strictly rising and no entry equal to the default. -/
def Cells.wf {α : Type} [DecidableEq α] (d : α) (m : Cells α) : Bool :=
  Cells.risingFrom none m && m.all (fun e => decide (e.2 ≠ d))

/-- Changes the value under a key, where there is one. -/
def Cells.modify {α : Type} (m : Cells α) (x : Nat) (f : α → α) : Cells α :=
  match Cells.find m x with
  | none => m
  | some v => Cells.put m x (f v)

/-- The least number below `lo + n` that is not a key, from `lo` on. -/
def Cells.lowestFree {α : Type} (m : Cells α) : Nat → Nat → Option Nat
  | _, 0 => none
  | lo, n + 1 => if (Cells.find m lo).isNone then some lo else Cells.lowestFree m (lo + 1) n

/-- Writes successive values from a key on. -/
def Cells.setRun {α : Type} [DecidableEq α] (d : α) (m : Cells α) : Nat → List α → Cells α
  | _, [] => m
  | x, v :: vs => Cells.setRun d (Cells.set d m x v) (x + 1) vs

/-- Reads `n` successive values from a key on. -/
def Cells.getRun {α : Type} (d : α) (m : Cells α) (x : Nat) : Nat → List α
  | 0 => []
  | n + 1 => Cells.get d m x :: Cells.getRun d m (x + 1) n

end Sys2Proof.Machine
end

