-- ==== Sys2Proof/Syntax.lean ====
section
/-! DEFINITION. The syntax of the machine: one constructor per row of spec/opcode_table.json. A row that is an
instruction word holds the fields of that word (03_encoding.md R49, R62), because the traps the spec gives malformed
words are raised at issue, in the order of R78; the operand fields are read through the operand forms of
Machine/Operands.lean. A row that is an event of the package (95_what_each_step_holds.md) holds what the event names. -/

namespace Sys2Proof

/-- The fields of an F word, or of the first word of an X instruction with its extension word (R49, R61). -/
structure FWord where
  /-- G, the guard predicate's number (bits 52:46). -/
  g : BitVec 7
  /-- GN: the guard is negated (bit 45). -/
  gn : Bool
  /-- FD (bits 44:36). -/
  fd : Field
  /-- FA (bits 35:27). -/
  fa : Field
  /-- FB (bits 26:18). -/
  fb : Field
  /-- FC, or the Q modifier field (bits 17:9). -/
  fc : Field
  /-- EC, EB, EA: the full/empty modes (bits 8, 7, 6). -/
  ec : Bool
  eb : Bool
  ea : Bool
  /-- TYPE (bits 5:2). -/
  ty : BitVec 4
  /-- MOD (bits 1:0). -/
  md : BitVec 2
  /-- The extension word; its presence is the X form. -/
  ext : Option DWord
  deriving DecidableEq, Repr

/-- One slot of a D word (R62). -/
structure DualSlot where
  dop : BitVec 7
  neg : Bool
  grd : BitVec 3
  vd : BitVec 8
  vs : BitVec 8
  rsv : BitVec 3
  deriving DecidableEq, Repr

/-- A D word: two slots and the reserved bits 1:0 (R62). -/
structure DualWord where
  slot0 : DualSlot
  slot1 : DualSlot
  rsv : BitVec 2
  deriving DecidableEq, Repr

/-- What a device's reply says about the line it carries (21_memory_devices.md R446, R450). -/
inductive EccResult where
  | clean
  | corrected
  | uncorrectable
  deriving DecidableEq, Repr

/-- A read (`bytes = none`) or a write of `len` bytes at a package address, made by a requester that holds no lines
(14_coherence.md R321). -/
structure ByteAccess where
  addr : Nat
  len : Nat
  bytes : Option (List Byte)
  deriving DecidableEq, Repr

/-- What a coherence message with data carries (14_coherence.md R313): the 128 bytes of the line, its sync record (SCOPE, NODE and
AGENT as one number, 07_consistency.md R183) and its epoch tag. -/
structure LineData where
  bytes : List Byte
  record : Nat
  epoch : Nat
  deriving DecidableEq, Repr

/-- A coherence message that carries a line: the line and its data. -/
structure LineMsg where
  line : Nat
  data : LineData
  deriving DecidableEq, Repr

/-- What a flit carries beside its message (20_link.md R430, R443): the session slot that protects it, how many flits of the port's
own the far end acknowledges, and whether it asks for the others again. -/
structure FlitRest where
  slot : Nat
  acked : Nat
  again : Bool
  deriving DecidableEq, Repr

/-- The kinds of a shootdown (08_context.md R221). -/
inductive ShootKind where
  | page
  | context
  | all
  deriving DecidableEq, Repr

/-- A shootdown request as it reaches this package from a peer (13_page.md R289): who asked, the tag it carries, what it
removes, this package's member number, and the member list (the requester first). -/
structure ShootReq where
  serial : Nat
  parent : Nat
  tag : Nat
  kind : ShootKind
  va : DWord
  member : Nat
  members : List Nat
  deriving DecidableEq, Repr

/-- What a fabric access from a peer does at this package (20_link.md R434, R436). A store gives each byte with its offset
from the access's address. -/
inductive FabricOp where
  | load (len : Nat)
  | store (bytes : List (Nat × Byte))
  | void
  | atomic (op : Nat) (md : Nat) (ty : Nat) (operand : Nat) (operand2 : Nat) (wantsOld : Bool)
  deriving DecidableEq, Repr

/-- A fabric access that reaches this package: the source node, the sequence number of a posted write (for an access
that wants a reply, the number of the request), the tag it carries, the package address, what it does, and the
synchronisation it carries. -/
structure FabricReq where
  node : Nat
  seq : Nat
  tag : Nat
  addr : Nat
  op : FabricOp
  /-- The scope code of a synchronising access and the issuing party's AGENT (07_consistency.md R184). -/
  sync : Option (Nat × Nat)
  deriving DecidableEq, Repr

/-- How a peer answers an access that wants a reply (20_link.md R436, 07_consistency.md R184). -/
inductive FabricReply where
  | data (bytes : List Byte)
  | refused
  | mismatch (record : Nat)
  deriving DecidableEq, Repr

/-- A collective message from a member (20_link.md R440): the round, the sender, its descriptor and its elements; or, where
`again` is set, the request of a restored member to send the message of the round again. -/
structure CollMsg where
  node : Nat
  tag : Nat
  round : Nat
  desc : DWord
  send : List Nat
  again : Bool := false
  deriving DecidableEq, Repr

/-- The SPDM messages a session uses (20_link.md R443), with what their verification found. -/
inductive SpdmMsg where
  | progress
  | finishVerified
  | peerRefused
  | badSignature
  | heartbeat
  | endSession
  | keyUpdate
  deriving DecidableEq, Repr

/-- A PCIe access of the host (06_memory_access.md R166, 09_queue.md R225, 22_platform.md R452). -/
inductive HostReq where
  | read (addr : Nat) (len : Nat) (noSnoop : Bool)
  | write (addr : Nat) (bytes : List Byte) (noSnoop : Bool)
  | bar0Read (offset : Nat)
  | bar2Read (offset : Nat)
  | bar2Write (offset : Nat) (value : DWord)
  deriving DecidableEq, Repr

/-- What the monitors read at a 10 µs tick (22_platform.md R456, R457): temperatures and voltages by cluster, process
counts by die, and the mean package power of the tick before. -/
structure Readings where
  temps : List Int
  mvs : List Nat
  procs : List Nat
  pkg : Nat
  deriving DecidableEq, Repr

/-- The instructions and events of the LX9, one constructor per row of the opcode table. -/
inductive Instr where
  /-- ADD: Adds two integer operands in each active lane, wrapping or saturating. (R89) -/
  | add (f : FWord)
  /-- SUB: Subtracts two integer operands in each active lane, wrapping or saturating. (R89) -/
  | sub (f : FWord)
  /-- MUL: Multiplies two integer operands and keeps the low half, wrapping or saturating. (R89) -/
  | mul (f : FWord)
  /-- MULHI: Writes the upper half of the exact double-width product. (R90) -/
  | mulhi (f : FWord)
  /-- MAD: Multiplies two operands and adds a third, wrapping or saturating. (R89) -/
  | mad (f : FWord)
  /-- MADHI: Adds a third operand to the upper half of the exact product. (R90) -/
  | madhi (f : FWord)
  /-- DIV: Divides toward zero, trapping ARITH on a zero divisor unless .nt is given. (R91) -/
  | div (f : FWord)
  /-- REM: Writes the remainder of a division toward zero, with ARITH on a zero divisor unless .nt is given. (R91) -/
  | rem (f : FWord)
  /-- MIN: Writes the smaller of two integer operands. (R89) -/
  | min (f : FWord)
  /-- MAX: Writes the larger of two integer operands. (R89) -/
  | max (f : FWord)
  /-- ABS: Writes the absolute value of a signed operand. (R89) -/
  | abs (f : FWord)
  /-- NEG: Writes the negation of a signed operand. (R89) -/
  | neg (f : FWord)
  /-- ADDC: Adds with carry in and carry out through a predicate. (R92) -/
  | addc (f : FWord)
  /-- SUBB: Subtracts with borrow in and borrow out through a predicate. (R92) -/
  | subb (f : FWord)
  /-- LEA: Computes a base plus an index scaled by a power of two. (R93) -/
  | lea (f : FWord)
  /-- AND: Writes the bitwise AND of two operands. (R94) -/
  | and (f : FWord)
  /-- OR: Writes the bitwise OR of two operands. (R94) -/
  | or (f : FWord)
  /-- XOR: Writes the bitwise XOR of two operands. (R94) -/
  | xor (f : FWord)
  /-- ANDN: Writes a AND NOT b. (R94) -/
  | andn (f : FWord)
  /-- NOT: Writes the bitwise complement of an operand. (R94) -/
  | not (f : FWord)
  /-- SHL: Shifts left by an unsigned count. (R94) -/
  | shl (f : FWord)
  /-- SHR: Shifts right logically by an unsigned count. (R94) -/
  | shr (f : FWord)
  /-- SAR: Shifts right arithmetically by an unsigned count. (R94) -/
  | sar (f : FWord)
  /-- ROT: Rotates left or right by the count modulo the width. (R94) -/
  | rot (f : FWord)
  /-- BFE: Extracts a bit field given by a control word. (R95) -/
  | bfe (f : FWord)
  /-- BFI: Inserts a bit field into a base value. (R95) -/
  | bfi (f : FWord)
  /-- POPC: Counts the set bits of an operand. (R95) -/
  | popc (f : FWord)
  /-- CLZ: Counts zero bits above the highest set bit. (R95) -/
  | clz (f : FWord)
  /-- CTZ: Counts zero bits below the lowest set bit. (R95) -/
  | ctz (f : FWord)
  /-- BREV: Reverses the bits of an operand. (R95) -/
  | brev (f : FWord)
  /-- PRMT: Builds each result byte from a pool of eight source bytes under a control byte. (R95) -/
  | prmt (f : FWord)
  /-- SEL: Selects one of two operands by a predicate. (R96) -/
  | sel (f : FWord)
  /-- CMP: Compares two integer operands and writes a predicate. (R96) -/
  | cmp (f : FWord)
  /-- MOV: Moves a value at the width of the type. (R97) -/
  | mov (f : FWord)
  /-- CVT: Converts between integer types or between integer and floating-point types. (R98) -/
  | cvt (f : FWord)
  /-- FADD: Adds two floating-point operands with one rounding. (R102) -/
  | fadd (f : FWord)
  /-- FSUB: Subtracts two floating-point operands with one rounding. (R102) -/
  | fsub (f : FWord)
  /-- FMUL: Multiplies two floating-point operands with one rounding. (R102) -/
  | fmul (f : FWord)
  /-- FMA: Forms a times b plus c with one rounding. (R102) -/
  | fma (f : FWord)
  /-- FMIN: Writes the floating-point minimum under the NaN rules. (R103) -/
  | fmin (f : FWord)
  /-- FMAX: Writes the floating-point maximum under the NaN rules. (R103) -/
  | fmax (f : FWord)
  /-- FCMP: Compares two floating-point operands and writes a predicate. (R104) -/
  | fcmp (f : FWord)
  /-- FCLS: Writes a predicate that tells whether the operand's class is in a set. (R104) -/
  | fcls (f : FWord)
  /-- FRCP: Writes the correctly rounded reciprocal. (R105) -/
  | frcp (f : FWord)
  /-- FRSQ: Writes an approximate reciprocal square root. (R105) -/
  | frsq (f : FWord)
  /-- FSQRT: Writes the correctly rounded square root. (R105) -/
  | fsqrt (f : FWord)
  /-- FEXP2: Writes an approximate power of two. (R105) -/
  | fexp2 (f : FWord)
  /-- FLOG2: Writes an approximate base-2 logarithm. (R105) -/
  | flog2 (f : FWord)
  /-- FSIN: Writes an approximate sine of an angle in turns. (R105) -/
  | fsin (f : FWord)
  /-- FCOS: Writes an approximate cosine of an angle in turns. (R105) -/
  | fcos (f : FWord)
  /-- FTANH: Writes an approximate hyperbolic tangent. (R105) -/
  | ftanh (f : FWord)
  /-- FRND: Rounds to an integral value in the instruction's mode. (R102) -/
  | frnd (f : FWord)
  /-- FSCL: Multiplies by a power of two with one rounding. (R102) -/
  | fscl (f : FWord)
  /-- FCVT: Converts between floating-point, small-float, scale and packed types. (R99) -/
  | fcvt (f : FWord)
  /-- DOT2: Adds an exact two-element dot product to an FP32 accumulator with one rounding. (R106) -/
  | dot2 (f : FWord)
  /-- DOT4: Adds an exact four-element FP8 dot product to an FP32 accumulator with one rounding. (R106) -/
  | dot4 (f : FWord)
  /-- PFMA: Applies fma to each element of packed 16-bit operands. (R102) -/
  | pfma (f : FWord)
  /-- PADD: Applies fadd to each element of packed 16-bit operands. (R102) -/
  | padd (f : FWord)
  /-- PMUL: Applies fmul to each element of packed 16-bit operands. (R102) -/
  | pmul (f : FWord)
  /-- PMAX: Applies fmax to each element of packed 16-bit operands. (R103) -/
  | pmax (f : FWord)
  /-- PAND: Writes the AND of two predicates, each optionally inverted. (R107) -/
  | pand (f : FWord)
  /-- POR: Writes the OR of two predicates, each optionally inverted. (R107) -/
  | por (f : FWord)
  /-- PXOR: Writes the XOR of two predicates, each optionally inverted. (R107) -/
  | pxor (f : FWord)
  /-- PNOT: Writes the complement of a predicate. (R107) -/
  | pnot (f : FWord)
  /-- PMOV: Copies a predicate. (R107) -/
  | pmov (f : FWord)
  /-- PSET: Sets a range of predicates from the bits of a value. (R107) -/
  | pset (f : FWord)
  /-- PGET: Packs a range of predicates into a v register. (R107) -/
  | pget (f : FWord)
  /-- BALLOT: Writes a mask of the taking-part lanes in which a predicate is true. (R110) -/
  | ballot (f : FWord)
  /-- VANY: Writes whether a predicate is true in any taking-part lane. (R110) -/
  | vany (f : FWord)
  /-- VALL: Writes whether a predicate is true in every taking-part lane. (R110) -/
  | vall (f : FWord)
  /-- SHFL: Reads a value from a source lane computed per lane within a segment. (R111) -/
  | shfl (f : FWord)
  /-- REDUX: Combines a value over the taking-part lanes in lane order. (R112) -/
  | redux (f : FWord)
  /-- SCAN: Writes the inclusive or exclusive prefix combination across lanes. (R112) -/
  | scan (f : FWord)
  /-- MATCH: Writes the mask of taking-part lanes whose value equals each lane's. (R111) -/
  | matchLanes (f : FWord)
  /-- ELECT: Sets a predicate in the lowest taking-part lane only. (R110) -/
  | elect (f : FWord)
  /-- BCAST: Broadcasts one lane's value to every taking-part lane. (R111) -/
  | bcast (f : FWord)
  /-- D_WORD: Issues two short register operations packed in one D word, reading both before either writes. (R63) -/
  | dWord (d : DualWord)
  /-- BRA: Transfers every active lane to a pc-relative target. (R124) -/
  | bra (f : FWord)
  /-- BRX: Transfers each active lane to the 64-bit address in its source. (R125) -/
  | brx (f : FWord)
  /-- CALL: Writes the return address to a link and branches to a pc-relative target. (R124) -/
  | call (f : FWord)
  /-- RET: Transfers each active lane to a return address written by a call. (R125) -/
  | ret (f : FWord)
  /-- EXIT: Commits pending lines and ends every active lane, clearing its mask and cohort memberships. (R126) -/
  | exit (f : FWord)
  /-- REGION: Commits the wave's pending lines and starts a new idempotent region. (R132) -/
  | region (f : FWord)
  /-- YIELD: Moves the wave to the pending set as its youngest wave if a ready wave waits there. (R131) -/
  | yield (f : FWord)
  /-- BKPT: Halts the wave for the debugger when breakpoints are armed, otherwise does nothing. (R131) -/
  | bkpt (f : FWord)
  /-- JOIN: Sets the bit of every active lane in a mask register. (R127) -/
  | join (f : FWord)
  /-- LEAVE: Clears the bit of every active lane in a mask register. (R127) -/
  | leave (f : FWord)
  /-- WAITM: Makes member lanes wait until every member of the mask waits, then releases them together. (R128) -/
  | waitm (f : FWord)
  /-- MSET: Writes a uniform value to a mask register. (R130) -/
  | mset (f : FWord)
  /-- MOP: Writes a bitwise combination of two uniform values to a mask register. (R130) -/
  | mop (f : FWord)
  /-- NOP: Does nothing. (R131) -/
  | nop (f : FWord)
  /-- LD: Loads elements from a global or stash address into registers. (R159) -/
  | ld (f : FWord)
  /-- ST: Stores elements to a global address, held as region-pending lines, or to the stash. (R159) -/
  | st (f : FWord)
  /-- LDX: Gathers elements from a uniform base plus a per-lane scaled index. (R163) -/
  | ldx (f : FWord)
  /-- STX: Scatters elements to a uniform base plus a per-lane scaled index. (R163) -/
  | stx (f : FWord)
  /-- PREF: Prefetches the lines of global addresses into L0 or the cluster L1. (R164) -/
  | pref (f : FWord)
  /-- CINV: Discards the lines of an aligned region from L0, or writes back and invalidates them in the cluster. (R165) -/
  | cinv (f : FWord)
  /-- CWB: Writes back the dirty lines of an aligned region, with .sync also resetting their sync records. (R165) -/
  | cwb (f : FWord)
  /-- STMAP: Writes back and maps a run of stash tiles onto a global range. (R153) -/
  | stmap (f : FWord)
  /-- STUNMAP: Writes back a run of mapped stash tiles and unmaps them. (R153) -/
  | stunmap (f : FWord)
  /-- STFLUSH: Writes back the dirty lines of a run of mapped stash tiles. (R153) -/
  | stflush (f : FWord)
  /-- KVLD: Translates one sequence position per lane through a pool's tables with an acquire of its published length. (R394) -/
  | kvld (f : FWord)
  /-- ATOM: Performs a read-modify-write at the address's home, lane after lane, returning the old value. (R169) -/
  | atom (f : FWord)
  /-- ATOM_SC: Performs a sequentially consistent atomic ordered by sequencer tickets. (R170) -/
  | atomSc (f : FWord)
  /-- RED: Performs an atomic reduction at the home without returning a value. (R171) -/
  | red (f : FWord)
  /-- FENCE: Commits pending lines and orders the wave's accesses by kind and scope. (R187) -/
  | fence (f : FWord)
  /-- WAITC: Holds the wave until an engine class counter falls to at most n. (R191) -/
  | waitc (f : FWord)
  /-- CPY: Copies whole tiles between global memory and the stash or into the B-store. (R334) -/
  | cpy (f : FWord)
  /-- CPYT: Fills a handle's run, possibly as a ring, or the B-store with one box of a tensor map. (R335) -/
  | cpyt (f : FWord)
  /-- GATH: Gathers 32 rows of a tensor map by per-lane index into a handle's run. (R336) -/
  | gath (f : FWord)
  /-- TMSET: Writes a tensor map from a descriptor and a group of s registers. (R331) -/
  | tmset (f : FWord)
  /-- HACQ: Moves a FULL handle to DRAINING. (R337) -/
  | hacq (f : FWord)
  /-- HWAIT: Waits until a filling handle is FULL. (R337) -/
  | hwait (f : FWord)
  /-- HREL: Returns a DRAINING handle to FREE. (R337) -/
  | hrel (f : FWord)
  /-- TAGQ: Reads the valid, consumed or row tags of tiles, or marks them consumed. (R338) -/
  | tagq (f : FWord)
  /-- MXA: Sends a matrix multiply-accumulate of A and B-store operands into accumulator banks to the matrix unit. (R357) -/
  | mxa (f : FWord)
  /-- MXAP: Sends a matrix multiply-accumulate to both cores of a matrix pair. (R358) -/
  | mxap (f : FWord)
  /-- ACCAL: Grants the lowest run of n FREE accumulator banks to the block. (R361) -/
  | accal (f : FWord)
  /-- ACCFR: Moves granted banks to FREEING. (R362) -/
  | accfr (f : FWord)
  /-- ACCZR: Writes +0 to every element of a run of banks. (R362) -/
  | acczr (f : FWord)
  /-- ACCDR: Drains a row band of a bank, converted or quantised, to the stash or registers. (R366) -/
  | accdr (f : FWord)
  /-- ACCRD: Reads accumulator elements of one row per lane into registers. (R363) -/
  | accrd (f : FWord)
  /-- ACCWR: Writes registers into accumulator elements of one row per lane. (R363) -/
  | accwr (f : FWord)
  /-- QMC: Multicasts tiles read once from global memory to the stash or B-store of the blocks of a cluster group. (R397) -/
  | qmc (f : FWord)
  /-- SMX: Applies an online softmax step to score banks and stores BF16 probabilities. (R402) -/
  | smx (f : FWord)
  /-- CRED: Contributes output and statistics rows to a cluster reduction round. (R404) -/
  | cred (f : FWord)
  /-- AMASK: Writes minus infinity into causal, window or padding masked score elements. (R400) -/
  | amask (f : FWord)
  /-- CJOIN: Joins the active lanes to the cohort of a key, creating it if needed. (R262) -/
  | cjoin (f : FWord)
  /-- CLEAVE: Removes the active member lanes from a cohort. (R263) -/
  | cleave (f : FWord)
  /-- CQRY: Reads a cohort's count, the wave's member mask or the key. (R264) -/
  | cqry (f : FWord)
  /-- BMAKE_NEW: Creates or finds the barrier of a cohort with a key. (R270) -/
  | bmakeNew (f : FWord)
  /-- BMAKE_DROP: Makes a LIVE barrier entry FREE and releases its waiters. (R270) -/
  | bmakeDrop (f : FWord)
  /-- BARR: Arrives at a barrier's open phase without waiting. (R271) -/
  | barr (f : FWord)
  /-- BWAIT: Waits for the phase of a token to complete. (R272) -/
  | bwait (f : FWord)
  /-- BARW: Arrives at a barrier and waits for the phase. (R272) -/
  | barw (f : FWord)
  /-- SSTEP: Arrives at the next step of a superstep group after its fabric writes are acknowledged and waits for the step. (R278) -/
  | sstep (f : FWord)
  /-- LAUNCH: Reads a launch record and queues a child kernel in the kernel table. (R251) -/
  | launch (f : FWord)
  /-- JOINK: Waits for a launched kernel to end, writes its status and frees its entry. (R253) -/
  | joink (f : FWord)
  /-- KQ_QUERY: Writes the state of a kernel-table entry. (R253) -/
  | kqQuery (f : FWord)
  /-- KQ_KILL: Writes a kernel's state and kills it if QUEUED or RUNNING. (R253) -/
  | kqKill (f : FWord)
  /-- BALLOC: Takes the lowest FREE block of a pool as LOOSE. (R383) -/
  | balloc (f : FWord)
  /-- BFREE: Returns a LOOSE block to its pool. (R383) -/
  | bfree (f : FWord)
  /-- SEQNEW: Creates an empty sequence in a pool. (R384) -/
  | seqnew (f : FWord)
  /-- SEQDROP: Drops a whole sequence or releases the blocks below a position. (R385) -/
  | seqdrop (f : FWord)
  /-- SEQFORK: Creates a child sequence that shares the parent's blocks up to a length. (R384) -/
  | seqfork (f : FWord)
  /-- KVAPP: Reserves positions at the end of a sequence, allocating and copying blocks as needed. (R386) -/
  | kvapp (f : FWord)
  /-- KVPUB: Publishes a sequence length as a release. (R387) -/
  | kvpub (f : FWord)
  /-- SEQLEN: Reads a sequence's positions or a block address. (R388) -/
  | seqlen (f : FWord)
  /-- POOLQ: Reads a pool's free blocks, live sequences or state. (R388) -/
  | poolq (f : FWord)
  /-- SNAP_NEW: Opens a new shutter over a range of frames at level 1. (R422) -/
  | snapNew (f : FWord)
  /-- SNAP_NEST: Opens a further level of an open shutter. (R422) -/
  | snapNest (f : FWord)
  /-- SACC: Keeps what was written at the innermost shutter level. (R423) -/
  | sacc (f : FWord)
  /-- SREJ: Takes back everything written since a shutter level opened. (R424) -/
  | srej (f : FWord)
  /-- SQRY: Reads a shutter's depth, shadowed lines or pool figures. (R426) -/
  | sqry (f : FWord)
  /-- SGROW: Adds tier-L frames to a context's shadow pool. (R426) -/
  | sgrow (f : FWord)
  /-- SGROW_TRIM: Releases unused shadow frames from a context's pool. (R426) -/
  | sgrowTrim (f : FWord)
  /-- PIN: Pins frames, first migrating them to a named tier. (R305) -/
  | pin (f : FWord)
  /-- UNPIN: Clears the pin of frames. (R305) -/
  | unpin (f : FWord)
  /-- HINT: Sets the tier affinity of frames. (R305) -/
  | hint (f : FWord)
  /-- PGQRY: Reads a frame's placement, heat or ownership. (R306) -/
  | pgqry (f : FWord)
  /-- PGOWN: Triggers the ownership hand-over of shared tier-C frames to this package. (R307) -/
  | pgown (f : FWord)
  /-- RECODE: Brings frames' compression format into line with their PTE request. (R308) -/
  | recode (f : FWord)
  /-- TRAP: Raises SW_TRAP in normal mode, or a fatal fault in trap mode. (R216) -/
  | trap (f : FWord)
  /-- TRET: Resumes every live lane at its resume address in normal mode. (R216) -/
  | tret (f : FWord)
  /-- SYSR: Reads a system register. (R211) -/
  | sysr (f : FWord)
  /-- SYSW: Writes a system register. (R211) -/
  | sysw (f : FWord)
  /-- HALT_STOP: Sets another context's halt flag and halts its waves. (R219) -/
  | haltStop (f : FWord)
  /-- HALT_GO: Clears another context's halt flag and releases its halted waves. (R219) -/
  | haltGo (f : FWord)
  /-- TLBINV: Multicasts a translation shootdown and waits for every acknowledgement. (R221) -/
  | tlbinv (f : FWord)
  /-- ICINV: Discards instruction lines of a region from the context's cores. (R222) -/
  | icinv (f : FWord)
  /-- SIG: Updates a signal word as a release reduction. (R233) -/
  | sig (f : FWord)
  /-- WAITSIG: Waits until a signal word meets a condition, then reads it as an acquire. (R233) -/
  | waitsig (f : FWord)
  /-- QPUSH: Writes an entry into a device queue's ring and rings its doorbell. (R234) -/
  | qpush (f : FWord)
  /-- PUT: Copies bytes to a possibly remote destination as posted writes. (R438) -/
  | put (f : FWord)
  /-- GET: Copies bytes from a possibly remote source. (R438) -/
  | get (f : FWord)
  /-- COLL: Runs one round of a collective over a superstep group. (R440) -/
  | coll (f : FWord)
  /-- LINKQ: Reads the state or sequence numbers of the node link to a node. (R441) -/
  | linkq (f : FWord)
  /-- UNASSIGNED_OPCODE: A word of form 0b11 or of an unassigned opcode reaches issue and raises ILLEGAL_OP precisely. (R75) -/
  | unassignedOpcode (w : DWord) (ext : Option DWord)
  /-- REGISTER_FILL: Writes a long-latency result into its destination and marks it full. (R70) -/
  | registerFill (fill : Nat)
  /-- ENGINE_OP_RETIRE: Retires an engine operation and lowers its class counter. (R190) -/
  | engineOpRetire (op : Nat)
  /-- WAVE_ENTER_ACTIVE: Moves the oldest ready pending wave into a free place of the active set. (R141) -/
  | waveEnterActive (core : Nat) (pane : Nat)
  /-- DISPATCH_CHOOSE: Chooses a queue by priority and deficit and grants it a batch of blocks. (R231) -/
  | dispatchChoose
  /-- BLOCK_PLACE: Places the next received block on the fitting core with the fewest resident waves. (R245) -/
  | blockPlace (die : Nat)
  /-- PROLOGUE: Runs a block's transform bindings before its waves are placed. (R241) -/
  | prologue (block : Nat)
  /-- PREEMPT_COMPLETE: Saves the image, releases the cores and enters SAVED once every wave has stopped and drained. (R217) -/
  | preemptComplete (ctx : Nat)
  /-- DESTROY_COMPLETE: Resets the context's registers and enters EMPTY once release is complete. (R203) -/
  | destroyComplete (ctx : Nat)
  /-- ENTRY_ACCEPT: Reads and validates the next offered entry and accepts it. (R228) -/
  | entryAccept (ctx : Nat) (queue : Nat)
  /-- ENTRY_LAUNCH: Starts a LAUNCH entry, making its blocks ready for dispatch. (R230) -/
  | entryLaunch (ctx : Nat) (queue : Nat) (hseq : Nat)
  /-- ENTRY_SIGNAL: Performs a SIGNAL entry's release update of a signal word. (R230) -/
  | entrySignal (ctx : Nat) (queue : Nat) (hseq : Nat)
  /-- ENTRY_WAIT: Reads a signal word until the WAIT entry's condition holds. (R230) -/
  | entryWait (ctx : Nat) (queue : Nat) (hseq : Nat)
  /-- ENTRY_NOP: Completes a NOP entry at once. (R230) -/
  | entryNop (ctx : Nat) (queue : Nat) (hseq : Nat)
  /-- MAP: Backs a package frame with a device frame in a tier. (R292) -/
  | map (frame : Nat) (ctx : Nat) (tier : Nat) (shared : Bool) (dframe : Nat)
  /-- UNMAP: Aborts any migration, writes back the frame and removes its placement entry. (R292) -/
  | unmap (frame : Nat)
  /-- MOVE: Migrates a frame to a named tier. (R292) -/
  | move (frame : Nat) (tier : Nat)
  /-- TAKE: Claims ownership of a shared tier-C frame without a recall. (R292) -/
  | take (frame : Nat)
  /-- MIGRATION_LINE_COPY: Copies the next line of a migrating frame and applies the waiting window. (R298) -/
  | migrationLineCopy (frame : Nat)
  /-- MIGRATION_COMMIT: Moves the directory to the new home and names the new frame in the placement entry. (R297) -/
  | migrationCommit (frame : Nat)
  /-- MIGRATION_RETIRE: Frees the old frame once the last forwarded request is served and returns to IDLE. (R297) -/
  | migrationRetire (frame : Nat)
  /-- MIGRATION_ABORT: Frees the new frame of an aborted migration and posts an ABORTED event. (R297) -/
  | migrationAbort (frame : Nat)
  /-- OWNERSHIP_RELEASE: After 20 microseconds of holding, writes back the frame and passes ownership by compare-and-swap. (R301) -/
  | ownershipRelease (frame : Nat)
  /-- HANDOVER_COMPLETE: Sets OWNED at the requester and lets the stalled accesses proceed. (R301) -/
  | handoverComplete (frame : Nat)
  /-- GETS: Serves a request for a shared copy at the home. (R317) -/
  | gets (agent : Nat) (line : Nat)
  /-- GETX: Serves a request for the only copy at the home. (R317) -/
  | getx (agent : Nat) (line : Nat)
  /-- UPG: Serves an upgrade of a shared copy at the home. (R317) -/
  | upg (agent : Nat) (line : Nat)
  /-- PUTS: Takes a dropped clean copy at the home and answers ACKP. (R317) -/
  | puts (agent : Nat) (line : Nat)
  /-- PUTX: Takes a dropped owned copy with its data at the home. (R317) -/
  | putx (agent : Nat) (msg : LineMsg)
  /-- WBK: Writes an owned copy's data at the home while the owner keeps it. (R317) -/
  | wbk (agent : Nat) (msg : LineMsg)
  /-- IACK: Counts an invalidation answer toward the open transaction. (R318) -/
  | iack (agent : Nat) (line : Nat)
  /-- RDAT: Completes a recall with the returned line. (R318) -/
  | rdat (agent : Nat) (msg : LineMsg)
  /-- RACK: Completes a recall that found no owned copy. (R318) -/
  | rack (agent : Nat) (line : Nat)
  /-- DATS: Installs a shared copy at the requesting cache. (R312) -/
  | dats (agent : Nat) (msg : LineMsg)
  /-- DATX: Installs the only copy at the requesting cache. (R312) -/
  | datx (agent : Nat) (msg : LineMsg)
  /-- GRNT: Moves an upgrading line to M. (R312) -/
  | grnt (agent : Nat) (line : Nat)
  /-- INV: Drops any copy at a cache and answers IACK. (R318) -/
  | inv (agent : Nat) (line : Nat)
  /-- RCLS: Returns an owned line and keeps a shared copy. (R318) -/
  | rcls (agent : Nat) (line : Nat)
  /-- RCLX: Returns an owned line and drops it. (R318) -/
  | rclx (agent : Nat) (line : Nat)
  /-- ACKP: Ends an eviction or write-back at the cache. (R312) -/
  | ackp (agent : Nat) (line : Nat)
  /-- NONCACHING_REQUEST: Serves a host, fabric or engine read or write at the home. (R321) -/
  | noncachingRequest (req : ByteAccess)
  /-- SHUTTER_UPDATE: Takes a shutter's range and epoch sets into a cache when a level opens or closes. (R416) -/
  | shutterUpdate (agent : Nat) (ctx : Nat) (shutter : Nat)
  /-- COPY_TILE_WRITE: Writes a data tile of a fill into its run tile, waiting on a ring for the consumed tag. (R329) -/
  | copyTileWrite (op : Nat)
  /-- MTX_OPERATION: Performs an arrived matrix-unit operation against its rows in arrival order. (R342) -/
  | mtxOperation (core : Nat) (op : Nat)
  /-- CRED_ROUND_COMPLETE: Merges a reduction round in core order, writes the root's stash and every participant's sd. (R406) -/
  | credRoundComplete (cluster : Nat) (round : Nat)
  /-- SHUTTER_RESTORE: Restores a line awaiting restore from its shadow in the background. (R424) -/
  | shutterRestore (ctx : Nat) (shutter : Nat)
  /-- SHUTTER_SCRUB: Clears retired epoch tags of a closing shutter's range and frees it. (R425) -/
  | shutterScrub (ctx : Nat) (shutter : Nat)
  /-- SHADOW_WAIT_PROCEED: Lets a non-wave write that waited for shadows proceed once the pool has room. (R418) -/
  | shadowWaitProceed (ctx : Nat)
  /-- POWER_UP: Boots the package from the signed configuration image and starts context 0. (R452) -/
  | powerUp
  /-- REGION_STALL_ABORT: Aborts the youngest stalled wave's region after a store has stalled 4,096 cycles for a pending line. (R134) -/
  | regionStallAbort (core : Nat)
  /-- FREE_PLACE_REPORT: Reports a die's free block places to the global dispatcher every microsecond. (R244) -/
  | freePlaceReport (die : Nat)
  /-- BIND: Fixes a context's address space, shape and memory grant and enters BOUND. (R201) -/
  | bind (ctx : Nat)
  /-- ARM: Admits a bound context's queues and enters RUNNABLE. (R201) -/
  | arm (ctx : Nat)
  /-- RUN: Checks grants and image and runs the context, restoring its image. (R205) -/
  | run (ctx : Nat)
  /-- PREEMPT: Puts a running context into PREEMPTING. (R217) -/
  | preempt (ctx : Nat)
  /-- DESTROY: Starts cancelling a context's work and releasing its grants. (R203) -/
  | destroy (ctx : Nat)
  /-- RESUME: Returns a suspended or halted wave to PENDING. (R210) -/
  | resume (ctx : Nat) (agent : Nat) (slot : Nat)
  /-- FAIL: Makes the context FAULTED on behalf of a named wave. (R210) -/
  | fail (ctx : Nat) (agent : Nat) (slot : Nat)
  /-- SLICE_EXPIRY: Puts a context into PREEMPTING when its time slice expires. (R217) -/
  | sliceExpiry (ctx : Nat)
  /-- CTX_RECT_WRITE: Writes a context's rectangle, refusing a shape change with CMDST 3. (R205) -/
  | ctxRectWrite (ctx : Nat) (value : DWord)
  /-- CTX_FQ_PTR_WRITE: Advances CONS as a release, letting records that waited for room be written. (R214) -/
  | ctxFqPtrWrite (ctx : Nat) (value : DWord)
  /-- CTX_DBG_DATA_ACCESS: Reads or writes the selected item of a halted wave. (R219) -/
  | ctxDbgDataAccess (ctx : Nat) (write : Option DWord)
  /-- KRN_LIMIT_WRITE: Writes the kernel-table limits, refusing out-of-range values with CMDST 5. (R249) -/
  | krnLimitWrite (ctx : Nat) (value : DWord)
  /-- COH_DIRA_WRITE: Selects a line and snapshots its directory entry into COH_DIRE. (R323) -/
  | cohDiraWrite (value : DWord)
  /-- MTX_ERR_READ: Returns the parity error count and clears it. (R371) -/
  | mtxErrRead (core : Nat)
  /-- MEM_ERR_READ: Returns the corrected and uncorrectable error counts and clears them. (R458) -/
  | memErrRead
  /-- SYSREG_WRITE: Writes a system register that has no behaviour of its own. (R208) -/
  | sysregWrite (ctx : Nat) (num : Nat) (value : DWord)
  /-- QUEUE_ENABLE: Zeroes a queue's counters and puts it into ACTIVE. (R223) -/
  | queueEnable (ctx : Nat) (queue : Nat)
  /-- QUEUE_PAUSE: Stops a queue accepting entries. (R223) -/
  | queuePause (ctx : Nat) (queue : Nat)
  /-- QUEUE_RESUME: Returns a paused queue to ACTIVE. (R223) -/
  | queueResume (ctx : Nat) (queue : Nat)
  /-- QUEUE_DISABLE: Puts a queue into OFF. (R223) -/
  | queueDisable (ctx : Nat) (queue : Nat)
  /-- QUEUE_CLEAR: Returns a queue in ERROR to OFF. (R223) -/
  | queueClear (ctx : Nat) (queue : Nat)
  /-- QUEUE_DOORBELL_WRITE: Offers or withdraws entries, or puts the queue into ERROR when out of window. (R229) -/
  | queueDoorbellWrite (ctx : Nat) (queue : Nat) (value : DWord)
  /-- QUEUE_CPL_CONS_WRITE: Records the completion records consumed by the host. (R228) -/
  | queueCplConsWrite (ctx : Nat) (queue : Nat) (value : DWord)
  /-- SS_ARM: Reads a superstep group's member bitmap and arms the group. (R277) -/
  | ssArm (ctx : Nat) (group : Nat)
  /-- SS_RESET: Returns a superstep group to OFF and releases its waiters. (R277) -/
  | ssReset (ctx : Nat) (group : Nat)
  /-- SS_DONE: Receives a DONE message for a step and completes the step once every member's DONE is in. (R279) -/
  | ssDone (node : Nat) (tag : Nat) (stepNo : Nat)
  /-- SS_TIMEOUT: Breaks a group whose arrival's step has not completed within TMO. (R279) -/
  | ssTimeout (ctx : Nat) (group : Nat)
  /-- WATCHDOG_EXPIRY: Raises DEADLOCK or sets QUIESCENT when every wave has waited for the watchdog interval. (R282) -/
  | watchdogExpiry (ctx : Nat)
  /-- PLACEMENT_TICK: Evaluates heat and starts automatic moves, then halves counters, every millisecond. (R295) -/
  | placementTick
  /-- RECALL: Receives an ownership recall for a shared tier-C frame at its owner. (R301) -/
  | recall (dframe : Nat) (node : Nat)
  /-- OWN_TIMEOUT: Raises a restartable fault when a hand-over has not finished within 2 ms. (R302) -/
  | ownTimeout (frame : Nat)
  /-- SHOOTDOWN_REQUEST: Removes matching translations, performs in-flight accesses, commits affected pending lines and forwards to children. (R288) -/
  | shootdownRequest (req : ShootReq)
  /-- SHOOTDOWN_ACK: Receives a child's acknowledgement with its completed count. (R289) -/
  | shootdownAck (serial : Nat) (child : Nat) (count : Nat) (fenced : List Nat)
  /-- SHOOTDOWN_CHILD_TIMEOUT: Fences a child that has not acknowledged within 500 microseconds and sends to its children. (R289) -/
  | shootdownChildTimeout (serial : Nat) (child : Nat)
  /-- FENCED_NODE_NOTICE: Sets this package's links to a fenced node FENCED. (R289) -/
  | fencedNodeNotice (node : Nat)
  /-- POOL_CREATE: Validates a pool's configuration and initialises its metadata. (R373) -/
  | poolCreate (ctx : Nat) (pool : Nat)
  /-- POOL_RESET: Frees every sequence of a pool and puts it into OFF. (R373) -/
  | poolReset (ctx : Nat) (pool : Nat)
  /-- FLIT_RECEIVE: Checks a received flit's CRC, requesting a replay on failure. (R430) -/
  | flitReceive (port : Nat) (crcOk : Bool) (intact : Bool) (flit : FlitRest)
  /-- PORT_LOCK: Moves a DOWN port to TRAINING on lock and lane alignment. (R431) -/
  | portLock (port : Nat)
  /-- PORT_TRAINING_DONE: Moves a training port to ACTIVE. (R431) -/
  | portTrainingDone (port : Nat)
  /-- PORT_TRAINING_TIMEOUT: Returns a port to DOWN after 10 ms without training. (R431) -/
  | portTrainingTimeout (port : Nat)
  /-- PORT_LOSS_OF_LOCK: Moves a port to DOWN on loss of lock. (R431) -/
  | portLossOfLock (port : Nat)
  /-- PORT_RETRAIN_DONE: Returns a retraining port to ACTIVE and resumes replay. (R431) -/
  | portRetrainDone (port : Nat)
  /-- PORT_RETRAIN_TIMEOUT: Moves a port to DOWN after 2 ms of retraining and discards its replay buffer. (R431) -/
  | portRetrainTimeout (port : Nat)
  /-- NODE_HANDSHAKE_DONE: Completes a node link's handshake and enters ACTIVE. (R433) -/
  | nodeHandshakeDone (node : Nat)
  /-- NODE_TRAINING_TIMEOUT: Returns a node link to DOWN after 1 ms of training. (R433) -/
  | nodeTrainingTimeout (node : Nat)
  /-- NODE_RETRAIN_TIMEOUT: Moves a node link to DOWN after 2 ms of retraining, losing its unacknowledged writes. (R433) -/
  | nodeRetrainTimeout (node : Nat)
  /-- FABRIC_ACCESS: Performs or refuses a fabric access at the peer, posted writes in sequence order. (R436) -/
  | fabricAccess (req : FabricReq)
  /-- FABRIC_ACK: Receives a cumulative acknowledgement, or refusal, of posted writes. (R434) -/
  | fabricAck (node : Nat) (seq : Nat) (refused : List Nat)
  /-- FABRIC_REPLY: Receives the reply of a remote load, atomic or get line. (R436) -/
  | fabricReply (request : Nat) (reply : FabricReply)
  /-- FENCE_BOUND_EXPIRY: Completes a system fence after 2 ms, withdrawing its unacknowledged writes. (R189) -/
  | fenceBoundExpiry (wave : Nat)
  /-- COLL_MESSAGE: Receives a collective message from a member for a round. (R440) -/
  | collMessage (msg : CollMsg)
  /-- LNK_UNFENCE: Moves a fenced node link to TRAINING. (R433) -/
  | lnkUnfence (node : Nat)
  /-- LNK_DOWN: Moves a node link to DOWN. (R433) -/
  | lnkDown (node : Nat)
  /-- LNK_FENCE: Moves a node link to FENCED. (R433) -/
  | lnkFence (node : Nat)
  /-- SESSION_OPEN: Starts the SPDM key exchange of a session slot. (R443) -/
  | sessionOpen (slot : Nat)
  /-- SESSION_LOCK: Locks an open session and its context. (R444) -/
  | sessionLock (slot : Nat)
  /-- SESSION_UNLOCK: Returns a locked session to OPEN. (R443) -/
  | sessionUnlock (slot : Nat)
  /-- SESSION_CLOSE: Returns a session slot to IDLE. (R443) -/
  | sessionClose (slot : Nat)
  /-- KEYUPD: Updates a session's keys. (R443) -/
  | keyupd (slot : Nat)
  /-- SPDM_MESSAGE: Handles an SPDM message of a session's key exchange. (R443) -/
  | spdmMessage (slot : Nat) (msg : SpdmMsg)
  /-- GET_MEASUREMENTS: Answers an SPDM measurement request with the signed image digest. (R454) -/
  | getMeasurements (index : Nat)
  /-- HOST_ACCESS: Serves a host PCIe read or write, snooped or No Snoop. (R166) -/
  | hostAccess (req : HostReq)
  /-- HBM_REPLY: Receives a tagged reply from an HBM4E base die. (R447) -/
  | hbmReply (dframe : Nat) (line : Nat) (err : EccResult)
  /-- MAPOUT: Maps out an HBM4E layer and evacuates its frames. (R449) -/
  | mapout (stack : Nat) (layer : Nat)
  /-- WAKE: Repeats the whole boot on a wake request from standby. (R455) -/
  | wake
  /-- STANDBY: Removes every rail, losing all state. (R455) -/
  | standby
  /-- THERMAL_TRIP: Removes power at once when a monitor reaches 115 degrees C. (R455) -/
  | thermalTrip
  /-- CLOCK_TICK: Refreshes monitors and steps the Bricor and Tlaska clocks every 10 microseconds. (R457) -/
  | clockTick (m : Readings)
  /-- COLL_TIMEOUT: Ends a collective round with status 3 when SS_CFG.TMO runs out before the round completes. (R440) -/
  | collTimeout (ctx : Nat) (group : Nat)
  /-- LPDDR_REPLY: Completes a tier-L device read at the Lintel, with the ECC correction or poisoning of R446. (R450) -/
  | lpddrReply (dframe : Nat) (line : Nat) (err : EccResult)
  /-- CXL_MEM_RESPONSE: Receives a CXL.mem response from a pool device, including a reported uncorrectable error that sets POISON. (R450) -/
  | cxlMemResponse (dframe : Nat) (line : Nat) (err : EccResult)
  deriving DecidableEq, Repr

end Sys2Proof
end

