-- ==== Sys2Proof/Machine/State.lean ====
section
/-! DEFINITION. The state of the machine as plain data: everything the spec gives the package, its contexts, the work
that runs in them and the messages in flight, and the machine right after reset. INVENTORY.md lists each piece with
its rule and its reset value. -/

namespace Sys2Proof.Machine

open Sys2Proof

/-- Why the machine stops with a fault. Both are safe: the spec gives no behaviour to go on with. -/
inductive Fault where
  /-- Raised by `step` and by every meaning of an instruction word when no group of a wave is in issue (`State.cur`
  is empty or names no resident wave): no run reaches it, since only an issuing wave executes a word (05_wave.md R120).
  Safe. -/
  | noIssuingWave
  deriving DecidableEq, Repr

/-- Why the machine refuses to act. -/
inductive Refusal where
  /-- Raised by the dispatch of an instruction that has no meaning yet, with its mnemonic. Safe. -/
  | notModelled (mnemonic : String)
  deriving DecidableEq, Repr

/-! ### Platform, devices -/

/-- The power state (22_platform.md R452, R455): reset released and boot not yet run, boot failed, running, off. -/
inductive Power where
  | released
  | failed
  | running
  | off
  deriving DecidableEq, Repr

/-- IDENTITY of the configuration image (R451): the ML-DSA-87 certificate and the sealed private key. -/
structure Identity where
  cert : List Byte := []
  sealedKey : List Byte := []
  deriving DecidableEq, Repr

/-- The signed configuration image (R451), whose payload address is held as the frame it is a multiple of, and beside it what
boot finds: the cryptographic check, the module's strap, the revision of the silicon and the training of the devices. -/
structure ConfigImage where
  order : Nat
  rev : Nat
  node : Nat
  /-- By grid row of the two Bricor dies, the physical position of the row's disabled core. -/
  coremap : List Nat
  mapout0 : Nat
  mapout1 : Nat
  /-- Voltage, clock and SerDes trims. -/
  trims : List Nat
  identity : Identity
  /-- The certificate chain and the signature verify and IDENTITY unseals (step 3). -/
  signatureOk : Bool
  /-- The module's strap (step 4). -/
  strap : Nat
  /-- The memories and ports train (step 5). -/
  trains : Bool
  /-- The Solon ports that lock at boot. -/
  portsUp : List Nat
  payload : List Byte
  /-- The frame at which the payload is loaded. -/
  paFrame : Nat
  root : Nat
  entry : DWord
  fqBase : Nat
  fqSize : Nat
  deriving DecidableEq, Repr

/-- The platform and memory-device registers (22_platform.md R458, 21_memory_devices.md). -/
structure Platform where
  order : Nat := 0
  rev : Nat := 0
  bootStatus : Nat := 0
  digest : Nat := 0
  coremap : List Nat := []
  trims : List Nat := []
  identity : Identity := {}
  stepNow : Nat := 0
  tstepNow : Nat := 0
  cap : Nat := 0
  tcap : Nat := 0
  tlim : Nat := 0x69
  powerLimit : Nat := 0xED8
  pkg : Nat := 0
  monsel : DWord := 0
  temps : List Int := []
  mvs : List Nat := []
  procs : List Nat := []
  /-- The tier-L device frames of the board (22_platform.md R452 step 5). -/
  memCapL : Nat := 0
  mapout0 : Nat := 0
  mapout1 : Nat := 0
  memCfg : DWord := 0x100
  memEvq : DWord := 0
  memEvqLost : Nat := 0
  memEvqCons : Nat := 0
  memEvqProd : Nat := 0
  errCE : Nat := 0
  errUE : Nat := 0
  /-- When each corrected error of a layer (stack × 16 + layer) within the last second was met (R449). -/
  layerCE : Cells (List Nat) := []
  /-- Layers whose map-out is owed or under way, the first one at its head, with the frames it took from MEM_CAP.H (R449). -/
  evacuating : List (Nat × Nat) := []
  deriving DecidableEq, Repr

/-- The metadata of a line (21_memory_devices.md R445): sync record (07_consistency.md R183), epoch tag, poison. -/
structure LineMeta where
  scope : Nat := 7
  node : Nat := 0
  agent : Nat := 0
  epoch : Nat := 0
  poison : Bool := false
  deriving DecidableEq, Repr

/-! ### Coherence -/

/-- The states of a line in a cluster cache (14_coherence.md R312). -/
inductive CacheState where
  | isWait
  | shared
  | smWait
  | imWait
  | modified
  | evict
  deriving DecidableEq, Repr

/-- A line of a cluster cache; a line with no entry is in I (R312). -/
structure CacheLine where
  st : CacheState
  dirty : Bool := false
  /-- In EV: the eviction carries data (PUTX) and not PUTS. -/
  owned : Bool := false
  /-- A load, or a store, of the cluster waits for the line to leave its transient state. -/
  wantLoad : Bool := false
  wantStore : Bool := false
  /-- Filled by a .stream load: the first to be replaced (06_memory_access.md R160). -/
  stream : Bool := false
  deriving DecidableEq, Repr

/-- The requests that queue at a home (R314, R317). -/
inductive HomeReq where
  | gets (agent : Nat)
  | getx (agent : Nat)
  | upg (agent : Nat)
  | noncaching (req : ByteAccess)
  | victim
  deriving DecidableEq, Repr

/-- The open transaction of a line (R317, R318): what it serves and the answers it awaits. -/
structure Transaction where
  req : HomeReq
  /-- The agents whose IACK is awaited, and the owner whose answer to a recall is. -/
  acks : List Nat := []
  recalling : Option Nat := none
  /-- The data of a recall that goes on to the requester (R317). -/
  data : Option LineData := none
  /-- The owner's PUTX or WBK has crossed the recall and brought the data (R319). -/
  crossed : Bool := false
  deriving DecidableEq, Repr

/-- A directory entry (R315, R316): the owner or the sharers, and the open transaction. -/
structure DirEntry where
  owner : Option Nat := none
  coarse : Bool := false
  /-- Pointers in order of arrival, or the set bits of the coarse vector. -/
  sharers : List Nat := []
  busy : Option Transaction := none
  deriving DecidableEq, Repr

/-- A line of a core's L0 (06_memory_access.md R160, 14_coherence.md R311). -/
structure L0Line where
  core : Nat
  line : Nat
  bytes : List Byte
  ro : Option Nat := none
  stream : Bool := false
  deriving DecidableEq, Repr

/-- A line of an instruction cache (08_context.md R222): its site (a Bricor core, or 1536 and up for the latency clusters), the
context and the virtual line it was fetched through, the package line, and its bytes. -/
structure FetchedLine where
  site : Nat
  ctx : Nat
  va : Nat
  line : Nat
  bytes : List Byte
  deriving DecidableEq, Repr

/-- A cached copy that a No Snoop write left behind the home's bytes (06_memory_access.md R166). -/
structure StaleCopy where
  agent : Nat
  line : Nat
  bytes : List Byte
  deriving DecidableEq, Repr

/-! ### Page -/

/-- The states of a migration (13_page.md R297). -/
inductive MigState where
  | idle
  | copying
  | draining
  | committed
  | aborted
  deriving DecidableEq, Repr

/-- A placement-map entry with its forwarding entry (R291, R297). Tiers are coded 1 H, 2 L, 3 C. -/
structure Placement where
  ctx : Nat
  tier : Nat
  dframe : Nat
  shr : Bool := false
  pin : Bool := false
  aff : Nat := 0
  fmt : Nat := 0
  rc : Nat := 0
  wc : Nat := 0
  mig : MigState := .idle
  /-- The other device frame of the migration: the new one until COMMITTED, the old one after it. -/
  otherTier : Nat := 0
  otherFrame : Nat := 0
  otherFmt : Nat := 0
  copied : Nat := 0
  shut : Bool := false
  owned : Bool := false
  /-- A hand-over to this package is in progress (R301). -/
  handover : Bool := false
  /-- The nodes whose recalls wait here, in order of arrival (R301). -/
  recalls : List Nat := []
  /-- The hand-over that accesses stall for has run out of its 2 ms (R302). -/
  timedOut : Bool := false
  /-- When ownership came to this package (R301, R307: it stays for 20 µs). -/
  ownedSince : Nat := 0
  deriving DecidableEq, Repr

/-- An entry of the pool's ownership table (R301). -/
structure OwnEntry where
  owner : Nat := 0
  handover : Bool := false
  deriving DecidableEq, Repr

/-- The place of a TLB (R287). -/
inductive TlbSite where
  | core (n : Nat)
  | cluster (c : Nat)
  | die (d : Nat)
  deriving DecidableEq, Repr

/-- A TLB entry: its context, its page and the PTE it holds (R287). -/
structure TlbEntry where
  site : TlbSite
  ctx : Nat
  base : Nat
  bits : Nat
  pte : DWord
  deriving DecidableEq, Repr

/-- The registers of a guest (R309). -/
structure Guest where
  thresh : DWord := 0
  evq : DWord := 0
  lost : Nat := 0
  cons : Nat := 0
  prod : Nat := 0
  deriving DecidableEq, Repr

/-- A shootdown in progress at this package (R289): its own request when `wave` is set, a peer's otherwise. -/
structure Shootdown where
  serial : Nat
  /-- The number under which the parent, a node, awaits the acknowledgement. -/
  reply : Nat := 0
  wave : Option Nat
  parent : Nat
  tag : Nat
  kind : ShootKind
  va : DWord
  member : Nat
  members : List Nat
  /-- The children (member numbers) that have neither acknowledged nor been fenced. -/
  waiting : List Nat
  count : Nat
  fenced : List Nat
  /-- What had translated through a removed entry and is still to be performed here (R288 step 2): engine operations, reduction
  rounds, requests to other packages, posted writes by node and number, tile lines on their way by block, tile and line. -/
  ops : List Nat := []
  rounds : List Nat := []
  requests : List Nat := []
  writes : List (Nat × Nat) := []
  tiles : List (Nat × Nat × Nat) := []
  deriving DecidableEq, Repr

/-! ### Link -/

/-- The states of a Solon port (20_link.md R431). -/
inductive PortState where
  | down
  | training
  | active
  | retraining
  deriving DecidableEq, Repr

/-- What the package sends out. -/
inductive OutMsg where
  | fabricAccess (node seq : Nat) (tag addr : Nat) (op : FabricOp) (sync : Option (Nat × Nat))
  | fabricRequest (node request : Nat) (tag addr : Nat) (op : FabricOp) (sync : Option (Nat × Nat))
  | fabricAck (node seq : Nat) (refused : List Nat)
  | fabricReply (node seq : Nat) (reply : FabricReply)
  | stepDone (node tag stepNo : Nat)
  | collective (node : Nat) (msg : CollMsg)
  | recall (node dframe : Nat)
  | ownership (dframe owner : Nat)
  | shootdown (node : Nat) (req : ShootReq)
  | shootdownAck (node serial member count : Nat) (fenced : List Nat)
  | fencedNotice (node target : Nat)
  | msix (ctx vec : Nat)
  | hostData (bytes : List Byte)
  | hostRefused
  | registerValue (value : DWord)
  | replayRequest (port : Nat)
  /-- A port sends the oldest flits of its replay buffer again, so many of them (20_link.md R430, R431). -/
  | replay (port count : Nat)
  /-- The image digest and the response's signature by the identity key (22_platform.md R454). -/
  | measurement (digest signature : Nat)
  | measurementError
  | keyExchange (slot : Nat)
  /-- KEY_UPDATE, END_SESSION, and the answer to a peer's KEY_UPDATE, HEARTBEAT or END_SESSION (20_link.md R443). -/
  | keyUpdate (slot : Nat)
  | endSession (slot : Nat)
  | spdmAnswer (slot : Nat)
  /-- The answer of the responder on the PCIe port to a message of R443 (22_platform.md R454). -/
  | doeAnswer (msg : SpdmMsg)
  /-- A member is told to hold a collective message back until the SAVED party is restored (20_link.md R440). -/
  | collDefer (node tag round : Nat)
  /-- The party is restored: the member sends its message of the round again. -/
  | collAgain (node tag round : Nat)
  /-- A recall of a requester sent on to the node that owns the frame now (13_page.md R301). -/
  | recallOnward (node dframe requester : Nat)
  deriving DecidableEq, Repr

/-- A Solon port (R430, R431): its state, the failed replays of the flit in hand, and the replay buffer: the messages it has
sent that the far end has not acknowledged, oldest first. -/
structure Port where
  st : PortState := .down
  failed : Nat := 0
  replay : List OutMsg := []
  deriving DecidableEq, Repr

/-- The states of a node link (R433). -/
inductive NodeState where
  | down
  | training
  | active
  | retraining
  | fenced
  deriving DecidableEq, Repr

/-- A posted write on a node link (R434): KIND of R435, the issuing context and wave, and whether it was withdrawn. -/
structure Posted where
  seq : Nat
  ctx : Nat
  wave : Nat
  kind : Nat
  addr : Nat
  fop : FabricOp
  sync : Option (Nat × Nat) := none
  /-- The engine operation the write is a line of (a put). -/
  op : Option Nat := none
  /-- The lanes whose write it is (07_consistency.md R189). -/
  lanes : Word := 0
  /-- Handed to the ports (a write posted while the link trains or retrains waits). -/
  emitted : Bool := false
  withdrawn : Bool := false
  deriving DecidableEq, Repr

/-- A node link (R433, R434). -/
structure NodeLink where
  st : NodeState := .down
  retrains : Nat := 0
  sent : Nat := 0
  acked : Nat := 0
  /-- The last sequence number received from the node and performed. -/
  received : Nat := 0
  unacked : List Posted := []
  /-- Messages other than writes and reads that wait while the link trains or retrains (R433). -/
  waiting : List OutMsg := []
  deriving DecidableEq, Repr

/-- The states of a session (R443). -/
inductive SessionState where
  | idle
  | keying
  | opened
  | locked
  | error
  deriving DecidableEq, Repr

/-- A session slot (R443, R444). -/
structure Session where
  st : SessionState := .idle
  cause : Nat := 0
  reg : DWord := 0
  /-- Counts the key sets in use: one more at every FINISH and KEY_UPDATE. -/
  keys : Nat := 0
  deriving DecidableEq, Repr

/-! ### Work: records, waves, blocks, launches -/

/-- A fault record: eight words (08_context.md R214). -/
abbrev Record := List DWord

/-- A line that a wave holds pending (05_wave.md R133): an address it was stored through, where it goes, the bytes stored,
the lowest lane that stored to it. -/
structure HeldLine where
  /-- The address of its lowest lane's store. -/
  va : Nat
  /-- Package address of the line. -/
  pa : Nat
  /-- The node of a fabric-remote line. -/
  remote : Option Nat
  /-- Offset in the line and byte. -/
  bytes : Cells Byte
  lane : Nat
  /-- The lanes that stored to it. -/
  lanes : Word := 0
  /-- A synchronising store among them: offset, size, scope (a `st.rel`). -/
  sync : List (Nat × Nat × Nat)
  deriving DecidableEq, Repr

/-- What lanes of a wave wait on (05_wave.md R128, 12_barrier.md R273, 10_kernel.md R253, 09_queue.md R233). -/
inductive WaitObj where
  | mask (k : Nat)
  /-- `barw`: the wait is the second part of a barw, whose arrival had this status (12_barrier.md R269). -/
  | barrier (entry : Nat) (gen phase : Nat) (barw : Bool) (status : Nat)
  | superstep (group : Nat) (stepNo : Nat) (arrived : Bool)
  | kernel (handle : Nat)
  | signal (va : DWord) (pa : Nat) (remote : Option Nat) (cond : Nat) (value : Nat) (scope : Nat) (external : Bool)
  deriving DecidableEq, Repr

/-- Lanes that wait at an instruction. -/
structure LaneWait where
  lanes : Word
  pc : DWord
  size : Nat
  sd : Nat
  obj : WaitObj
  deriving DecidableEq, Repr

/-- What holds a wave's issue while an instruction completes. -/
inductive Hold where
  /-- A fence waits for the acknowledgement of posted writes (07_consistency.md R189): its lanes, its pd, and how many of
  its writes were lost or refused so far. -/
  | fence (lanes : Word) (pd : Nat) (pc : DWord) (size : Nat) (lost : Nat)
  /-- A tlbinv waits for acknowledgements (R221). -/
  | tlbinv (lanes : Word) (pd : Nat) (serial : Nat)
  /-- An smx waits for its operation (18_attention.md R399). -/
  | operation (op : Nat)
  /-- A cinv.l1 or cwb waits until its home has taken the write-backs of these lines (06_memory_access.md R165). -/
  | writeback (agent : Nat) (lines : List Nat)
  /-- An access to another package waits for its replies (20_link.md R436): the result in flight, its lanes, the address
  behind the instruction, and whether the instruction is a region boundary, whose entries move only then. -/
  | reply (fill : Nat) (lanes : Word) (next : DWord) (boundary : Bool)
  /-- A halt.stop waits until no wave of its target is ACTIVE or PENDING (08_context.md R219). -/
  | halts (ctx : Nat)
  deriving DecidableEq, Repr

/-- Why a wave's last attempt to issue waited (05_wave.md R140). -/
inductive BlockReason where
  | register
  | counter
  | handle
  | engine
  | shadowOrLine
  /-- Lines or tiles that are on their way (06_memory_access.md R151, R153, R165). -/
  | cache
  | ownership
  | barrierObject
  | link
  deriving DecidableEq, Repr

/-- The life of a wave (R142). -/
inductive Life where
  | pending
  | active
  | suspended
  | halted
  | stopped
  | ending
  deriving DecidableEq, Repr

/-- The arrival a trap entry left standing (08_context.md R215). -/
structure Kept where
  pc : DWord
  /-- The token of a barw, or the group and step of an sstep. -/
  token : Option Nat
  group : Nat := 0
  stepNo : Nat := 0
  deriving DecidableEq, Repr

/-- A trap of class H that a halt has reached in the same cycle (08_context.md R220): the trapping lanes, their resume address, the
instruction and its words, and the code. -/
structure HeldTrap where
  lanes : Word
  resume : DWord
  pc : DWord
  word : DWord
  ext : Option DWord
  code : Nat
  deriving DecidableEq, Repr

/-- The register values of a wave: v registers by register × 32 + lane, s registers by number with the trap-mode set at
64 + number (R212), predicates by number × 32 + lane with the trap-mode set at number + 96, masks by number. -/
structure RegFile where
  v : Cells Word := []
  s : Cells DWord := []
  p : Cells Bool := []
  m : Cells Word := []
  deriving DecidableEq, Repr

/-- A wave, or a thread of a latency core (05_wave.md R115). -/
structure Wave where
  core : Nat
  slot : Nat
  ctx : Nat
  /-- The block, or none for a thread that no launch started. -/
  block : Option Nat := none
  wib : Nat := 0
  /-- v registers allocated (03_encoding.md R67). -/
  nv : Nat := 32
  age : Nat := 0
  life : Life := .active
  trapMode : Bool := false
  regs : RegFile := {}
  vEmpty : Cells Bool := []
  sEmpty : Cells Bool := []
  pcs : Cells DWord := []
  entries : Cells DWord := []
  resumes : Cells DWord := []
  starve : Cells Nat := []
  conv : Cells Word := []
  regionCount : Word := 0
  held : List HeldLine := []
  counters : Cells Nat := []
  waits : List LaneWait := []
  hold : Option Hold := none
  blocked : Option BlockReason := none
  /-- Why each of its groups that could not issue in its last turn waited (05_wave.md R134, R140). -/
  reasons : List BlockReason := []
  kept : List Kept := []
  trapRec : Record := []
  /-- The code of the wave's last restartable fault (08_context.md R202). -/
  faultCode : Nat := 0
  /-- A record not yet queued while the wave is HALTED, and, where it is a trap's, the trap not yet taken (R220). -/
  pendingRec : Option Record := none
  pendingTrap : Option HeldTrap := none
  /-- halt.stop reaches it at its next issue slot, together with what that slot brings (R219, R220). -/
  halting : Bool := false
  /-- RESUME was given while the context was SAVED (R210). -/
  resumed : Bool := false
  /-- Cohort slots: entry and member lanes (11_group.md R257). -/
  cohorts : List (Nat × Word) := []
  /-- Writes lost or refused before the fence that will report them, each by its lanes (07_consistency.md R189). -/
  lostWrites : List Word := []
  /-- The word that its waitsig waits for, as it first satisfied the condition at its home (09_queue.md R233). -/
  seenWord : Option Nat := none
  /-- Writes and put lines lost or refused since a superstep group was broken for them (12_barrier.md R278). -/
  lostSteps : Nat := 0
  deriving DecidableEq, Repr

/-- The state of a mapped-tile line (06_memory_access.md R151). -/
inductive TileLine where
  | invalid
  /-- Being fetched. -/
  | filling
  | clean
  | dirty
  deriving DecidableEq, Repr

/-- The state of a stash tile (R151). -/
inductive TileState where
  | unmapped
  | mapped
  | filling
  | resident
  deriving DecidableEq, Repr

/-- A stash tile: its mapping and its tags (R151, 15_copy_and_tiles.md R329). -/
structure Tile where
  st : TileState := .unmapped
  va : DWord := 0
  lines : Cells TileLine := []
  /-- The package line behind each line that is filled or being fetched (R152: it stays the one it was filled under). -/
  pas : Cells Nat := []
  /-- The bytes of each dirty line from before its first store, which a discarded tile leaves (08_context.md R203). -/
  old : Cells (List Byte) := []
  valid : Bool := false
  consumed : Bool := false
  rows : DWord := 0
  deriving DecidableEq, Repr

/-- The state of a handle (R327). -/
inductive HandleState where
  | free
  | filling
  | full
  | draining
  deriving DecidableEq, Repr

/-- A handle (R326): its state, the run of its last fill (first tile, tiles) and its ring flag. -/
structure Handle where
  st : HandleState := .free
  run : Option (Nat × Nat) := none
  ring : Bool := false
  deriving DecidableEq, Repr

/-- A tensor map (R330, R331). -/
structure TensorMap where
  base : DWord := 0
  rank : Nat := 1
  esz : Nat := 8
  box0 : Nat := 2
  box1 : Nat := 1
  box2 : Nat := 1
  ringDim : Nat := 0
  ext0 : Nat := 0
  ext1 : Nat := 0
  ext2 : Nat := 0
  ring : Nat := 0
  stride1 : DWord := 0
  stride2 : DWord := 0
  deriving DecidableEq, Repr

/-- A transform binding with the values of its descriptor (10_kernel.md R239). -/
structure Binding where
  kind : Nat
  fmt : Nat
  /-- Byte offset of the output in the stash. -/
  dst : Nat
  src : Nat
  aux : Nat
  pitch : Nat
  cols : Nat
  rows : Nat
  astride : Nat
  bstride : Nat
  deriving DecidableEq, Repr

/-- The fields of a launch record (10_kernel.md R235). -/
structure LaunchRec where
  entry : DWord := 0
  handles : Nat := 0
  stash : Nat := 0
  vregs : Nat := 32
  waves : Nat := 1
  nblock : Nat := 1
  pmask : Nat := 0
  nxform : Nat := 0
  cluster : Bool := false
  producer : Nat := 0
  accbanks : Nat := 0
  lmask : Word := 0
  preload : List DWord := []
  bindings : List Binding := []
  deriving DecidableEq, Repr

/-- A block (R235 to R247). -/
structure Block where
  ctx : Nat
  launch : Nat
  index : Nat
  core : Nat
  stashBase : Nat
  stashTiles : Nat
  handleCount : Nat
  producer : Nat
  /-- Waves not yet placed (before its prologue is done) or still resident. -/
  prologue : Bool := false
  retired : Bool := false
  /-- The wave slots granted to the block, in wave order (R243). -/
  slots : List Nat := []
  handles : Cells Handle := []
  maps : Cells TensorMap := []
  tiles : Cells Tile := []
  since : Nat := 0
  /-- Its prologue has started: its cycles count from then on (09_queue.md R231). -/
  begun : Bool := false
  deriving DecidableEq, Repr

/-- A kernel: a launch that has been accepted and not forgotten (R248). -/
structure Launch where
  ctx : Nat
  queue : Nat
  /-- The queue entry of a root, by host sequence number. -/
  hseq : Option Nat := none
  /-- The kernel-table entry of a kernel started by launch. -/
  entry : Option Nat := none
  parent : Option Nat := none
  root : Nat
  depth : Nat := 0
  fields : LaunchRec
  /-- Blocks handed to a die and not placed, blocks not yet handed out, blocks placed, blocks retired. -/
  nextBlock : Nat := 0
  returned : List Nat := []
  placed : Nat := 0
  retired : Nat := 0
  cycles : Nat := 0
  started : Bool := false
  /-- Ended as FAULTED or KILLED: the status it ends with. -/
  killed : Option Nat := none
  /-- The batch of blocks dropped before placement. -/
  dropped : Nat := 0
  ended : Bool := false
  deriving DecidableEq, Repr

/-- The state of a kernel-table entry (R248): 1 QUEUED, 2 RUNNING, 3 DONE, 4 FAULTED, 5 KILLED; an entry that is not
listed in use is FREE. -/
structure KernelEntry where
  st : Nat := 0
  gen : Nat := 0
  launch : Nat := 0
  deriving DecidableEq, Repr

/-- A read of stash bytes of a block that waits for its tile (06_memory_access.md R151), the v keys (low register first) or the
s register that its bytes go to, and the type code that says how a value is extended. -/
structure StashRead where
  block : Nat
  off : Nat
  len : Nat
  vs : List Nat
  ss : Option Nat
  ty : Nat
  lane : Nat
  pc : DWord
  va : Nat
  deriving DecidableEq, Repr

/-- A long-latency result in flight (03_encoding.md R70): its registers and whether its value has come. -/
structure Fill where
  wave : Nat
  vs : List (Nat × Word) := []
  ss : List (Nat × DWord) := []
  ready : Bool := true
  /-- The empties it is to fill: v keys and s keys. -/
  vKeys : List Nat := []
  sKeys : List Nat := []
  awaits : List StashRead := []
  deriving DecidableEq, Repr

/-- A fabric request that waits for a reply (20_link.md R436). -/
structure FabricWait where
  node : Nat
  addr : Nat
  /-- The wave, the fill, and the v keys (low register first) or the s register its bytes go to. -/
  wave : Nat
  fill : Nat
  lane : Nat
  pc : DWord
  vs : List Nat
  ss : Option Nat
  /-- The type code that says how the value is extended. -/
  ty : Nat
  scope : Nat
  /-- Bytes the wave held over the line when it loaded (05_wave.md R133), by offset. -/
  heldBytes : Cells Byte := []
  /-- The engine operation, destination address and length of a get line. -/
  getLine : Option (Nat × Nat × Nat)
  /-- The virtual address, and whether it is an atomic, as a record names them. -/
  va : Nat := 0
  write : Bool := false
  /-- Handed to the ports (a get line or the word of a waitsig waits while the link trains or retrains). -/
  emitted : Bool := true
  deriving DecidableEq, Repr

/-! ### Engine operations -/

/-- How a copy command moves data (15_copy_and_tiles.md R334 to R336, 18_attention.md R396). -/
inductive CopyKind where
  | tileIn
  | tileOut
  | bstore
  | boxIn
  | boxBstore
  | gatherIn
  | castIn
  | castBstore
  deriving DecidableEq, Repr

/-- A copy command: its block, handle, stash or B-store offset, run and data tiles, the next data tile, its source
(virtual address with the translations of its checks, or a map with an origin and gather rows) and, for a
multicast, its targets. -/
structure CopyJob where
  kind : CopyKind
  block : Nat
  handle : Nat
  offset : Nat
  run : Nat
  total : Nat
  next : Nat := 0
  ga : DWord
  /-- Virtual 64 KiB page and its package frame, from step f of R333. -/
  pages : Cells Nat
  tmap : TensorMap := {}
  origin : List Int := []
  rows : List (Option Int) := []
  targets : List Nat := []
  /-- The bytes, by package address, that its wave has written since it was issued, as they were before (R330). -/
  past : Cells Byte := []
  deriving DecidableEq, Repr

/-- An A operand: a stash address, or the register values of each row read at issue (16_matrix.md R353, R354). -/
inductive MatrixA where
  | stash (addr : Nat)
  | regs (rows : List (List Word))
  deriving DecidableEq, Repr

/-- An mxa or mxap (R355 to R358). -/
structure MatrixJob where
  pair : Bool
  bank : Nat
  a : MatrixA
  bo : Nat
  m : Nat
  n : Nat
  k : Nat
  af : Nat
  bf : Nat
  astride : Nat
  acc : Bool
  tags : Nat
  rmask : Bool
  /-- The follower block of an mxap, whose banks it names (R343, R358). -/
  mate : Option Nat := none
  /-- Virtual 64 KiB page and package frame of the mapped tiles of A, from step d of R368. -/
  pages : Cells Nat := []
  /-- The tiles of A that have been read: tile, bytes, row mask. -/
  got : List (Nat × List Byte × Nat) := []
  deriving DecidableEq, Repr

/-- An accdr (R364 to R366); `sr` is the generator of its stochastic draws: key and first counter. -/
structure DrainJob where
  toRegs : Bool
  vd : Nat
  fill : Option Nat
  live : Word
  bank : Nat
  sa : Nat
  df : Nat
  mode : Nat
  sat : Bool
  rows : Nat
  first : Nat
  c0 : Nat
  ncol : Nat
  stride : Nat
  sofs : Nat
  key : Nat
  counter : Nat
  pages : Cells Nat := []
  deriving DecidableEq, Repr

/-- An smx (18_attention.md R401, R402). -/
structure SoftmaxJob where
  sb : Nat
  pa : Nat
  ob : Nat
  tb : Nat
  tp : Nat
  nb : Nat
  n : Nat
  dc : Nat
  stride : Nat
  init : Bool
  pages : Cells Nat := []
  deriving DecidableEq, Repr

/-- A cred (R404, R405). -/
structure ReduceJob where
  fill : Nat
  ob : Nat
  ro : Nat
  tag : Nat
  desc : DWord
  pages : Cells Nat := []
  deriving DecidableEq, Repr

/-- An amask (R400): the elements to write are computed from these at its turn. -/
structure MaskJob where
  bank : Nat
  k0 : Nat
  q0 : Nat
  kind : Nat
  step : Bool
  arg : Nat
  n : Nat
  deriving DecidableEq, Repr

/-- A put or a get (20_link.md R437, R438): the next line and the lines still unacknowledged. -/
structure PutJob where
  isGet : Bool
  ctx : Nat
  dst : DWord
  src : DWord
  bytes : Nat
  pages : Cells Nat
  remotePages : Cells (Nat × Nat)
  next : Nat := 0
  outstanding : Nat := 0
  deriving DecidableEq, Repr

/-- A coll (R439, R440). -/
structure CollJob where
  fill : Nat
  ctx : Nat
  group : Nat
  round : Nat
  recv : DWord
  send : DWord
  desc : DWord
  pages : Cells Nat
  /-- The posted writes of its wave that precede it, by node and sequence number: it contributes once they are acknowledged. -/
  writes : List (Nat × Nat) := []
  /-- Its time ran out while the context was SAVED. -/
  timedOut : Bool := false
  deriving DecidableEq, Repr

/-- The operations that the Lintel performs on package frames (13_page.md R293): the commands, the placement instructions,
automatic moves and evacuations. -/
inductive PlaceAct where
  | map
  | unmap
  | move
  | take
  | pin
  | unpin
  | hint
  | query
  | recode
  | auto
  | evacuate
  | own
  deriving DecidableEq, Repr

/-- An operation on package frames: what it does, the frames it has still to act on (none: a fabric-remote one) with
the CMP of their PTEs, the number of those before them, and the result in flight that it gives. -/
structure PlaceJob where
  act : PlaceAct
  frames : List (Option Nat)
  cmps : List Nat := []
  index : Nat := 0
  /-- A target tier, an affinity, or what a query asks for. -/
  sel : Nat := 0
  ctx : Nat := 0
  shr : Bool := false
  dframe : Nat := 0
  fill : Option Nat := none
  /-- It has started a migration of the frame in hand, and waits for its end. -/
  started : Bool := false
  /-- The ordered pair of tiers whose 64 migrations it waits behind (R295, R299). -/
  pair : Option (Nat × Nat) := none
  /-- Of a pgown: its instruction, its lane and its address, for the record of an OWN_TIMEOUT (R307). -/
  pc : DWord := 0
  lane : Nat := 0
  va : Nat := 0
  deriving DecidableEq, Repr

/-- What a pool instruction asks of the pool engine, with its operands (17_block_pool.md R381). -/
inductive PoolAct where
  | balloc (pool : Nat)
  | bfree (pool addr : Nat)
  | seqnew (pool : Nat)
  /-- .head with its position, or .all. -/
  | seqdrop (handle : Nat) (pos : Option Nat)
  | seqfork (handle len : Nat)
  | kvapp (handle n : Nat)
  | kvpub (handle len scope : Nat)
  | seqlen (handle what pos : Nat)
  | poolq (pool what : Nat)
  deriving DecidableEq, Repr

/-- A pool instruction on its way to the pool engine (17_block_pool.md R374): the context, and the result in flight. -/
structure PoolJob where
  ctx : Nat
  act : PoolAct
  fill : Nat
  deriving DecidableEq, Repr

/-- What an engine operation does. -/
inductive OpKind where
  | copy (j : CopyJob)
  | pool (j : PoolJob)
  /-- A shutter operation whose update is on its way to the caches (19_shutter.md R416). -/
  | level (ctx shutter : Nat)
  | matrix (j : MatrixJob)
  | zero (bank n : Nat)
  | writeBank (writes : List (Nat × Word))
  | readBank (fill : Nat) (reads : List (Nat × Nat))
  | drain (j : DrainJob)
  | grant (fill : Nat) (n : Nat)
  | release (bank n : Nat)
  | mask (j : MaskJob)
  | softmax (j : SoftmaxJob)
  | reduce (j : ReduceJob)
  | put (j : PutJob)
  | coll (j : CollJob)
  /-- A pool or shutter operation, performed when it was issued. -/
  | performed
  /-- A kvapp whose copy has been written, but for parts that wait for shadows: the frames of the copy. -/
  | copied (frames : List Nat)
  /-- An operation on package frames, from its arrival on. -/
  | placement (j : PlaceJob)
  deriving DecidableEq, Repr

/-- An engine operation that has been issued and not retired (07_consistency.md R190). -/
structure EngineOp where
  wave : Nat
  block : Option Nat
  core : Nat
  /-- The class code of R190, or none for an operation that is not counted. -/
  cls : Option Nat
  kind : OpKind
  done : Bool := false
  /-- It waits for a tag, an owner or a shadow, and no event of its own is owed until that changes. -/
  stuck : Bool := false
  /-- The package address for whose shadows it waits (19_shutter.md R418). -/
  starves : Option Nat := none
  /-- Arrived at the matrix unit of its core (R341): its place in arrival order. -/
  arrival : Option Nat := none
  deriving DecidableEq, Repr

/-- The state of an accumulator bank (16_matrix.md R348). -/
inductive BankState where
  | free
  | granted (block : Nat)
  | freeing
  deriving DecidableEq, Repr

/-- A reduction round of a cluster (18_attention.md R404): its group, its shared fields, the contributions. -/
structure Round where
  group : Nat × Nat
  ro : Nat
  tag : Nat
  desc : DWord
  /-- Position, fill, block and rows: each row m, l and outputs. -/
  parts : List (Nat × Nat × Nat × List (List Word))
  /-- The translations of the root's mapped tiles (R408). -/
  pages : Cells Nat := []
  /-- The package address for whose shadows its writes wait (19_shutter.md R418). -/
  starves : Option Nat := none
  deriving DecidableEq, Repr

/-! ### Groups and barriers -/

/-- A cohort-table entry (11_group.md R258); `count = 0` is FREE. -/
structure Cohort where
  gen : Nat := 0
  live : Bool := false
  ctx : Nat := 0
  key : Word := 0
  group : Nat × Nat := (0, 0)
  deriving DecidableEq, Repr

/-- A barrier-table entry (12_barrier.md R266). -/
structure BarrierEntry where
  gen : Nat := 0
  live : Bool := false
  ctx : Nat := 0
  cohort : Nat := 0
  key : Nat := 0
  min : Nat := 0
  phase : Nat := 0
  /-- Arrived lanes of each wave. -/
  arrived : Cells Word := []
  deriving DecidableEq, Repr

/-- The states of a superstep group (R277). -/
inductive StepState where
  | off
  | armed
  | broken
  deriving DecidableEq, Repr

/-- A superstep group (R276 to R279). -/
structure StepGroup where
  nodes : DWord := 0
  cfg : DWord := 0
  st : StepState := .off
  cause : Nat := 0
  stepNo : Nat := 0
  arrived : Nat := 0
  members : List Nat := []
  /-- DONE messages received: node and step. -/
  dones : List (Nat × Nat) := []
  sentDone : Nat := 0
  /-- Collective rounds issued on the group (20_link.md R440). -/
  rounds : Nat := 0
  /-- The messages of its rounds: its own contributions and those that have come from other members. -/
  msgs : List CollMsg := []
  deriving DecidableEq, Repr

/-! ### Queues, pools, shutters, contexts -/

/-- The states of a queue (09_queue.md R223). -/
inductive QueueState where
  | off
  | active
  | paused
  | error
  deriving DecidableEq, Repr

/-- An accepted entry (R226, R230). -/
structure QEntry where
  hseq : Nat
  kind : Nat
  op : Nat
  irq : Bool
  fence : Bool
  addr : DWord
  value : DWord
  tag : DWord
  started : Bool := false
  launch : Option Nat := none
  deriving DecidableEq, Repr

/-- A queue (R223 to R230). -/
structure Queue where
  ring : DWord := 0
  cpl : DWord := 0
  cfg : DWord := 0
  st : QueueState := .off
  err : Nat := 0
  deficit : Int := 0
  doorbell : Nat := 0
  seen : Nat := 0
  done : Nat := 0
  cons : Nat := 0
  issued : Nat := 0
  entries : List QEntry := []
  deriving DecidableEq, Repr

/-- A sequence of a pool (17_block_pool.md R379): it is FREE unless `live`. -/
structure Sequence where
  gen : Nat := 1
  live : Bool := false
  len : Nat := 0
  pub : Nat := 0
  start : Nat := 0
  table : Cells Nat := []
  deriving DecidableEq, Repr

/-- A pool (R372, R376): a block that is not listed is FREE, one with count 0 is LOOSE, others are HELD. -/
structure Pool where
  vbase : DWord := 0
  cfg : DWord := 0
  layout : DWord := 0
  metaReg : DWord := 0
  live : Bool := false
  cause : Nat := 0
  blocks : Cells Nat := []
  seqs : Cells Sequence := []
  deriving DecidableEq, Repr

/-- The states of a shutter (19_shutter.md R413). -/
inductive ShutterState where
  | free
  | opened
  | closing
  deriving DecidableEq, Repr

/-- A shadow: the package line, the level (0: awaiting restore), the old bytes and poison state (R415, R424). -/
structure Shadow where
  line : Nat
  level : Nat
  bytes : List Byte
  poison : Bool
  /-- The tag a restore writes (R424). -/
  tag : Nat := 0
  deriving DecidableEq, Repr

/-- What a shutter operation does to the levels (19_shutter.md R422 to R424). -/
inductive LevelAct where
  | opens (epoch : Nat)
  | accept (level : Nat)
  | reject (level : Nat)
  deriving DecidableEq, Repr

/-- A shutter operation whose update is on its way to the caches (19_shutter.md R416): the operation, and its result in flight. -/
structure LevelJob where
  op : Nat
  fill : Nat
  act : LevelAct
  deriving DecidableEq, Repr

/-- A shutter (R411 to R413): its frames, its levels (own epoch first, then the set), its shadows, the lines to scrub and
the epochs its background work still holds. -/
structure Shutter where
  st : ShutterState := .free
  gen : Nat := 0
  frames : List Nat := []
  levels : List (List Nat) := []
  shadows : List Shadow := []
  scrub : List Nat := []
  /-- The RETIRED epochs of a sacc, and those of each srej with its lines that have not been restored (R424, R425). -/
  retired : List Nat := []
  rejects : List (List Nat × List Nat) := []
  /-- The operation that opens or closes a level, and the caches that have not taken its update (R416). -/
  pending : Option LevelJob := none
  updating : List Nat := []
  deriving DecidableEq, Repr

/-- The states of a context (08_context.md R201). -/
inductive CtxState where
  | empty
  | bound
  | runnable
  | running
  | preempting
  | saved
  | faulted
  | destroying
  deriving DecidableEq, Repr

/-- A saved image (R217, R218). Waves, blocks and operations keep their numbers; cores are kept relative to the
rectangle (as AGENT codes them). -/
structure Image where
  waves : List Wave := []
  blocks : List (Nat × Block) := []
  fills : List (Nat × Fill) := []
  ops : List (Nat × EngineOp) := []
  stash : Cells Byte := []
  acc : Cells Word := []
  poison : Cells Bool := []
  parity : Cells Bool := []
  banks : List (Nat × BankState) := []
  cohorts : Cells Cohort := []
  barriers : Cells BarrierEntry := []
  rounds : List (Nat × Round) := []
  /-- The 64 KiB parts of B-store slices that were saved: AGENT × 32 + part (16_matrix.md R347). -/
  bparts : List Nat := []
  /-- The bytes of the image area when it was written, for the digest. -/
  digest : Cells Byte := []
  deriving DecidableEq, Repr

/-- A context: its registers (R209) and the objects it owns. -/
structure Context where
  st : CtxState := .empty
  cmdst : Nat := 0
  lastcode : Nat := 0
  quiescent : Bool := false
  cfg : DWord := 0
  rect : DWord := 0x30000
  lcores : DWord := 0
  slices0 : DWord := 0
  slices1 : DWord := 0
  quota : DWord := 0
  heapBase : DWord := 0
  heapLimit : DWord := 0
  heapOffset : DWord := 0
  ptroot : DWord := 0
  trapPc : DWord := 0
  fq : DWord := 0
  fqCons : Nat := 0
  fqProd : Nat := 0
  sliceTime : DWord := 0
  imageReg : DWord := 0
  imageSize : Nat := 0
  dbg : DWord := 0
  dbgSel : DWord := 0
  fpCtl : DWord := 0
  srSeed : DWord := 0
  wdCfg : DWord := 0x7D0
  krnLimit : DWord := 0x100400
  krnPeak : Nat := 0
  shdNodes : DWord := 0
  shdCfg : DWord := 0
  mtxBsave : DWord := 0
  shtCfg : DWord := 0
  lnkCfg : DWord := 0
  lostq : DWord := 0
  lostCons : Nat := 0
  lostProd : Nat := 0
  lostCount : Nat := 0
  /-- Class F records that wait for room in the fault queue (R214). -/
  recordsWaiting : List Record := []
  halt : Bool := false
  /-- A FAIL accepted while PREEMPTING: its code. -/
  failWanted : Option Nat := none
  image : Option Image := none
  /-- The image area has been written, but for lines that wait for shadows (19_shutter.md R415, R418). -/
  saving : Bool := false
  kernels : Cells KernelEntry := []
  queues : Cells Queue := []
  groups : Cells StepGroup := []
  pools : Cells Pool := []
  shutters : Cells Shutter := []
  /-- Epochs LIVE (1) or RETIRED (2); the others are FREE (19_shutter.md R414). -/
  epochs : Cells Nat := []
  shadowFrames : List Nat := []
  starved : Bool := false
  /-- Collective messages that members hold back until the context is restored: node, TAG, round (20_link.md R440). -/
  collDeferred : List (Nat × Nat × Nat) := []
  /-- Free block places last reported by the two dies (10_kernel.md R244, R249). -/
  places0 : Nat := 0
  places1 : Nat := 0
  deriving DecidableEq, Repr

/-! ### Issue -/

/-- The group of lanes in issue: its wave, its program counter and the lanes, and its instruction words. -/
structure Issue where
  wave : Nat
  pc : DWord
  lanes : Word
  word : DWord := 0
  ext : Option DWord := none
  deriving DecidableEq, Repr

/-- How the last issue ended: it issued, it waits and issued nothing, or it raised a trap or fault. -/
inductive IssueResult where
  | issued
  | blocked
  | trapped
  deriving DecidableEq, Repr

/-- What the groups of one turn read: the wave's registers and full/empty bits of before it (05_wave.md R121). -/
structure TurnRegs where
  regs : RegFile := {}
  vEmpty : Cells Bool := []
  sEmpty : Cells Bool := []
  deriving DecidableEq, Repr

/-- What makes a record or an entry that the device has written visible (08_context.md R214, 09_queue.md R230, R234, 13_page.md R296,
20_link.md R435): a counter that rises once all of it is written. -/
inductive Publish where
  /-- PROD of a context's fault queue. -/
  | fault (ctx : Nat)
  /-- PROD of a context's lost-write queue. -/
  | lost (ctx : Nat)
  /-- DONE of a queue, and MSI-X where the entry asked for it. -/
  | done (ctx queue dseq : Nat) (irq : Bool)
  /-- DOORBELL of a queue, by qpush. -/
  | doorbell (ctx queue hseq : Nat)
  /-- PROD of a guest's placement events. -/
  | placement (guest : Nat)
  /-- PROD of the events of the memory devices. -/
  | memory
  deriving DecidableEq, Repr

/-- A write of an agent other than a wave that waits for shadows (19_shutter.md R418), and what it is a part of. -/
structure ShadowWait where
  ctx : Nat
  pa : Nat
  bytes : List Byte
  part : Option Publish := none
  deriving DecidableEq, Repr

end Sys2Proof.Machine

namespace Sys2Proof.Machine

/-- The state of the package. -/
structure State where
  power : Power := .released
  /-- The configuration flash, as the board holds it. -/
  flash : Option ConfigImage := none
  plat : Platform := {}
  /-- The package's node number (20_link.md R432). -/
  node : Nat := 0
  cycle : Nat := 0
  latencyCycle : Nat := 0
  timeNs : Nat := 0
  /-- Memory: device byte address and byte. -/
  mem : List Host.Cell := []
  /-- Metadata of device lines. -/
  lineMeta : Cells LineMeta := []
  /-- Guests of device frames that hold a frame or a shadow (21_memory_devices.md R448), by tier × 2^30 + frame. -/
  alloc : Cells Nat := []
  /-- Bytes of the device where a cache holds newer ones (06_memory_access.md R166). -/
  devOld : Cells (List Byte) := []
  stale : List StaleCopy := []
  cache : Cells CacheLine := []
  /-- WBKs whose ACKP is awaited, by agent and line (14_coherence.md R312). -/
  writebacks : Cells Nat := []
  /-- Accesses that wait for a way of their set: agent, line, whether it is a store (R310). -/
  cacheWait : List (Nat × Nat × Bool) := []
  /-- The lines that the L2 slices hold, and whether each is dirty (01_package.md R18). -/
  l2 : Cells Bool := []
  dir : Cells DirEntry := []
  homeQ : List (Nat × HomeReq) := []
  l0 : List L0Line := []
  /-- What the instruction caches and prefetch buffers hold (08_context.md R222). -/
  icache : List FetchedLine := []
  cohDira : DWord := 0
  cohDire : DWord := 0
  cross : Nat := 0
  overflow : Nat := 0
  place : Cells Placement := []
  ownTable : Cells OwnEntry := []
  plcArg : DWord := 0
  plcStatus : Nat := 0
  plcFrame : Nat := 0
  migCtl : DWord := 3
  migAborted : Nat := 0
  migDone : Nat := 0
  guests : Cells Guest := []
  tlb : List TlbEntry := []
  shootdowns : List Shootdown := []
  ports : Cells Port := []
  nodes : Cells NodeLink := []
  /-- The route ports of each node: a property of the fabric that the board holds (20_link.md R433). -/
  fabric : Cells (List Nat) := []
  /-- Fabric accesses that have arrived and wait for a predecessor, an owner or shadows (R434). -/
  fabricIn : List FabricReq := []
  /-- Host transactions that have arrived and are not performed, in order (07_consistency.md R199). -/
  hostIn : List HostReq := []
  sessions : Cells Session := []
  lnkNsel : DWord := 0
  lnkSsel : DWord := 0
  fabricWaits : Cells FabricWait := []
  collMsgs : List CollMsg := []
  keptDones : List (Nat × Nat × Nat) := []
  ctxs : Cells Context := []
  launches : Cells Launch := []
  /-- Blocks handed to each die and not placed: launch and block index, in the order received. -/
  dieLists : Cells (List (Nat × Nat)) := []
  /-- The queue that each priority level served last: context × 64 + queue. -/
  lastServed : Cells Nat := []
  blocks : Cells Block := []
  waves : Cells Wave := []
  /-- The slot that issued last in each pane (core × 4 + pane). -/
  lastSlot : Cells Nat := []
  fills : Cells Fill := []
  ops : Cells EngineOp := []
  stash : Cells Byte := []
  acc : Cells Word := []
  accPoison : Cells Bool := []
  accParity : Cells Bool := []
  banks : Cells BankState := []
  mtxErr : Cells Nat := []
  bstore : Cells Byte := []
  cohorts : Cells Cohort := []
  barriers : Cells BarrierEntry := []
  rounds : Cells Round := []
  shadowWaits : List ShadowWait := []
  /-- Records whose writes wait, or that stand behind such a one: what has still to make them visible, oldest first. -/
  unpublished : List Publish := []
  tickets : Nat := 0
  inbox : List Instr := []
  agenda : List Instr := []
  out : List OutMsg := []
  cur : Option Issue := none
  turnRegs : Option TurnRegs := none
  last : IssueResult := .issued
  /-- The argument of the next free value. -/
  tick : Nat := 0
  /-- The next unused number of launches, blocks, fills, operations, fabric requests, shootdowns, ages. -/
  nextId : Nat := 0
  deriving DecidableEq, Repr

/-- What an address that memory does not list reads as: zero, as boot writes the device frames of tiers H and L
(22_platform.md R452 step 5); DESIGN CHOICE for tier C (log 2). -/
def Memory.default : Byte := 0

/-- The canonical form of memory. -/
def Memory.wf (m : List Host.Cell) : Bool := Cells.wf Memory.default m

/-- The machine right after reset is released: boot has not run, no configuration image has been read, every register
holds its reset value. -/
def State.reset : State := {}

end Sys2Proof.Machine
end

