-- ==== Sys2Proof/Machine/Memory.lean ====
section
/-! DEFINITION. Memory as the package's homes keep it: device frames behind package addresses (01_package.md R22,
13_page.md R298), poison (21_memory_devices.md R446), shadows of shutters (19_shutter.md R415 to R418), the caches'
line states (14_coherence.md), the L0s, and the records the device queues. Byte values are performed here at once; the
protocol messages that carry them are events of the agenda. -/

namespace Sys2Proof.Machine

open Sys2Proof

/-! ### Small accessors -/

/-- A context; one that nothing has touched holds its reset values. -/
def State.ctxAt (s : State) (c : Nat) : Context := Cells.get {} s.ctxs c

/-- Changes a context. -/
def State.modCtx (s : State) (c : Nat) (f : Context → Context) : State :=
  { s with ctxs := Cells.set {} s.ctxs c (f (s.ctxAt c)) }

/-- Adds an event that the package owes itself. -/
def State.post (s : State) (i : Instr) : State := { s with agenda := s.agenda ++ [i] }

/-- Adds a message to those sent out of the package. -/
def State.send (s : State) (m : OutMsg) : State := { s with out := s.out ++ [m] }

/-- Takes the next unused number. -/
def State.fresh (s : State) : Nat × State := (s.nextId, { s with nextId := s.nextId + 1 })

/-! ### Device addresses -/

/-- The byte address of a device: its tier (1 H, 2 L, 3 C), device frame and offset. -/
def devByte (tier dframe off : Nat) : Nat := tier * 2 ^ 46 + dframe * 65536 + off

/-- Where line `n` of a frame stands: the new frame once a running migration has copied it (R298). -/
def Placement.seat (e : Placement) (n : Nat) : Nat × Nat :=
  if (e.mig = .copying || e.mig = .draining) && decide (n < e.copied) then (e.otherTier, e.otherFrame)
  else (e.tier, e.dframe)

/-- The device byte behind a package address, where the frame is backed (R22). -/
def State.device (s : State) (pa : Nat) : Option Nat :=
  (Cells.find s.place (pa / 65536)).map (fun e =>
    let (t, d) := e.seat (pa % 65536 / 128)
    devByte t d (pa % 65536))

/-- The frame of a package address has a placement entry (R22). -/
def State.backed (s : State) (pa : Nat) : Bool := (Cells.find s.place (pa / 65536)).isSome

/-- The metadata of a device line (R445). -/
def State.metaOf (s : State) (dl : Nat) : LineMeta := Cells.get {} s.lineMeta dl

/-- Changes the metadata of the device line behind a package address. -/
def State.modMeta (s : State) (pa : Nat) (f : LineMeta → LineMeta) : State :=
  match s.device pa with
  | none => s
  | some k => { s with lineMeta := Cells.set {} s.lineMeta (k / 128) (f (s.metaOf (k / 128))) }

/-- The metadata of the line at a package address. -/
def State.lineMetaAt (s : State) (pa : Nat) : LineMeta :=
  match s.device pa with
  | none => {}
  | some k => s.metaOf (k / 128)

/-- The home of a line, by number: the L2 slice of a tier-H device frame (65,536 frames each; DESIGN CHOICE, log 5),
or 128 for the Lintel (R310). -/
def State.homeOf (s : State) (line : Nat) : Nat :=
  match Cells.find s.place (line / 512) with
  | none => 128
  | some e => if e.tier = 1 then e.dframe / 65536 else 128

/-- Counts a request that a frame's device serves (R294): `read` for RC, else WC. -/
def State.countDevice (s : State) (line : Nat) (read : Bool) : State :=
  { s with place := Cells.modify s.place (line / 512) (fun e =>
      if read then { e with rc := Nat.min 255 (e.rc + 1) } else { e with wc := Nat.min 255 (e.wc + 1) }) }

/-- Lines leave the L2 slices; the dirty ones are written to their devices. -/
def State.l2Flush (s : State) (p : Nat → Bool) : State :=
  s.l2.foldl (fun t (line, dirty) => if p line && dirty then t.countDevice line false else t)
    { s with l2 := s.l2.filter (fun (line, _) => !p line) }

/-- A line enters its L2 slice, of 16,384 lines (01_package.md R18); a full slice gives up a line, chosen freely. -/
def State.l2Enter (s : State) (line : Nat) (dirty : Bool) : State :=
  let h := s.homeOf line
  let mine := s.l2.filter (fun (l, _) => s.homeOf l == h)
  let t := if mine.length < 16384 then s
    else match mine[Config.victim s.tick % mine.length]? with
      | none => s
      | some (v, _) => s.l2Flush (fun l => l == v)
  { t with l2 := Cells.put t.l2 line dirty }

/-- A request at the home of a line reads or writes the line: in its L2 slice, where a hit is no request to the device (R294), or,
at the Lintel, at the device. A line that misses is read from the device and enters the slice; a line written there reaches the
device when it leaves (write-back, allocated by reads and writes: DESIGN CHOICE, log 69). -/
def State.countAccess (s : State) (pa : Nat) (read : Bool) : State :=
  let line := pa / 128
  if s.homeOf line = 128 then s.countDevice line read
  else match Cells.find s.l2 line with
    | some dirty => { s with l2 := Cells.put s.l2 line (dirty || !read) }
    | none => (if read then s.countDevice line true else s).l2Enter line (!read)

/-! ### Shutters at a line -/

/-- The shutter, open or closing, whose range holds a package address: its context, its id and itself (R411). -/
def State.shutterOf (s : State) (pa : Nat) : Option (Nat × Nat × Shutter) :=
  match Cells.find s.place (pa / 65536) with
  | none => none
  | some e =>
    if e.shut then
      ((s.ctxAt e.ctx).shutters.find? (fun (_, sh) => decide (sh.st ≠ .free) && sh.frames.contains (pa / 65536))).map
        (fun (i, sh) => (e.ctx, i, sh))
    else none

/-- The shadow a line awaits restore from (R424). -/
def Shutter.pendingOf (sh : Shutter) (line : Nat) : Option Shadow :=
  sh.shadows.find? (fun x => x.line == line && x.level == 0)

/-- The shadow that the line at a package address awaits restore from. -/
def State.pendingShadow (s : State) (pa : Nat) : Option Shadow :=
  match s.shutterOf pa with
  | none => none
  | some (_, _, sh) => sh.pendingOf (pa / 128)

/-- One byte at a package address, as an access finds it: a line that awaits restore reads as its shadow (R424), a
poisoned line as 0xFF (R446). -/
def State.peekByte (s : State) (pa : Nat) : Byte :=
  match s.device pa with
  | none => Memory.default
  | some k =>
    match s.pendingShadow pa with
    | some sh => if sh.poison then 0xFF else sh.bytes.getD (pa % 128) 0
    | none => if (s.metaOf (k / 128)).poison then 0xFF else Cells.get Memory.default s.mem k

/-- The bytes from a package address on. -/
def State.peek (s : State) (pa len : Nat) : List Byte := (List.range len).map (fun i => s.peekByte (pa + i))

/-- The value of the `len` bytes from a package address on (R6). -/
def State.peekNat (s : State) (pa len : Nat) : Nat := ofBytes (s.peek pa len)

/-- The shadows a context holds. -/
def Context.heldShadows (c : Context) : Nat := (c.shutters.map (fun (_, sh) => sh.shadows.length)).foldl (· + ·) 0

/-- The free shadows of a context's pool (R417). -/
def Context.freeShadows (c : Context) : Nat := 504 * c.shadowFrames.length - c.heldShadows

/-- The highest level in whose epoch set a tag lies, 0 if in none (R415). -/
def Shutter.levelOf (sh : Shutter) (tag : Nat) : Nat :=
  (sh.levels.zipIdx.foldl (fun j (es, i) => if es.contains tag then i + 1 else j) 0)

/-- The own epoch of the innermost level, e(d). -/
def Shutter.ownEpoch (sh : Shutter) (level : Nat) : Nat := ((sh.levels.getD (level - 1) []).headD 0)

/-- What a write to the line at a package address needs (R415): the shutter's context, its id, the shadows. -/
def State.shadowNeed (s : State) (pa : Nat) : Option (Nat × Nat × Nat) :=
  match s.shutterOf pa with
  | none => none
  | some (c, i, sh) =>
    if sh.st = .opened then some (c, i, sh.levels.length - sh.levelOf (s.lineMetaAt pa).epoch) else none

/-- Replaces a shutter of a context. -/
def State.setShutter (s : State) (c i : Nat) (sh : Shutter) : State :=
  s.modCtx c (fun x => { x with shutters := Cells.set {} x.shutters i sh })

/-- Bits 23:0 of a shutter's reference (R412). -/
def shutterRef (c i : Nat) (sh : Shutter) : Nat := c * 65536 + sh.gen * 256 + i

/-- Takes the shadows that a write to the line needs and tags the line e(d) (R415). -/
def State.takeShadows (s : State) (pa : Nat) : State :=
  match s.shutterOf pa with
  | none => s
  | some (c, i, sh) =>
    let d := sh.levels.length
    let m := s.lineMetaAt pa
    let j0 := sh.levelOf m.epoch
    if sh.st = .opened && decide (j0 < d) then
      let bytes := s.peek (pa / 128 * 128) 128
      let new := (List.range (d - j0)).map (fun j =>
        { line := pa / 128, level := j0 + 1 + j, bytes := bytes, poison := m.poison : Shadow })
      (s.setShutter c i { sh with shadows := sh.shadows ++ new }).modMeta pa (fun x =>
        { x with epoch := sh.ownEpoch d })
    else s

/-- Clears SHUT on frames (R413). -/
def State.setShut (s : State) (frames : List Nat) (b : Bool) : State :=
  { s with place := frames.foldl (fun p f => Cells.modify p f (fun e => { e with shut := b })) s.place }

/-- Epochs of a context become FREE. -/
def State.freeEpochs (s : State) (c : Nat) (es : List Nat) : State :=
  s.modCtx c (fun x => { x with epochs := es.foldl (fun m e => Cells.del m e) x.epochs })

/-- Ends the background work of a shutter as far as it is done: the epochs of an srej whose last line has been restored become
FREE, those of a sacc once every line is scrubbed; a CLOSING shutter with no work left becomes FREE (R424, R425). -/
def State.settleShutter (s : State) (c i : Nat) : State :=
  match Cells.find (s.ctxAt c).shutters i with
  | none => s
  | some sh =>
    let ended := sh.rejects.filter (fun x => x.2.isEmpty)
    let sh1 := { sh with rejects := sh.rejects.filter (fun x => !x.2.isEmpty) }
    let s1 := (s.freeEpochs c (ended.flatMap (·.1))).setShutter c i sh1
    if sh.shadows.any (fun x => x.level == 0) || !sh.scrub.isEmpty then s1
    else
      let s2 := s1.freeEpochs c sh.retired
      if sh.st = .closing then (s2.setShut sh.frames false).setShutter c i { gen := sh.gen }
      else s2.setShutter c i { sh1 with retired := [] }

/-- Writes bytes over memory from a device byte on. -/
def State.store (s : State) (k : Nat) (bs : List Byte) : State :=
  { s with mem := Cells.setRun Memory.default s.mem k bs }

/-- The state a mapped tile is in by its lines: FILLING while one is on its way (06_memory_access.md R151). -/
def Tile.settled (t : Tile) : Tile :=
  { t with st := if t.lines.any (fun (_, x) => x == .filling) then .filling else .resident }

/-- A tile none of whose lines with the line numbers that `p` names is filled or on its way any more. -/
def Tile.dropLines (t : Tile) (p : Nat → Bool) : Tile :=
  if t.st = .resident ∨ t.st = .filling then
    { t with lines := t.lines.filter (fun (l, _) => !(match Cells.find t.pas l with
      | none => false
      | some n => p n)) }.settled
  else t

/-- Makes the stash copies of a line invalid but those of one tile of one block (06_memory_access.md R152). -/
def State.dropTileLine (s : State) (pa : Nat) (but : Option (Nat × Nat)) : State :=
  { s with blocks := s.blocks.map (fun (b, blk) => (b, { blk with tiles := blk.tiles.map (fun (t, tile) =>
      if some (b, t) = but then (t, tile)
      else (t, { tile with lines := tile.lines.filter (fun (l, x) => x == .filling || Cells.find tile.pas l != some (pa / 128)) })) })) }

/-- Restores a line that awaits restore, before any access to it (R424): no copy of what the line held is left. -/
def State.restoreLine (s : State) (pa : Nat) : State :=
  match s.shutterOf pa, s.device (pa / 128 * 128) with
  | some (c, i, sh), some k =>
    match sh.pendingOf (pa / 128) with
    | none => s
    | some x =>
      let sh1 := { sh with shadows := sh.shadows.filter (fun y => !(y.line == x.line && y.level == 0))
                           rejects := sh.rejects.map (fun (es, ls) => (es, ls.filter (fun l => l != x.line))) }
      let s1 : State := { s.dropTileLine pa none with devOld := Cells.del s.devOld (k / 128)
                                                      stale := s.stale.filter (fun y => y.line != x.line) }
      (((s1.store k x.bytes).modMeta pa (fun m => { m with epoch := x.tag, poison := x.poison })).setShutter c i
        sh1).settleShutter c i
  | _, _ => s

/-! ### Writes -/

/-- Splits bytes from an address on into the parts that lie in one line each. -/
def splitLines : Nat → Nat → List Byte → List (Nat × List Byte)
  | 0, _, _ => []
  | n + 1, pa, bs =>
    if bs.isEmpty then []
    else
      let k := 128 - pa % 128
      (pa, bs.take k) :: splitLines n (pa + k) (bs.drop k)

/-- The lines that `len` bytes from `pa` on touch, by their first addresses. -/
def linesOf (pa len : Nat) : List Nat :=
  if len = 0 then [] else (List.range ((pa + len - 1) / 128 - pa / 128 + 1)).map (fun i => (pa / 128 + i) * 128)

/-- A wait that holds the whole wave: a waitsig (09_queue.md R233). -/
def LaneWait.wholeWave (x : LaneWait) : Bool :=
  match x.obj with
  | .signal _ _ _ _ _ _ _ => true
  | _ => false

/-- A condition on a signal word (09_queue.md R226, R232), unsigned. -/
def signalHolds (cond word v : Nat) : Bool :=
  match cond with
  | 0 => word == v
  | 1 => word != v
  | 2 => decide (v ≤ word)
  | _ => decide (word < v)

/-- The wait of a waitsig. -/
def Wave.signalWait (w : Wave) : Option LaneWait := w.waits.find? LaneWait.wholeWave

/-- A waitsig whose word lies in a line that has been written: its home looks at the word (09_queue.md R233). -/
def Wave.noteSignal (w : Wave) (line : Nat) (word : Nat → Nat) : Wave :=
  match w.signalWait.map LaneWait.obj with
  | some (.signal _ pa none cond value _ _) =>
    if pa / 128 = line ∧ w.seenWord = none ∧ signalHolds cond (word pa) value then { w with seenWord := some (word pa) } else w
  | _ => w

/-- After a write in a line, the homes of the words that waves wait for look at them. -/
def State.noteSignals (s : State) (pa : Nat) : State :=
  { s with waves := s.waves.map (fun (k, w) => (k, w.noteSignal (pa / 128) (fun a => s.peekNat a 8))) }

/-- Performs a write inside one line (R446: a write of all 128 bytes clears POISON, a partial write of a poisoned
line is lost). `but` is the tile of a block that the write goes through. -/
def State.performWrite (s : State) (pa : Nat) (bs : List Byte) (but : Option (Nat × Nat) := none) : State :=
  match s.device pa with
  | none => s
  | some k =>
    let m := s.metaOf (k / 128)
    let s1 := s.dropTileLine pa but
    if m.poison then
      if bs.length = 128 then ((s1.modMeta pa (fun x => { x with poison := false })).store k bs).noteSignals pa else s1
    else (s1.store k bs).noteSignals pa

/-- A wave's write inside one line, judged under the shutter of its line: done, or refused with the reference that
SHADOW_FULL reports (R415, R417). -/
def State.waveWrite (s0 : State) (pa : Nat) (bs : List Byte) (but : Option (Nat × Nat) := none) : Except Nat State :=
  let s := s0.restoreLine pa
  match s.shadowNeed pa with
  | none => .ok (s.performWrite pa bs but)
  | some (c, i, n) =>
    let x := s.ctxAt c
    if n = 0 || decide (n + bitsOf x.shtCfg.toNat 19 0 ≤ x.freeShadows) then
      .ok ((s.takeShadows pa).performWrite pa bs but)
    else .error (shutterRef c i (Cells.get {} x.shutters i))

/-- A write of another agent inside one line, which ignores RESV: done, or none while shadows are missing (R418). -/
def State.tryWrite (s0 : State) (pa : Nat) (bs : List Byte) : Option State :=
  let s := s0.restoreLine pa
  match s.shadowNeed pa with
  | none => some (s.performWrite pa bs)
  | some (c, _, n) =>
    if n ≤ (s.ctxAt c).freeShadows then some ((s.takeShadows pa).performWrite pa bs) else none

/-- Tells the home of a line that a requester without a cache has acted on it, so that its directory follows
(R317, R321): the value has been performed, and the request carries no bytes. -/
def State.homeWrite (s : State) (pa : Nat) : State :=
  if (Cells.find s.dir (pa / 128)).isSome || s.homeQ.any (fun q => q.1 == pa / 128) then
    s.post (.noncachingRequest ⟨pa / 128 * 128, 0, some []⟩)
  else s.countAccess pa false

/-- As `homeWrite`, for a read. -/
def State.homeRead (s : State) (pa : Nat) : State :=
  if (Cells.find s.dir (pa / 128)).isSome || s.homeQ.any (fun q => q.1 == pa / 128) then
    s.post (.noncachingRequest ⟨pa / 128 * 128, 0, none⟩)
  else s.countAccess pa true

/-! ### Records the device queues -/

/-- The bytes of 64-bit words. -/
def wordBytes (ws : List DWord) : List Byte := ws.flatMap (fun w => toBytes 8 w.toNat)

/-- The entries a queue register with a SIZE field in bits 3:0 holds: 2^(6 + SIZE). -/
def queueSize (r : DWord) : Nat := 2 ^ (6 + r.toNat % 16)

/-- The base of a queue register: bits 51:12. -/
def queueBase (r : DWord) : Nat := bitsOf r.toNat 51 12 * 4096

/-- A queue of a context. -/
def Context.queueAt (x : Context) (q : Nat) : Queue := Cells.get {} x.queues q

/-- Changes a queue of a context. -/
def State.modQueue (s : State) (c q : Nat) (f : Queue → Queue) : State :=
  s.modCtx c (fun x => { x with queues := Cells.set {} x.queues q (f (x.queueAt q)) })

/-- A guest; one that nothing has touched holds its reset values. -/
def State.guestAt (s : State) (g : Nat) : Guest := Cells.get {} s.guests g

/-- Changes a guest. -/
def State.modGuest (s : State) (g : Nat) (f : Guest → Guest) : State :=
  { s with guests := Cells.set {} s.guests g (f (s.guestAt g)) }

/-- Two publications raise the same counter. -/
def Publish.same (a b : Publish) : Bool :=
  match a, b with
  | .done c q _ _, .done d r _ _ => c == d && q == r
  | .doorbell c q _, .doorbell d r _ => c == d && q == r
  | x, y => x == y

/-- How many records of a counter are written, or on their way, and not visible yet. -/
def State.hidden (s : State) (p : Publish) : Nat := (s.unpublished.filter (Publish.same p)).length

/-- A record becomes visible: its counter rises, as a release at .sys (08_context.md R214, 09_queue.md R230, R234, 13_page.md R296). -/
def State.publish (s : State) (p : Publish) : State :=
  match p with
  | .fault c => s.modCtx c (fun y => { y with fqProd := (y.fqProd + 1) % 2 ^ 32 })
  | .lost c => s.modCtx c (fun y => { y with lostProd := (y.lostProd + 1) % 2 ^ 32 })
  | .done c q d irq =>
    let t := s.modQueue c q (fun y => { y with done := d })
    if irq then t.send (.msix c (bitsOf ((s.ctxAt c).queueAt q).cfg.toNat 15 8)) else t
  | .doorbell c q n => s.modQueue c q (fun y => { y with doorbell := n })
  | .placement g => s.modGuest g (fun z => { z with prod := (z.prod + 1) % 2 ^ 32 })
  | .memory => { s with plat := { s.plat with memEvqProd := (s.plat.memEvqProd + 1) % 2 ^ 32 } }

/-- The device writes a record or an entry, part by part of a line, and makes it visible. A part that finds too few shadows waits
at its home (19_shutter.md R418), and the record becomes visible when it is written, after those before it. -/
def State.deviceWrite (s : State) (pa : Nat) (bs : List Byte) (p : Publish) : State :=
  let t := (splitLines (bs.length + 1) pa bs).foldl (fun t (a, xs) =>
    match t.tryWrite a xs with
    | some u => u.homeWrite a
    | none => { t with shadowWaits := t.shadowWaits ++
        [⟨((Cells.find t.place (a / 65536)).map (·.ctx)).getD 0, a, xs, some p⟩] }) s
  if 0 < t.hidden p || t.shadowWaits.any (fun x => x.part.any (Publish.same p)) then { t with unpublished := t.unpublished ++ [p] }
  else t.publish p

/-- The records of counters for which no write waits any more become visible. -/
def State.settlePublish (s : State) : State :=
  let stays (p : Publish) : Bool := s.shadowWaits.any (fun x => x.part.any (Publish.same p))
  (s.unpublished.filter (fun p => !stays p)).foldl State.publish { s with unpublished := s.unpublished.filter stays }

/-- Writes a fault record at PROD and raises PROD, a release at .sys (08_context.md R214). -/
def State.writeRecord (s : State) (c : Nat) (r : Record) : State :=
  let x := s.ctxAt c
  s.deviceWrite (queueBase x.fq + 64 * ((x.fqProd + s.hidden (.fault c)) % queueSize x.fq)) (wordBytes r) (.fault c)

/-- The fault queue of a context is full (R214). -/
def State.fqFull (s : State) (c : Nat) : Bool :=
  let x := s.ctxAt c
  (x.fqProd + s.hidden (.fault c) + 2 ^ 32 - x.fqCons) % 2 ^ 32 == queueSize x.fq

/-- Queues a class F record: it waits for room where the queue is full (R214). -/
def State.queueRecord (s : State) (c : Nat) (r : Record) : State :=
  let x := s.ctxAt c
  if s.fqFull c || !x.recordsWaiting.isEmpty then
    s.modCtx c (fun y => { y with recordsWaiting := y.recordsWaiting ++ [r] })
  else s.writeRecord c r

/-- Queues a class C record: one that finds the queue full is lost (R214). -/
def State.queueRecordC (s : State) (c : Nat) (r : Record) : State :=
  if s.fqFull c then s else s.writeRecord c r

/-- Writes the waiting records for which CONS has made room (R214), at most `n`. -/
def State.drainRecords (s : State) (c : Nat) : Nat → State
  | 0 => s
  | n + 1 =>
    match (s.ctxAt c).recordsWaiting with
    | [] => s
    | r :: rs =>
      if s.fqFull c then s
      else State.drainRecords ((s.modCtx c (fun y => { y with recordsWaiting := rs })).writeRecord c r) c n

/-- The starved record of R418, at a cycle of the package. -/
def starvedRecord (pa ref cycle : Nat) : Record :=
  [BitVec.ofNat 64 (0x24 * 2 ^ 32 + 2 ^ 24), 0, BitVec.ofNat 64 (pa / 128 * 128), BitVec.ofNat 64 ref, 0, 0, 0, BitVec.ofNat 64 cycle]

/-- The first write of an agent other than a wave that finds too few shadows since STARVED was 0 sets STARVED and queues a
record (R418). -/
def State.noteStarved (s : State) (pa : Nat) : State :=
  match s.shadowNeed pa with
  | none => s
  | some (c, i, _) =>
    let x := s.ctxAt c
    if x.starved then s
    else (s.modCtx c (fun y => { y with starved := true })).queueRecord c
      (starvedRecord pa (shutterRef c i (Cells.get {} x.shutters i)) s.cycle)

/-- A write of an agent other than a wave that finds too few shadows waits at its home (R418). -/
def State.deferWrite (s : State) (pa : Nat) (bs : List Byte) : State :=
  match s.shadowNeed pa with
  | none => s
  | some (c, _, _) => ({ s with shadowWaits := s.shadowWaits ++ [{ ctx := c, pa := pa, bytes := bs }] } : State).noteStarved pa

/-- Bytes written by an engine, the host or a peer at package addresses (R321, R418). -/
def State.engineWrite (s : State) (pa : Nat) (bs : List Byte) : State :=
  (splitLines (bs.length + 1) pa bs).foldl (fun t (a, xs) =>
    match t.tryWrite a xs with
    | some u => u.homeWrite a
    | none => (t.restoreLine a).deferWrite a xs) s

/-- Bytes read by an engine, the host or a peer: lines awaiting restore are restored first (R424). -/
def State.engineRead (s : State) (pa len : Nat) : List Byte × State :=
  let s1 := (linesOf pa len).foldl (fun t a => (t.restoreLine a).homeRead a) s
  (s1.peek pa len, s1)

/-! ### Caches of a cluster -/

/-- The cluster of a core, which numbers its coherent agent (R16, R310). -/
def clusterOf (core : Nat) : Nat := if core < 1536 then core / 8 else 192 + (core - 1536) / 4

/-- The key of a line in an agent's cache. -/
def cacheKey (agent line : Nat) : Nat := agent * 2 ^ 46 + line

/-- The state of a line in an agent's cache; `none` is I. -/
def State.cacheAt (s : State) (agent line : Nat) : Option CacheLine := Cells.find s.cache (cacheKey agent line)

def State.setCache (s : State) (agent line : Nat) (c : CacheLine) : State :=
  { s with cache := Cells.put s.cache (cacheKey agent line) c }

/-- The sets of an agent's cache (R310). -/
def cacheSets (agent : Nat) : Nat := if agent < 192 then 1024 else 512

/-- Bits 26:0 of a sync record (R183). -/
def LineMeta.record (m : LineMeta) : Nat := m.scope * 2 ^ 24 + m.node * 2 ^ 12 + m.agent

/-- What a message that carries a line carries (R313): its bytes as the sender holds them, its sync record and its tag. -/
def State.lineData (s : State) (line : Nat) : LineData :=
  let m := s.lineMetaAt (line * 128)
  { bytes := s.peek (line * 128) 128, record := m.record, epoch := m.epoch }

/-- The stash copies of a line in the tiles of a cluster's cores: their states change by `f`; no state is an invalid line. -/
def State.agentTiles (s : State) (agent line : Nat) (f : TileLine → Option TileLine) : State :=
  { s with blocks := s.blocks.map (fun (b, blk) =>
      if clusterOf blk.core ≠ agent then (b, blk)
      else (b, { blk with tiles := blk.tiles.map (fun (t, tile) => (t, { tile with lines := tile.lines.filterMap (fun (l, x) =>
        if Cells.find tile.pas l = some line ∧ x ≠ .filling then (f x).map (fun y => (l, y)) else some (l, x)) })) })) }

/-- The directory takes a line from a cluster's cache, or the cache gives it up: the stash copies go with it
(06_memory_access.md R152), and a copy that a No Snoop write left behind. -/
def State.loseCopies (s : State) (agent line : Nat) : State :=
  let t := s.agentTiles agent line (fun _ => none)
  { t with stale := t.stale.filter (fun x => !(x.agent == agent && x.line == line)) }

/-- Starts the eviction of a line in S or M (R312). -/
def State.evictLine (s : State) (agent line : Nat) : State :=
  match s.cacheAt agent line with
  | some c =>
    match c.st with
    | .shared => ((s.loseCopies agent line).setCache agent line { c with st := .evict, owned := false }).post (.puts agent line)
    | .modified => ((s.loseCopies agent line).setCache agent line { c with st := .evict, owned := true }).post
        (.putx agent ⟨line, (s.lineData line)⟩)
    | _ => s
  | none => s

/-- Makes room for a line (R310, R312): where its set holds 16 lines, a line in the eviction buffer not counted, one of those in
S or M is evicted, the ones filled by .stream first (06_memory_access.md R160), else chosen freely; none where the set has no
way to give. The set of a line is its number modulo the sets (DESIGN CHOICE, log 6). -/
def State.makeRoom (s : State) (agent line : Nat) : Option State :=
  let n := cacheSets agent
  let mine := s.cache.filter (fun (k, c) => k / 2 ^ 46 == agent && k % 2 ^ 46 % n == line % n && c.st != .evict)
  if mine.length < 16 then some s
  else
    let cands := mine.filter (fun (_, c) => c.st == .shared || c.st == .modified)
    let first := cands.filter (fun (_, c) => c.stream)
    let pool := if first.isEmpty then cands else first
    (pool[Config.victim s.tick % pool.length]?).map (fun (k, _) => s.evictLine agent (k % 2 ^ 46))

/-- A line that a cache does not hold is asked for; the access waits where its set has no way to give (R310). -/
def State.cacheMiss (s : State) (agent line : Nat) (store stream : Bool) : State :=
  match s.makeRoom agent line with
  | none => { s with cacheWait := s.cacheWait ++ [(agent, line, store)] }
  | some t =>
    if store then (t.setCache agent line { st := .imWait }).post (.getx agent line)
    else (t.setCache agent line { st := .isWait, stream := stream }).post (.gets agent line)

/-- A load of a cluster reaches its cache (R312). -/
def State.cacheLoad (s : State) (agent pa : Nat) (stream : Bool := false) : State :=
  let line := pa / 128
  match s.cacheAt agent line with
  | none => s.cacheMiss agent line false stream
  | some c => if c.st = .evict then s.setCache agent line { c with wantLoad := true } else s

/-- A store reaches a line that a cache holds or has asked for (R312). -/
def State.cacheHit (s : State) (agent line : Nat) (c : CacheLine) : State :=
    match c.st with
    | .shared => (s.setCache agent line { c with st := .smWait }).post (.upg agent line)
    | .modified => s.setCache agent line { c with dirty := true }
    | .isWait => s.setCache agent line { c with wantStore := true }
    | .evict => s.setCache agent line { c with wantStore := true }
    | _ => s

/-- A cache owns a line: the directory says so, or the line is still on its way back from it. -/
def State.lineOwned (s : State) (line : Nat) : Bool :=
  (Cells.get {} s.dir line).owner.isSome ||
  s.cache.any (fun (q, y) => q % 2 ^ 46 == line && (y.st == .modified || (y.st == .evict && y.owned)))

/-- The device's own bytes of the line at a package address, where no cache holds newer ones; none where the line is poisoned
(21_memory_devices.md R446). -/
def State.deviceBytes (s : State) (pa : Nat) : List Byte :=
  if (s.lineMetaAt pa).poison then [] else s.peek (pa / 128 * 128) 128

/-- A store of a cluster reaches its cache (R312); `old` are the device's bytes from before it. -/
def State.cacheStore (s0 : State) (agent pa : Nat) (old : List Byte) : State :=
  let line := pa / 128
  let s := match s0.device (line * 128) with
    | none => s0
    | some k => if (Cells.find s0.devOld (k / 128)).isSome then s0
        else { s0 with devOld := Cells.put s0.devOld (k / 128) old }
  match s.cacheAt agent line with
  | none => s.cacheMiss agent line true false
  | some c => s.cacheHit agent line c

/-- The accesses that wait for a way of an agent's cache try again, in order (R310). -/
def State.retryWays (s : State) (agent : Nat) : State :=
  let mine := s.cacheWait.filter (fun x => x.1 == agent)
  mine.foldl (fun t (_, line, store) => match t.cacheAt agent line with
    | none => t.cacheMiss agent line store false
    | some c => if store then t.cacheHit agent line c else t) { s with cacheWait := s.cacheWait.filter (fun x => x.1 != agent) }

/-! ### L0 -/

/-- A line in a core's L0. -/
def State.l0Find (s : State) (core line : Nat) : Option L0Line :=
  s.l0.find? (fun x => x.core == core && x.line == line)

/-- Drops lines of a core's L0. -/
def State.l0Drop (s : State) (core : Nat) (p : L0Line → Bool) : State :=
  { s with l0 := s.l0.filter (fun x => !(x.core == core && p x)) }

/-- An acquire: every line but the .ro ones leaves the core's L0 (R311). -/
def State.l0Acquire (s : State) (core : Nat) : State := s.l0Drop core (fun x => x.ro.isNone)

/-- Fills a line into a core's L0 (512 lines, R18; a line leaves a full one, those filled by .stream first, R160, else chosen
freely). -/
def State.l0Fill (s : State) (core line : Nat) (ro : Option Nat) (stream : Bool) : State :=
  let s1 := (s.restoreLine (line * 128)).l0Drop core (fun x => x.line == line)
  let mine := s1.l0.filter (fun x => x.core == core)
  let s2 := if mine.length < 512 then s1
    else
      let first := mine.filter (·.stream)
      let pool := if first.isEmpty then mine else first
      match pool[Config.victim s.tick % pool.length]? with
      | none => s1
      | some v => s1.l0Drop core (fun x => x.line == v.line)
  { s2 with l0 := s2.l0 ++ [{ core := core, line := line, bytes := s2.peek (line * 128) 128, ro := ro,
                              stream := stream }] }

/-- A committed store updates the L0 copy of its core, where one is present (R311). -/
def State.l0Update (s : State) (core pa : Nat) (bs : List Byte) : State :=
  { s with l0 := s.l0.map (fun x =>
      if x.core == core && x.line == pa / 128 then
        { x with bytes := (List.range 128).map (fun i =>
            if pa % 128 ≤ i then bs.getD (i - pa % 128) (x.bytes.getD i 0) else x.bytes.getD i 0) }
      else x) }

/-- A committed store updates the copy of its cluster that a No Snoop write left behind (R166). -/
def State.staleUpdate (s : State) (agent pa : Nat) (bs : List Byte) : State :=
  { s with stale := s.stale.map (fun x =>
      if x.agent == agent && x.line == pa / 128 then
        { x with bytes := (List.range 128).map (fun i =>
            if pa % 128 ≤ i then bs.getD (i - pa % 128) (x.bytes.getD i 0) else x.bytes.getD i 0) }
      else x) }

/-- The copies near a core follow a store that has been performed at its line: the core's L0 (R311), a copy of its cluster that a No
Snoop write left behind, and the cluster's cache. A store that a poisoned line loses (21_memory_devices.md R446) leaves no copy in
the L0. -/
def State.afterStore (s : State) (core pa : Nat) (bs old : List Byte) : State :=
  (if (s.lineMetaAt pa).poison then s.l0Drop core (fun x => x.line == pa / 128)
   else (s.l0Update core pa bs).staleUpdate (clusterOf core) pa bs).cacheStore (clusterOf core) pa old

/-- A cache writes a line in M back and keeps it, clean (R313). -/
def State.sendWbk (s : State) (agent line : Nat) (c : CacheLine) : State :=
  let n := Cells.get 0 s.writebacks (cacheKey agent line) + 1
  ({ s.setCache agent line { c with dirty := false } with
      writebacks := Cells.put s.writebacks (cacheKey agent line) n } : State).post (.wbk agent ⟨line, (s.lineData line)⟩)

/-- A store that needs shadows to a line that its cache holds in M: the line is written back first (19_shutter.md R416). -/
def State.shadowWriteBack (s : State) (agent pa : Nat) : State :=
  match s.shadowNeed pa, s.cacheAt agent (pa / 128) with
  | some (_, _, n), some c => if n ≠ 0 ∧ c.st = .modified then s.sendWbk agent (pa / 128) c else s
  | _, _ => s

/-- A store of a wave, performed inside one line: through its shutter, its core's L0 and its cluster's cache. -/
def State.coreStore (s0 : State) (core pa : Nat) (bs : List Byte) (but : Option (Nat × Nat) := none) : Except Nat State :=
  let s := (s0.restoreLine pa).shadowWriteBack (clusterOf core) pa
  let old := s.deviceBytes pa
  match s.waveWrite pa bs but with
  | .error r => .error r
  | .ok t => .ok (t.afterStore core pa bs old)

/-! ### Node links and lost writes -/

/-- A node link; one that nothing has touched is DOWN. -/
def State.nodeAt (s : State) (n : Nat) : NodeLink := Cells.get {} s.nodes n

def State.modNode (s : State) (n : Nat) (f : NodeLink → NodeLink) : State :=
  { s with nodes := Cells.set {} s.nodes n (f (s.nodeAt n)) }

/-- Traffic with a node flows: its link is ACTIVE or RETRAINING (20_link.md R433). -/
def State.hears (s : State) (n : Nat) : Bool := (s.nodeAt n).st == .active || (s.nodeAt n).st == .retraining

/-- Hands a message to a port of a node's route that is ACTIVE, which keeps it in its replay buffer (20_link.md R430); which
port is free. -/
def State.transmit (s : State) (n : Nat) (m : OutMsg) : State :=
  let up := (Cells.get [] s.fabric n).filter (fun p => (Cells.get {} s.ports p).st == .active)
  match up[Config.route s.tick % up.length]? with
  | none => s.send m
  | some p => ({ s with ports := Cells.modify s.ports p (fun x => { x with replay := x.replay ++ [m] }) } : State).send m

/-- Sends a message to a node (20_link.md R433): it waits while the link trains or retrains, and nothing goes out on a link
that is DOWN or FENCED. -/
def State.sendTo (s : State) (n : Nat) (m : OutMsg) : State :=
  match (s.nodeAt n).st with
  | .active => s.transmit n m
  | .training => s.modNode n (fun x => { x with waiting := x.waiting ++ [m] })
  | .retraining => s.modNode n (fun x => { x with waiting := x.waiting ++ [m] })
  | _ => s

/-- A session in ERROR: the context's traffic to the node is refused (20_link.md R443). -/
def State.sessionRefused (s : State) (c node : Nat) : Bool :=
  s.sessions.any (fun (_, x) => decide (x.st = .error) && bitsOf x.reg.toNat 23 16 == c && bitsOf x.reg.toNat 11 0 == node)

/-- Counts a lost or refused write of a context and writes its lost-queue record (20_link.md R434, R435). -/
def State.lostWrite (s : State) (c seq kind node addr : Nat) : State :=
  let s1 := s.modCtx c (fun x => { x with lostCount := (x.lostCount + 1) % 2 ^ 32 })
  let x := s1.ctxAt c
  let prod := x.lostProd + s1.hidden (.lost c)
  if (prod + 2 ^ 32 - x.lostCons) % 2 ^ 32 = queueSize x.lostq then s1
  else s1.deviceWrite (queueBase x.lostq + 16 * (prod % queueSize x.lostq))
    (wordBytes [BitVec.ofNat 64 (seq * 2 ^ 32 + kind * 4096 + node), BitVec.ofNat 64 (addr % 2 ^ 52)]) (.lost c)

/-- The tag a context's fabric accesses carry: its SHD_CFG.TAG (R436). -/
def Context.tag (x : Context) : Nat := x.shdCfg.toNat % 2 ^ 32

/-- Posts a write to a node (R434): it takes the next sequence number; on a link that is DOWN or FENCED it is lost at
once, with SEQ 0, and under a session in ERROR it is refused so (R443). The Boolean says whether it was lost. -/
def State.postWrite (s : State) (node c wave kind addr : Nat) (fop : FabricOp) (sync : Option (Nat × Nat))
    (op : Option Nat) (lanes : Word := 0) : State × Bool :=
  let l := s.nodeAt node
  if l.st = .down || l.st = .fenced then (s.lostWrite c 0 kind node addr, true)
  else if s.sessionRefused c node then (s.lostWrite c 0 (8 + kind) node addr, true)
  else
    let go : Bool := decide (l.st = .active)
    let seq := (l.sent + 1) % 2 ^ 32
    let p : Posted := { seq := seq, ctx := c, wave := wave, kind := kind, addr := addr, fop := fop, sync := sync,
                        op := op, lanes := lanes, emitted := go }
    let s1 := s.modNode node (fun x => { x with sent := seq, unacked := x.unacked ++ [p] })
    (if go then s1.transmit node (.fabricAccess node seq (s.ctxAt c).tag addr fop sync) else s1, false)

end Sys2Proof.Machine
end

