-- ==== Sys2Proof/WellFormed.lean ====
section
/-! DEFINITION. What the syntax does not rule out by its types: an instruction that a Q bit splits into two rows holds
that bit as its row says, an unassigned word is unassigned, and what an event names exists on the device. The traps
that the spec gives malformed operand fields are not well-formedness: they are raised at issue (03_encoding.md R78). -/

namespace Sys2Proof

/-- The runs of assigned opcodes (03_encoding.md R75). -/
def assignedRuns : List (Nat × Nat) :=
  [(0x001, 0x023), (0x040, 0x054), (0x058, 0x05B), (0x080, 0x086), (0x088, 0x090), (0x098, 0x0A5), (0x0C0,
   0x0C6), (0x0C8, 0x0CA), (0x0D0, 0x0D0), (0x100, 0x102), (0x108, 0x109), (0x140, 0x153), (0x180, 0x182),
   (0x188, 0x18C), (0x190, 0x192), (0x198, 0x1A0), (0x1A8, 0x1AC), (0x1B0, 0x1B5), (0x1C0, 0x1C6), (0x1C8,
   0x1CA), (0x1D0, 0x1D3)]

/-- An opcode is assigned (R75). -/
def opcodeAssigned (op : Nat) : Bool := assignedRuns.any (fun (a, b) => decide (a ≤ op) && decide (op ≤ b))

/-- A pair of words is one that raises ILLEGAL_OP at step 2 of R78 for its form or its opcode: form 0b11, or an
unassigned opcode in form F or, with its extension, in form X. -/
def unassignedWord (w : DWord) (ext : Option DWord) : Bool :=
  match bitsOf w.toNat 63 62 with
  | 3 => ext.isNone
  | 0 => ext.isNone && !opcodeAssigned (bitsOf w.toNat 61 53)
  | 2 => ext.isSome && !opcodeAssigned (bitsOf w.toNat 61 53)
  | _ => false

/-- A context number (08_context.md R201). -/
def ctxOk (c : Nat) : Bool := decide (c < 256)
/-- A coherent agent (14_coherence.md R310). -/
def agentOk (a : Nat) : Bool := decide (a < 208)
/-- A core number (01_package.md R16). -/
def coreOk (c : Nat) : Bool := decide (c < 1600)
/-- A Solon node (20_link.md R432). -/
def nodeOk (n : Nat) : Bool := decide (n < 4096)
/-- A Solon port (R430). -/
def portOk (p : Nat) : Bool := decide (p < 64)
/-- A package frame (01_package.md R22). -/
def frameOk (f : Nat) : Bool := decide (f < 2 ^ 36)
/-- A line of package memory. -/
def lineOk (l : Nat) : Bool := decide (l < 2 ^ 45)

/-- The instruction or event is well formed. -/
def Instr.wf : Instr → Bool
  | .add _ => true
  | .sub _ => true
  | .mul _ => true
  | .mulhi _ => true
  | .mad _ => true
  | .madhi _ => true
  | .div _ => true
  | .rem _ => true
  | .min _ => true
  | .max _ => true
  | .abs _ => true
  | .neg _ => true
  | .addc _ => true
  | .subb _ => true
  | .lea _ => true
  | .and _ => true
  | .or _ => true
  | .xor _ => true
  | .andn _ => true
  | .not _ => true
  | .shl _ => true
  | .shr _ => true
  | .sar _ => true
  | .rot _ => true
  | .bfe _ => true
  | .bfi _ => true
  | .popc _ => true
  | .clz _ => true
  | .ctz _ => true
  | .brev _ => true
  | .prmt _ => true
  | .sel _ => true
  | .cmp _ => true
  | .mov _ => true
  | .cvt _ => true
  | .fadd _ => true
  | .fsub _ => true
  | .fmul _ => true
  | .fma _ => true
  | .fmin _ => true
  | .fmax _ => true
  | .fcmp _ => true
  | .fcls _ => true
  | .frcp _ => true
  | .frsq _ => true
  | .fsqrt _ => true
  | .fexp2 _ => true
  | .flog2 _ => true
  | .fsin _ => true
  | .fcos _ => true
  | .ftanh _ => true
  | .frnd _ => true
  | .fscl _ => true
  | .fcvt _ => true
  | .dot2 _ => true
  | .dot4 _ => true
  | .pfma _ => true
  | .padd _ => true
  | .pmul _ => true
  | .pmax _ => true
  | .pand _ => true
  | .por _ => true
  | .pxor _ => true
  | .pnot _ => true
  | .pmov _ => true
  | .pset _ => true
  | .pget _ => true
  | .ballot _ => true
  | .vany _ => true
  | .vall _ => true
  | .shfl _ => true
  | .redux _ => true
  | .scan _ => true
  | .matchLanes _ => true
  | .elect _ => true
  | .bcast _ => true
  | .dWord _ => true
  | .bra _ => true
  | .brx _ => true
  | .call _ => true
  | .ret _ => true
  | .exit _ => true
  | .region _ => true
  | .yield _ => true
  | .bkpt _ => true
  | .join _ => true
  | .leave _ => true
  | .waitm _ => true
  | .mset _ => true
  | .mop _ => true
  | .nop _ => true
  | .ld _ => true
  | .st _ => true
  | .ldx _ => true
  | .stx _ => true
  | .pref _ => true
  | .cinv _ => true
  | .cwb _ => true
  | .stmap _ => true
  | .stunmap _ => true
  | .stflush _ => true
  | .kvld _ => true
  | .atom _ => true
  | .atomSc _ => true
  | .red _ => true
  | .fence _ => true
  | .waitc _ => true
  | .cpy _ => true
  | .cpyt _ => true
  | .gath _ => true
  | .tmset _ => true
  | .hacq _ => true
  | .hwait _ => true
  | .hrel _ => true
  | .tagq _ => true
  | .mxa _ => true
  | .mxap _ => true
  | .accal _ => true
  | .accfr _ => true
  | .acczr _ => true
  | .accdr _ => true
  | .accrd _ => true
  | .accwr _ => true
  | .qmc _ => true
  | .smx _ => true
  | .cred _ => true
  | .amask _ => true
  | .cjoin _ => true
  | .cleave _ => true
  | .cqry _ => true
  | .bmakeNew f => !bitOf f.fc.toNat 0
  | .bmakeDrop f => bitOf f.fc.toNat 0
  | .barr _ => true
  | .bwait _ => true
  | .barw _ => true
  | .sstep _ => true
  | .launch _ => true
  | .joink _ => true
  | .kqQuery f => !bitOf f.fc.toNat 0
  | .kqKill f => bitOf f.fc.toNat 0
  | .balloc _ => true
  | .bfree _ => true
  | .seqnew _ => true
  | .seqdrop _ => true
  | .seqfork _ => true
  | .kvapp _ => true
  | .kvpub _ => true
  | .seqlen _ => true
  | .poolq _ => true
  | .snapNew f => !bitOf f.fc.toNat 0
  | .snapNest f => bitOf f.fc.toNat 0
  | .sacc _ => true
  | .srej _ => true
  | .sqry _ => true
  | .sgrow f => !bitOf f.fc.toNat 0
  | .sgrowTrim f => bitOf f.fc.toNat 0
  | .pin _ => true
  | .unpin _ => true
  | .hint _ => true
  | .pgqry _ => true
  | .pgown _ => true
  | .recode _ => true
  | .trap _ => true
  | .tret _ => true
  | .sysr _ => true
  | .sysw _ => true
  | .haltStop f => !bitOf f.fc.toNat 0
  | .haltGo f => bitOf f.fc.toNat 0
  | .tlbinv _ => true
  | .icinv _ => true
  | .sig _ => true
  | .waitsig _ => true
  | .qpush _ => true
  | .put _ => true
  | .get _ => true
  | .coll _ => true
  | .linkq _ => true
  | .unassignedOpcode w ext => unassignedWord w ext
  | .registerFill _ => true
  | .engineOpRetire _ => true
  | .waveEnterActive core pane => coreOk core && decide (pane < 4)
  | .dispatchChoose => true
  | .blockPlace die => decide (die < 2)
  | .prologue _ => true
  | .preemptComplete ctx => ctxOk ctx
  | .destroyComplete ctx => ctxOk ctx
  | .entryAccept ctx queue => ctxOk ctx && decide (queue < 64)
  | .entryLaunch ctx queue _ => ctxOk ctx && decide (queue < 64)
  | .entrySignal ctx queue _ => ctxOk ctx && decide (queue < 64)
  | .entryWait ctx queue _ => ctxOk ctx && decide (queue < 64)
  | .entryNop ctx queue _ => ctxOk ctx && decide (queue < 64)
  | .map frame ctx tier _ dframe => frameOk frame && ctxOk ctx && decide (0 < tier) && decide (tier < 4) && decide (dframe < 2 ^ 30)
  | .unmap frame => frameOk frame
  | .move frame tier => frameOk frame && decide (0 < tier) && decide (tier < 4)
  | .take frame => frameOk frame
  | .migrationLineCopy frame => frameOk frame
  | .migrationCommit frame => frameOk frame
  | .migrationRetire frame => frameOk frame
  | .migrationAbort frame => frameOk frame
  | .ownershipRelease frame => frameOk frame
  | .handoverComplete frame => frameOk frame
  | .gets agent line => agentOk agent && lineOk line
  | .getx agent line => agentOk agent && lineOk line
  | .upg agent line => agentOk agent && lineOk line
  | .puts agent line => agentOk agent && lineOk line
  | .putx agent msg => agentOk agent && lineOk msg.line && decide (msg.data.bytes.length = 128)
  | .wbk agent msg => agentOk agent && lineOk msg.line && decide (msg.data.bytes.length = 128)
  | .iack agent line => agentOk agent && lineOk line
  | .rdat agent msg => agentOk agent && lineOk msg.line && decide (msg.data.bytes.length = 128)
  | .rack agent line => agentOk agent && lineOk line
  | .dats agent msg => agentOk agent && lineOk msg.line && decide (msg.data.bytes.length = 128)
  | .datx agent msg => agentOk agent && lineOk msg.line && decide (msg.data.bytes.length = 128)
  | .grnt agent line => agentOk agent && lineOk line
  | .inv agent line => agentOk agent && lineOk line
  | .rcls agent line => agentOk agent && lineOk line
  | .rclx agent line => agentOk agent && lineOk line
  | .ackp agent line => agentOk agent && lineOk line
  | .noncachingRequest _ => true
  | .shutterUpdate agent ctx shutter => agentOk agent && ctxOk ctx && decide (shutter < 16)
  | .copyTileWrite _ => true
  | .mtxOperation core _ => coreOk core
  | .credRoundComplete cluster _ => decide (cluster < 192)
  | .shutterRestore ctx shutter => ctxOk ctx && decide (shutter < 16)
  | .shutterScrub ctx shutter => ctxOk ctx && decide (shutter < 16)
  | .shadowWaitProceed ctx => ctxOk ctx
  | .powerUp => true
  | .regionStallAbort core => coreOk core
  | .freePlaceReport die => decide (die < 2)
  | .bind ctx => ctxOk ctx
  | .arm ctx => ctxOk ctx
  | .run ctx => ctxOk ctx
  | .preempt ctx => ctxOk ctx
  | .destroy ctx => ctxOk ctx
  | .resume ctx agent slot => ctxOk ctx && decide (agent < 4096) && decide (slot < 128)
  | .fail ctx agent slot => ctxOk ctx && decide (agent < 4096) && decide (slot < 128)
  | .sliceExpiry ctx => ctxOk ctx
  | .ctxRectWrite ctx _ => ctxOk ctx
  | .ctxFqPtrWrite ctx _ => ctxOk ctx
  | .ctxDbgDataAccess ctx _ => ctxOk ctx
  | .krnLimitWrite ctx _ => ctxOk ctx
  | .cohDiraWrite _ => true
  | .mtxErrRead core => coreOk core
  | .memErrRead => true
  | .sysregWrite ctx num _ => ctxOk ctx && decide (num < 65536)
  | .queueEnable ctx queue => ctxOk ctx && decide (queue < 64)
  | .queuePause ctx queue => ctxOk ctx && decide (queue < 64)
  | .queueResume ctx queue => ctxOk ctx && decide (queue < 64)
  | .queueDisable ctx queue => ctxOk ctx && decide (queue < 64)
  | .queueClear ctx queue => ctxOk ctx && decide (queue < 64)
  | .queueDoorbellWrite ctx queue _ => ctxOk ctx && decide (queue < 64)
  | .queueCplConsWrite ctx queue _ => ctxOk ctx && decide (queue < 64)
  | .ssArm ctx group => ctxOk ctx && decide (group < 16)
  | .ssReset ctx group => ctxOk ctx && decide (group < 16)
  | .ssDone node _ _ => nodeOk node
  | .ssTimeout ctx group => ctxOk ctx && decide (group < 16)
  | .watchdogExpiry ctx => ctxOk ctx
  | .placementTick => true
  | .recall dframe node => decide (dframe < 2 ^ 30) && nodeOk node
  | .ownTimeout frame => frameOk frame
  | .shootdownRequest _ => true
  | .shootdownAck _ _ _ _ => true
  | .shootdownChildTimeout _ _ => true
  | .fencedNodeNotice node => nodeOk node
  | .poolCreate ctx pool => ctxOk ctx && decide (pool < 16)
  | .poolReset ctx pool => ctxOk ctx && decide (pool < 16)
  | .flitReceive port _ _ flit => portOk port && decide (flit.slot < 64)
  | .portLock port => portOk port
  | .portTrainingDone port => portOk port
  | .portTrainingTimeout port => portOk port
  | .portLossOfLock port => portOk port
  | .portRetrainDone port => portOk port
  | .portRetrainTimeout port => portOk port
  | .nodeHandshakeDone node => nodeOk node
  | .nodeTrainingTimeout node => nodeOk node
  | .nodeRetrainTimeout node => nodeOk node
  | .fabricAccess _ => true
  | .fabricAck node _ _ => nodeOk node
  | .fabricReply _ _ => true
  | .fenceBoundExpiry _ => true
  | .collMessage _ => true
  | .lnkUnfence node => nodeOk node
  | .lnkDown node => nodeOk node
  | .lnkFence node => nodeOk node
  | .sessionOpen slot => decide (slot < 64)
  | .sessionLock slot => decide (slot < 64)
  | .sessionUnlock slot => decide (slot < 64)
  | .sessionClose slot => decide (slot < 64)
  | .keyupd slot => decide (slot < 64)
  | .spdmMessage slot _ => decide (slot < 64)
  | .getMeasurements _ => true
  | .hostAccess _ => true
  | .hbmReply dframe line _ => decide (dframe < 2 ^ 30) && decide (line < 512)
  | .mapout stack layer => decide (stack < 8) && decide (layer < 16)
  | .wake => true
  | .standby => true
  | .thermalTrip => true
  | .clockTick _ => true
  | .collTimeout ctx group => ctxOk ctx && decide (group < 16)
  | .lpddrReply dframe line _ => decide (dframe < 2 ^ 30) && decide (line < 512)
  | .cxlMemResponse dframe line _ => decide (dframe < 2 ^ 30) && decide (line < 512)

end Sys2Proof
end

