-- ==== Sys2Proof/Decode.lean ====
section
/-! DEFINITION. The decoder and the encoder, both written from the tables of 03_encoding.md (R47, R49, R61, R62,
R75). Decoding is total on instruction words: a word of form 0b11 or of an unassigned opcode is an instruction of its
own, which raises ILLEGAL_OP at issue. Only a byte string that ends inside a word is rejected. -/

namespace Sys2Proof

/-- Why bytes decode to no instruction. -/
inductive DecodeError where
  /-- Fewer than eight bytes are left where a word must stand. -/
  | truncatedWord
  /-- The extension word of an X form is missing or cut short. -/
  | truncatedExtension
  deriving DecidableEq, Repr

/-- The fields of an F word, or of the first word of an X instruction (R49). -/
def fieldsOf (w : DWord) (ext : Option DWord) : FWord :=
  { g := w.extractLsb' 46 7
    gn := w.getLsbD 45
    fd := w.extractLsb' 36 9
    fa := w.extractLsb' 27 9
    fb := w.extractLsb' 18 9
    fc := w.extractLsb' 9 9
    ec := w.getLsbD 8
    eb := w.getLsbD 7
    ea := w.getLsbD 6
    ty := w.extractLsb' 2 4
    md := w.extractLsb' 0 2
    ext := ext }

/-- One slot of a D word, from its 30 bits (R62). -/
def slotOf (x : BitVec 30) : DualSlot :=
  { dop := x.extractLsb' 23 7
    neg := x.getLsbD 22
    grd := x.extractLsb' 19 3
    vd := x.extractLsb' 11 8
    vs := x.extractLsb' 3 8
    rsv := x.extractLsb' 0 3 }

/-- The opcode map (R75): the instruction of an opcode, with the Q bit that splits some rows. -/
def ofOpcode (op : Nat) (f : FWord) : Option Instr :=
  match op with
  | 0x001 => some (.add f)
  | 0x002 => some (.sub f)
  | 0x003 => some (.mul f)
  | 0x004 => some (.mulhi f)
  | 0x005 => some (.mad f)
  | 0x006 => some (.madhi f)
  | 0x007 => some (.div f)
  | 0x008 => some (.rem f)
  | 0x009 => some (.min f)
  | 0x00A => some (.max f)
  | 0x00B => some (.abs f)
  | 0x00C => some (.neg f)
  | 0x00D => some (.addc f)
  | 0x00E => some (.subb f)
  | 0x00F => some (.lea f)
  | 0x010 => some (.and f)
  | 0x011 => some (.or f)
  | 0x012 => some (.xor f)
  | 0x013 => some (.andn f)
  | 0x014 => some (.not f)
  | 0x015 => some (.shl f)
  | 0x016 => some (.shr f)
  | 0x017 => some (.sar f)
  | 0x018 => some (.rot f)
  | 0x019 => some (.bfe f)
  | 0x01A => some (.bfi f)
  | 0x01B => some (.popc f)
  | 0x01C => some (.clz f)
  | 0x01D => some (.ctz f)
  | 0x01E => some (.brev f)
  | 0x01F => some (.prmt f)
  | 0x020 => some (.sel f)
  | 0x021 => some (.cmp f)
  | 0x022 => some (.mov f)
  | 0x023 => some (.cvt f)
  | 0x040 => some (.fadd f)
  | 0x041 => some (.fsub f)
  | 0x042 => some (.fmul f)
  | 0x043 => some (.fma f)
  | 0x044 => some (.fmin f)
  | 0x045 => some (.fmax f)
  | 0x046 => some (.fcmp f)
  | 0x047 => some (.fcls f)
  | 0x048 => some (.frcp f)
  | 0x049 => some (.frsq f)
  | 0x04A => some (.fsqrt f)
  | 0x04B => some (.fexp2 f)
  | 0x04C => some (.flog2 f)
  | 0x04D => some (.fsin f)
  | 0x04E => some (.fcos f)
  | 0x04F => some (.ftanh f)
  | 0x050 => some (.frnd f)
  | 0x051 => some (.fscl f)
  | 0x052 => some (.fcvt f)
  | 0x053 => some (.dot2 f)
  | 0x054 => some (.dot4 f)
  | 0x058 => some (.pfma f)
  | 0x059 => some (.padd f)
  | 0x05A => some (.pmul f)
  | 0x05B => some (.pmax f)
  | 0x080 => some (.pand f)
  | 0x081 => some (.por f)
  | 0x082 => some (.pxor f)
  | 0x083 => some (.pnot f)
  | 0x084 => some (.pmov f)
  | 0x085 => some (.pset f)
  | 0x086 => some (.pget f)
  | 0x088 => some (.ballot f)
  | 0x089 => some (.vany f)
  | 0x08A => some (.vall f)
  | 0x08B => some (.shfl f)
  | 0x08C => some (.redux f)
  | 0x08D => some (.scan f)
  | 0x08E => some (.matchLanes f)
  | 0x08F => some (.elect f)
  | 0x090 => some (.bcast f)
  | 0x098 => some (.bra f)
  | 0x099 => some (.brx f)
  | 0x09A => some (.call f)
  | 0x09B => some (.ret f)
  | 0x09C => some (.exit f)
  | 0x09D => some (.region f)
  | 0x09E => some (.yield f)
  | 0x09F => some (.bkpt f)
  | 0x0A0 => some (.join f)
  | 0x0A1 => some (.leave f)
  | 0x0A2 => some (.waitm f)
  | 0x0A3 => some (.mset f)
  | 0x0A4 => some (.mop f)
  | 0x0A5 => some (.nop f)
  | 0x0C0 => some (.ld f)
  | 0x0C1 => some (.st f)
  | 0x0C2 => some (.ldx f)
  | 0x0C3 => some (.stx f)
  | 0x0C4 => some (.pref f)
  | 0x0C5 => some (.cinv f)
  | 0x0C6 => some (.cwb f)
  | 0x0C8 => some (.stmap f)
  | 0x0C9 => some (.stunmap f)
  | 0x0CA => some (.stflush f)
  | 0x0D0 => some (.kvld f)
  | 0x100 => some (.atom f)
  | 0x101 => some (.atomSc f)
  | 0x102 => some (.red f)
  | 0x108 => some (.fence f)
  | 0x109 => some (.waitc f)
  | 0x140 => some (.cpy f)
  | 0x141 => some (.cpyt f)
  | 0x142 => some (.gath f)
  | 0x143 => some (.tmset f)
  | 0x144 => some (.hacq f)
  | 0x145 => some (.hwait f)
  | 0x146 => some (.hrel f)
  | 0x147 => some (.tagq f)
  | 0x148 => some (.mxa f)
  | 0x149 => some (.mxap f)
  | 0x14A => some (.accal f)
  | 0x14B => some (.accfr f)
  | 0x14C => some (.acczr f)
  | 0x14D => some (.accdr f)
  | 0x14E => some (.accrd f)
  | 0x14F => some (.accwr f)
  | 0x150 => some (.qmc f)
  | 0x151 => some (.smx f)
  | 0x152 => some (.cred f)
  | 0x153 => some (.amask f)
  | 0x180 => some (.cjoin f)
  | 0x181 => some (.cleave f)
  | 0x182 => some (.cqry f)
  | 0x188 => some (if bitOf f.fc.toNat 0 then .bmakeDrop f else .bmakeNew f)
  | 0x189 => some (.barr f)
  | 0x18A => some (.bwait f)
  | 0x18B => some (.barw f)
  | 0x18C => some (.sstep f)
  | 0x190 => some (.launch f)
  | 0x191 => some (.joink f)
  | 0x192 => some (if bitOf f.fc.toNat 0 then .kqKill f else .kqQuery f)
  | 0x198 => some (.balloc f)
  | 0x199 => some (.bfree f)
  | 0x19A => some (.seqnew f)
  | 0x19B => some (.seqdrop f)
  | 0x19C => some (.seqfork f)
  | 0x19D => some (.kvapp f)
  | 0x19E => some (.kvpub f)
  | 0x19F => some (.seqlen f)
  | 0x1A0 => some (.poolq f)
  | 0x1A8 => some (if bitOf f.fc.toNat 0 then .snapNest f else .snapNew f)
  | 0x1A9 => some (.sacc f)
  | 0x1AA => some (.srej f)
  | 0x1AB => some (.sqry f)
  | 0x1AC => some (if bitOf f.fc.toNat 0 then .sgrowTrim f else .sgrow f)
  | 0x1B0 => some (.pin f)
  | 0x1B1 => some (.unpin f)
  | 0x1B2 => some (.hint f)
  | 0x1B3 => some (.pgqry f)
  | 0x1B4 => some (.pgown f)
  | 0x1B5 => some (.recode f)
  | 0x1C0 => some (.trap f)
  | 0x1C1 => some (.tret f)
  | 0x1C2 => some (.sysr f)
  | 0x1C3 => some (.sysw f)
  | 0x1C4 => some (if bitOf f.fc.toNat 0 then .haltGo f else .haltStop f)
  | 0x1C5 => some (.tlbinv f)
  | 0x1C6 => some (.icinv f)
  | 0x1C8 => some (.sig f)
  | 0x1C9 => some (.waitsig f)
  | 0x1CA => some (.qpush f)
  | 0x1D0 => some (.put f)
  | 0x1D1 => some (.get f)
  | 0x1D2 => some (.coll f)
  | 0x1D3 => some (.linkq f)
  | _ => none

/-- Decodes a word and the word after it, which is its extension in form X (R47, R61). -/
def decodeWords (w next : DWord) : Instr :=
  match bitsOf w.toNat 63 62 with
  | 0 => (ofOpcode (bitsOf w.toNat 61 53) (fieldsOf w none)).getD (.unassignedOpcode w none)
  | 1 => .dWord { slot0 := slotOf (w.extractLsb' 32 30), slot1 := slotOf (w.extractLsb' 2 30), rsv := w.extractLsb' 0 2 }
  | 2 => (ofOpcode (bitsOf w.toNat 61 53) (fieldsOf w (some next))).getD (.unassignedOpcode w (some next))
  | _ => .unassignedOpcode w none

/-- The length of an instruction in bytes, from its first word (R47). -/
def wordSize (w : DWord) : Nat := if bitsOf w.toNat 63 62 = 2 then 16 else 8

/-- The first eight bytes of a list as a word, least significant byte first (00_scope.md R6), with the rest. -/
def takeWord (bs : List Byte) : Option (DWord × List Byte) :=
  if bs.length < 8 then none else some (BitVec.ofNat 64 (ofBytes (bs.take 8)), bs.drop 8)

/-- Decodes the instruction at the head of a list of bytes and answers it with the rest of the list. -/
def decode (bs : List Byte) : Except DecodeError (Instr × List Byte) :=
  match takeWord bs with
  | none => .error .truncatedWord
  | some (w, rest) =>
    if wordSize w = 8 then .ok (decodeWords w 0, rest)
    else match takeWord rest with
      | none => .error .truncatedExtension
      | some (x, rest2) => .ok (decodeWords w x, rest2)

/-- The opcode and the fields of an instruction of the opcode map (R75). -/
def opcodeOf : Instr → Option (BitVec 9 × FWord)
  | .add f => some (0x001, f)
  | .sub f => some (0x002, f)
  | .mul f => some (0x003, f)
  | .mulhi f => some (0x004, f)
  | .mad f => some (0x005, f)
  | .madhi f => some (0x006, f)
  | .div f => some (0x007, f)
  | .rem f => some (0x008, f)
  | .min f => some (0x009, f)
  | .max f => some (0x00A, f)
  | .abs f => some (0x00B, f)
  | .neg f => some (0x00C, f)
  | .addc f => some (0x00D, f)
  | .subb f => some (0x00E, f)
  | .lea f => some (0x00F, f)
  | .and f => some (0x010, f)
  | .or f => some (0x011, f)
  | .xor f => some (0x012, f)
  | .andn f => some (0x013, f)
  | .not f => some (0x014, f)
  | .shl f => some (0x015, f)
  | .shr f => some (0x016, f)
  | .sar f => some (0x017, f)
  | .rot f => some (0x018, f)
  | .bfe f => some (0x019, f)
  | .bfi f => some (0x01A, f)
  | .popc f => some (0x01B, f)
  | .clz f => some (0x01C, f)
  | .ctz f => some (0x01D, f)
  | .brev f => some (0x01E, f)
  | .prmt f => some (0x01F, f)
  | .sel f => some (0x020, f)
  | .cmp f => some (0x021, f)
  | .mov f => some (0x022, f)
  | .cvt f => some (0x023, f)
  | .fadd f => some (0x040, f)
  | .fsub f => some (0x041, f)
  | .fmul f => some (0x042, f)
  | .fma f => some (0x043, f)
  | .fmin f => some (0x044, f)
  | .fmax f => some (0x045, f)
  | .fcmp f => some (0x046, f)
  | .fcls f => some (0x047, f)
  | .frcp f => some (0x048, f)
  | .frsq f => some (0x049, f)
  | .fsqrt f => some (0x04A, f)
  | .fexp2 f => some (0x04B, f)
  | .flog2 f => some (0x04C, f)
  | .fsin f => some (0x04D, f)
  | .fcos f => some (0x04E, f)
  | .ftanh f => some (0x04F, f)
  | .frnd f => some (0x050, f)
  | .fscl f => some (0x051, f)
  | .fcvt f => some (0x052, f)
  | .dot2 f => some (0x053, f)
  | .dot4 f => some (0x054, f)
  | .pfma f => some (0x058, f)
  | .padd f => some (0x059, f)
  | .pmul f => some (0x05A, f)
  | .pmax f => some (0x05B, f)
  | .pand f => some (0x080, f)
  | .por f => some (0x081, f)
  | .pxor f => some (0x082, f)
  | .pnot f => some (0x083, f)
  | .pmov f => some (0x084, f)
  | .pset f => some (0x085, f)
  | .pget f => some (0x086, f)
  | .ballot f => some (0x088, f)
  | .vany f => some (0x089, f)
  | .vall f => some (0x08A, f)
  | .shfl f => some (0x08B, f)
  | .redux f => some (0x08C, f)
  | .scan f => some (0x08D, f)
  | .matchLanes f => some (0x08E, f)
  | .elect f => some (0x08F, f)
  | .bcast f => some (0x090, f)
  | .bra f => some (0x098, f)
  | .brx f => some (0x099, f)
  | .call f => some (0x09A, f)
  | .ret f => some (0x09B, f)
  | .exit f => some (0x09C, f)
  | .region f => some (0x09D, f)
  | .yield f => some (0x09E, f)
  | .bkpt f => some (0x09F, f)
  | .join f => some (0x0A0, f)
  | .leave f => some (0x0A1, f)
  | .waitm f => some (0x0A2, f)
  | .mset f => some (0x0A3, f)
  | .mop f => some (0x0A4, f)
  | .nop f => some (0x0A5, f)
  | .ld f => some (0x0C0, f)
  | .st f => some (0x0C1, f)
  | .ldx f => some (0x0C2, f)
  | .stx f => some (0x0C3, f)
  | .pref f => some (0x0C4, f)
  | .cinv f => some (0x0C5, f)
  | .cwb f => some (0x0C6, f)
  | .stmap f => some (0x0C8, f)
  | .stunmap f => some (0x0C9, f)
  | .stflush f => some (0x0CA, f)
  | .kvld f => some (0x0D0, f)
  | .atom f => some (0x100, f)
  | .atomSc f => some (0x101, f)
  | .red f => some (0x102, f)
  | .fence f => some (0x108, f)
  | .waitc f => some (0x109, f)
  | .cpy f => some (0x140, f)
  | .cpyt f => some (0x141, f)
  | .gath f => some (0x142, f)
  | .tmset f => some (0x143, f)
  | .hacq f => some (0x144, f)
  | .hwait f => some (0x145, f)
  | .hrel f => some (0x146, f)
  | .tagq f => some (0x147, f)
  | .mxa f => some (0x148, f)
  | .mxap f => some (0x149, f)
  | .accal f => some (0x14A, f)
  | .accfr f => some (0x14B, f)
  | .acczr f => some (0x14C, f)
  | .accdr f => some (0x14D, f)
  | .accrd f => some (0x14E, f)
  | .accwr f => some (0x14F, f)
  | .qmc f => some (0x150, f)
  | .smx f => some (0x151, f)
  | .cred f => some (0x152, f)
  | .amask f => some (0x153, f)
  | .cjoin f => some (0x180, f)
  | .cleave f => some (0x181, f)
  | .cqry f => some (0x182, f)
  | .bmakeNew f => some (0x188, f)
  | .bmakeDrop f => some (0x188, f)
  | .barr f => some (0x189, f)
  | .bwait f => some (0x18A, f)
  | .barw f => some (0x18B, f)
  | .sstep f => some (0x18C, f)
  | .launch f => some (0x190, f)
  | .joink f => some (0x191, f)
  | .kqQuery f => some (0x192, f)
  | .kqKill f => some (0x192, f)
  | .balloc f => some (0x198, f)
  | .bfree f => some (0x199, f)
  | .seqnew f => some (0x19A, f)
  | .seqdrop f => some (0x19B, f)
  | .seqfork f => some (0x19C, f)
  | .kvapp f => some (0x19D, f)
  | .kvpub f => some (0x19E, f)
  | .seqlen f => some (0x19F, f)
  | .poolq f => some (0x1A0, f)
  | .snapNew f => some (0x1A8, f)
  | .snapNest f => some (0x1A8, f)
  | .sacc f => some (0x1A9, f)
  | .srej f => some (0x1AA, f)
  | .sqry f => some (0x1AB, f)
  | .sgrow f => some (0x1AC, f)
  | .sgrowTrim f => some (0x1AC, f)
  | .pin f => some (0x1B0, f)
  | .unpin f => some (0x1B1, f)
  | .hint f => some (0x1B2, f)
  | .pgqry f => some (0x1B3, f)
  | .pgown f => some (0x1B4, f)
  | .recode f => some (0x1B5, f)
  | .trap f => some (0x1C0, f)
  | .tret f => some (0x1C1, f)
  | .sysr f => some (0x1C2, f)
  | .sysw f => some (0x1C3, f)
  | .haltStop f => some (0x1C4, f)
  | .haltGo f => some (0x1C4, f)
  | .tlbinv f => some (0x1C5, f)
  | .icinv f => some (0x1C6, f)
  | .sig f => some (0x1C8, f)
  | .waitsig f => some (0x1C9, f)
  | .qpush f => some (0x1CA, f)
  | .put f => some (0x1D0, f)
  | .get f => some (0x1D1, f)
  | .coll f => some (0x1D2, f)
  | .linkq f => some (0x1D3, f)
  | .dWord _ => none
  | .unassignedOpcode _ _ => none
  | .registerFill _ => none
  | .engineOpRetire _ => none
  | .waveEnterActive _ _ => none
  | .dispatchChoose => none
  | .blockPlace _ => none
  | .prologue _ => none
  | .preemptComplete _ => none
  | .destroyComplete _ => none
  | .entryAccept _ _ => none
  | .entryLaunch _ _ _ => none
  | .entrySignal _ _ _ => none
  | .entryWait _ _ _ => none
  | .entryNop _ _ _ => none
  | .map _ _ _ _ _ => none
  | .unmap _ => none
  | .move _ _ => none
  | .take _ => none
  | .migrationLineCopy _ => none
  | .migrationCommit _ => none
  | .migrationRetire _ => none
  | .migrationAbort _ => none
  | .ownershipRelease _ => none
  | .handoverComplete _ => none
  | .gets _ _ => none
  | .getx _ _ => none
  | .upg _ _ => none
  | .puts _ _ => none
  | .putx _ _ => none
  | .wbk _ _ => none
  | .iack _ _ => none
  | .rdat _ _ => none
  | .rack _ _ => none
  | .dats _ _ => none
  | .datx _ _ => none
  | .grnt _ _ => none
  | .inv _ _ => none
  | .rcls _ _ => none
  | .rclx _ _ => none
  | .ackp _ _ => none
  | .noncachingRequest _ => none
  | .shutterUpdate _ _ _ => none
  | .copyTileWrite _ => none
  | .mtxOperation _ _ => none
  | .credRoundComplete _ _ => none
  | .shutterRestore _ _ => none
  | .shutterScrub _ _ => none
  | .shadowWaitProceed _ => none
  | .powerUp => none
  | .regionStallAbort _ => none
  | .freePlaceReport _ => none
  | .bind _ => none
  | .arm _ => none
  | .run _ => none
  | .preempt _ => none
  | .destroy _ => none
  | .resume _ _ _ => none
  | .fail _ _ _ => none
  | .sliceExpiry _ => none
  | .ctxRectWrite _ _ => none
  | .ctxFqPtrWrite _ _ => none
  | .ctxDbgDataAccess _ _ => none
  | .krnLimitWrite _ _ => none
  | .cohDiraWrite _ => none
  | .mtxErrRead _ => none
  | .memErrRead => none
  | .sysregWrite _ _ _ => none
  | .queueEnable _ _ => none
  | .queuePause _ _ => none
  | .queueResume _ _ => none
  | .queueDisable _ _ => none
  | .queueClear _ _ => none
  | .queueDoorbellWrite _ _ _ => none
  | .queueCplConsWrite _ _ _ => none
  | .ssArm _ _ => none
  | .ssReset _ _ => none
  | .ssDone _ _ _ => none
  | .ssTimeout _ _ => none
  | .watchdogExpiry _ => none
  | .placementTick => none
  | .recall _ _ => none
  | .ownTimeout _ => none
  | .shootdownRequest _ => none
  | .shootdownAck _ _ _ _ => none
  | .shootdownChildTimeout _ _ => none
  | .fencedNodeNotice _ => none
  | .poolCreate _ _ => none
  | .poolReset _ _ => none
  | .flitReceive _ _ _ _ => none
  | .portLock _ => none
  | .portTrainingDone _ => none
  | .portTrainingTimeout _ => none
  | .portLossOfLock _ => none
  | .portRetrainDone _ => none
  | .portRetrainTimeout _ => none
  | .nodeHandshakeDone _ => none
  | .nodeTrainingTimeout _ => none
  | .nodeRetrainTimeout _ => none
  | .fabricAccess _ => none
  | .fabricAck _ _ _ => none
  | .fabricReply _ _ => none
  | .fenceBoundExpiry _ => none
  | .collMessage _ => none
  | .lnkUnfence _ => none
  | .lnkDown _ => none
  | .lnkFence _ => none
  | .sessionOpen _ => none
  | .sessionLock _ => none
  | .sessionUnlock _ => none
  | .sessionClose _ => none
  | .keyupd _ => none
  | .spdmMessage _ _ => none
  | .getMeasurements _ => none
  | .hostAccess _ => none
  | .hbmReply _ _ _ => none
  | .mapout _ _ => none
  | .wake => none
  | .standby => none
  | .thermalTrip => none
  | .clockTick _ => none
  | .collTimeout _ _ => none
  | .lpddrReply _ _ _ => none
  | .cxlMemResponse _ _ _ => none

/-- The first word of an instruction with these fields (R49). -/
def wordOf (op : BitVec 9) (f : FWord) : DWord :=
  (if f.ext.isSome then 2#2 else 0#2) ++ op ++ f.g ++ BitVec.ofBool f.gn ++ f.fd ++ f.fa ++ f.fb ++ f.fc ++
    BitVec.ofBool f.ec ++ BitVec.ofBool f.eb ++ BitVec.ofBool f.ea ++ f.ty ++ f.md

/-- The bits of a slot (R62). -/
def slotBits (s : DualSlot) : BitVec 30 :=
  s.dop ++ BitVec.ofBool s.neg ++ s.grd ++ s.vd ++ s.vs ++ s.rsv

/-- The words of an instruction; an event of the package has none. -/
def encode (i : Instr) : Option (DWord × Option DWord) :=
  match i with
  | .dWord d => some (1#2 ++ slotBits d.slot0 ++ slotBits d.slot1 ++ d.rsv, none)
  | .unassignedOpcode w ext => some (w, ext)
  | j => (opcodeOf j).map (fun (op, f) => (wordOf op f, f.ext))

/-- The bytes of an instruction as memory holds them (R6). -/
def encodeBytes (i : Instr) : List Byte :=
  match encode i with
  | none => []
  | some (w, none) => toBytes 8 w.toNat
  | some (w, some x) => toBytes 8 w.toNat ++ toBytes 8 x.toNat

/-- What the decoder reads from an instruction whose bits are `w`, numbered from the first word's least significant
bit on: the first word in bits 63:0 and the extension in bits 127:64; every bit above `nbits` is 0. -/
def decodeTableWord (nbits w : Nat) : Option Instr :=
  match decode (toBytes 16 (w % 2 ^ nbits)) with
  | .ok (i, _) => some i
  | .error _ => none

/-! ### Fields read as numbers -/

/-- FTYPE of a word of class 001 (R52). -/
def FWord.ftype (f : FWord) : Nat := f.ty.toNat % 2 * 4 + f.md.toNat
/-- RND of a word of class 001 (R52). -/
def FWord.rnd (f : FWord) : Nat := f.ty.toNat / 2
/-- FC read as the Q field. -/
def FWord.q (f : FWord) : Nat := f.fc.toNat
/-- TYPE as a number. -/
def FWord.tcode (f : FWord) : Nat := f.ty.toNat
/-- MOD as a number. -/
def FWord.mod (f : FWord) : Nat := f.md.toNat
/-- OFS, the 27 bits of FA, FB and FC as a signed number (05_wave.md R123). -/
def FWord.ofs (f : FWord) : Int := signedOf 27 (f.fa.toNat * 2 ^ 18 + f.fb.toNat * 2 ^ 9 + f.fc.toNat)
/-- The extension word, 0 where there is none. -/
def FWord.desc (f : FWord) : Nat := (f.ext.getD 0).toNat

end Sys2Proof
end

