-- ==== Sys2Proof/Machine/Float.lean ====
section
/-! DEFINITION. The number formats of 02_numbers.md: decoding, exact values, rounding and conversion. Values are exact
(a sign, a natural numerator and denominator and a power of two); narrowing happens in `roundCode` alone. -/

namespace Sys2Proof.Machine

open Sys2Proof

/-- A floating-point format of R28: its mantissa width, exponent width, bias, and its codes without the sign bit. -/
structure Fmt where
  M : Nat
  E : Nat
  bias : Nat
  /-- The code of the largest finite value. -/
  maxCode : Nat
  /-- The code of infinity, where the format has one. -/
  inf : Option Nat
  /-- The code of the canonical NaN, where the format has one. -/
  nan : Option Nat
  /-- NaN results keep the sign of their source (R38). -/
  signedNan : Bool := false
  deriving DecidableEq, Repr

/-- The width of a format in bits. -/
def Fmt.width (t : Fmt) : Nat := t.M + t.E + 1

def fmtF64 : Fmt := ⟨52, 11, 1023, 0x7FEFFFFFFFFFFFFF, some 0x7FF0000000000000, some 0x7FF8000000000000, false⟩
def fmtF32 : Fmt := ⟨23, 8, 127, 0x7F7FFFFF, some 0x7F800000, some 0x7FC00000, false⟩
def fmtF16 : Fmt := ⟨10, 5, 15, 0x7BFF, some 0x7C00, some 0x7E00, false⟩
def fmtBf16 : Fmt := ⟨7, 8, 127, 0x7F7F, some 0x7F80, some 0x7FC0, false⟩
def fmtE5m2 : Fmt := ⟨2, 5, 15, 0x7B, some 0x7C, some 0x7F, true⟩
def fmtE4m3 : Fmt := ⟨3, 4, 7, 0x7E, none, some 0x7F, true⟩
def fmtE3m2 : Fmt := ⟨2, 3, 3, 0x1F, none, none, false⟩
def fmtE2m3 : Fmt := ⟨3, 2, 1, 0x1F, none, none, false⟩
def fmtE2m1 : Fmt := ⟨1, 2, 1, 0x7, none, none, false⟩

/-- The scalar floating-point format of a type code of R53 (12 to 20). -/
def fmtOf (code : Nat) : Option Fmt :=
  match code with
  | 12 => some fmtF64
  | 13 => some fmtF32
  | 14 => some fmtF16
  | 15 => some fmtBf16
  | 16 => some fmtE4m3
  | 17 => some fmtE5m2
  | 18 => some fmtE3m2
  | 19 => some fmtE2m3
  | 20 => some fmtE2m1
  | _ => none

/-- An exact value: NaN with its sign, an infinity, or `± num / den × 2 ^ exp` with a denominator that is not 0. -/
inductive FVal where
  | nan (neg : Bool)
  | inf (neg : Bool)
  | fin (neg : Bool) (num den : Nat) (exp : Int)
  deriving DecidableEq, Repr

/-- The sign of a value. -/
def FVal.neg : FVal → Bool
  | .nan n => n
  | .inf n => n
  | .fin n _ _ _ => n

def FVal.isNan : FVal → Bool
  | .nan _ => true
  | _ => false

def FVal.isInf : FVal → Bool
  | .inf _ => true
  | _ => false

def FVal.isZero : FVal → Bool
  | .fin _ 0 _ _ => true
  | _ => false

/-- The value with its sign inverted. -/
def FVal.negate : FVal → FVal
  | .nan n => .nan (!n)
  | .inf n => .inf (!n)
  | .fin n a d e => .fin (!n) a d e

/-- A code of a format is NaN (R28). -/
def Fmt.isNanCode (t : Fmt) (c : Nat) : Bool :=
  match t.nan with
  | none => false
  | some n => match t.inf with
    | some i => decide (i < c % 2 ^ (t.M + t.E))
    | none => c % 2 ^ (t.M + t.E) == n

/-- The exact value of a code (R28). -/
def Fmt.decode (t : Fmt) (c : Nat) : FVal :=
  let neg := bitOf c (t.M + t.E)
  let body := c % 2 ^ (t.M + t.E)
  let e := body / 2 ^ t.M
  let m := body % 2 ^ t.M
  if t.isNanCode c then .nan neg
  else if t.inf = some body then .inf neg
  else if e = 0 then .fin neg m 1 (1 - (t.bias : Int) - t.M)
  else .fin neg (2 ^ t.M + m) 1 ((e : Int) - t.bias - t.M)

/-- The rounding modes of R33; `sr g` is stochastic with the draw `g` of R42. -/
inductive Rnd where
  | rne
  | rtz
  | rup
  | rdn
  | sr (g : Nat)
  deriving DecidableEq, Repr

/-- `num / den` rounded to an integer in a mode, for a magnitude whose sign is `neg`. -/
def roundNat (md : Rnd) (neg : Bool) (num den : Nat) : Nat :=
  let q := num / den
  let r := num % den
  match md with
  | .rne => if 2 * r < den then q else if den < 2 * r then q + 1 else if q % 2 = 0 then q else q + 1
  | .rtz => q
  | .rup => if r = 0 || neg then q else q + 1
  | .rdn => if r = 0 || !neg then q else q + 1
  | .sr g => (num * 65536 + g * den) / (den * 65536)

/-- `num / den` multiplied by `2 ^ e`, as a numerator and a denominator. -/
def scaleBy (num den : Nat) (e : Int) : Nat × Nat :=
  if 0 ≤ e then (num * 2 ^ e.toNat, den) else (num, den * 2 ^ (-e).toNat)

/-- The floor of the base-2 logarithm of the positive quotient `num / den`. -/
def floorLog2 (num den : Nat) : Int :=
  let k : Int := (Nat.log2 num : Int) - Nat.log2 den
  let (a, b) := scaleBy num den (-k)
  if a < b then k - 1 else k

/-- `round_to` of R38 on a positive magnitude: the code (without sign) in the format, its exponent unbounded above. -/
def roundCode (t : Fmt) (md : Rnd) (neg : Bool) (num den : Nat) (exp : Int) : Nat :=
  let emin : Int := 1 - (t.bias : Int)
  let k := floorLog2 num den + exp
  let e := if k < emin then emin else k
  let (a, b) := scaleBy num den (exp - (e - t.M))
  (e - emin).toNat * 2 ^ t.M + roundNat md neg a b

/-- The sign bit of a format, where `neg`. -/
def Fmt.sign (t : Fmt) (neg : Bool) : Nat := if neg then 2 ^ (t.M + t.E) else 0

/-- `nan_result` of R38. -/
def Fmt.nanResult (t : Fmt) (neg : Bool) : Nat :=
  match t.nan with
  | none => 0
  | some n => if t.signedNan then t.sign neg + n else n

/-- `inf_result` of R38. -/
def Fmt.infResult (t : Fmt) (neg sat : Bool) : Nat :=
  if sat then t.sign neg + t.maxCode
  else match t.inf with
    | some i => t.sign neg + i
    | none => match t.nan with
      | some _ => t.nanResult neg
      | none => t.sign neg + t.maxCode

/-- `overflow_result` of R38. -/
def Fmt.overflowResult (t : Fmt) (md : Rnd) (neg sat : Bool) : Nat :=
  let top := t.sign neg + t.maxCode
  if sat then top
  else match md with
    | .rtz => top
    | .rup => if neg then top else t.infResult neg false
    | .rdn => if neg then t.infResult neg false else top
    | _ => t.infResult neg false

/-- The conversion of R38 of an exact value to a floating-point format. -/
def convert (t : Fmt) (x : FVal) (md : Rnd) (sat : Bool) : Nat :=
  match x with
  | .nan n => t.nanResult n
  | .inf n => t.infResult n sat
  | .fin n 0 _ _ => t.sign n
  | .fin n num den e =>
    let c := roundCode t md n num den e
    if t.maxCode < c then t.overflowResult md n sat else t.sign n + c

/-- An arithmetic result (R34, R36): rounded once, NaN canonical. -/
def arith (t : Fmt) (x : FVal) (md : Rnd) : Nat :=
  match x with
  | .nan _ => t.nan.getD 0
  | _ => convert t x md false

/-- The conversion to .e8m0 of R39. -/
def convertE8m0 (x : FVal) (md : Rnd) (sat : Bool) : Nat :=
  match x with
  | .nan _ => 0xFF
  | .inf _ => 0xFF
  | .fin _ 0 _ _ => 0
  | .fin true _ _ _ => 0xFF
  | .fin false num den e =>
    let k := floorLog2 num den + e
    if k < -127 then 0
    else
      let (a, b) := scaleBy num den (e - k)
      let up : Bool := match md with
        | .rne => decide (3 * b ≤ 2 * a)
        | .rup => decide (b < a)
        | .sr g => decide (2 * 65536 * b ≤ a * 65536 + g * b)
        | _ => false
      let y := if up then k + 1 else k
      if 127 < y then (if sat then 0xFE else 0xFF) else (y + 127).toNat

/-- The value of an .e8m0 code (R29). -/
def decodeE8m0 (c : Nat) : FVal :=
  if c % 256 = 255 then .nan false else .fin false 1 1 ((c % 256 : Nat) - 127)

/-- The conversion of R40 to an integer type of width `w`, saturating. -/
def convertInt (signed : Bool) (w : Nat) (x : FVal) (md : Rnd) : Nat :=
  let lo : Int := if signed then -((2 ^ (w - 1) : Nat) : Int) else 0
  let hi : Int := if signed then ((2 ^ (w - 1) : Nat) : Int) - 1 else ((2 ^ w : Nat) : Int) - 1
  match x with
  | .nan _ => 0
  | .inf n => wrapI w (if n then lo else hi)
  | .fin n num den e =>
    let (a, b) := scaleBy num den e
    let q : Int := roundNat md n a b
    let v := if n then -q else q
    wrapI w (if v < lo then lo else if hi < v then hi else v)

/-- The exact value of an integer. -/
def FVal.ofInt (x : Int) : FVal := .fin (decide (x < 0)) x.natAbs 1 0

/-! ### Arithmetic on exact values -/

/-- The zero that an exact sum of 0 gives, for addends that are not all zeros of one sign (R34). -/
def zeroSum (md : Rnd) : FVal := .fin (decide (md = .rdn)) 0 1 0

/-- Two finite values over one denominator and power of two: the signed numerators, the denominator, the power. -/
def aligned (n1 : Bool) (a1 d1 : Nat) (e1 : Int) (n2 : Bool) (a2 d2 : Nat) (e2 : Int) : Int × Int × Nat × Int :=
  let e := if e1 ≤ e2 then e1 else e2
  let x := a1 * d2 * 2 ^ (e1 - e).toNat
  let y := a2 * d1 * 2 ^ (e2 - e).toNat
  (if n1 then -(x : Int) else x, if n2 then -(y : Int) else y, d1 * d2, e)

/-- The exact sum (R34): ∞ − ∞ and NaN give NaN; the sign of a zero sum depends on the mode. -/
def FVal.add (x y : FVal) (md : Rnd) : FVal :=
  match x, y with
  | .nan _, _ => .nan false
  | _, .nan _ => .nan false
  | .inf a, .inf b => if a = b then .inf a else .nan false
  | .inf a, _ => .inf a
  | _, .inf b => .inf b
  | .fin n1 a1 d1 e1, .fin n2 a2 d2 e2 =>
    let (p, q, d, e) := aligned n1 a1 d1 e1 n2 a2 d2 e2
    let s := p + q
    if s = 0 then
      (if a1 = 0 && a2 = 0 && n1 == n2 then .fin n1 0 1 0 else zeroSum md)
    else .fin (decide (s < 0)) s.natAbs d e

/-- The exact product: 0 × ∞ and NaN give NaN. -/
def FVal.mul (x y : FVal) : FVal :=
  match x, y with
  | .nan _, _ => .nan false
  | _, .nan _ => .nan false
  | .inf a, .inf b => .inf (a != b)
  | .inf a, .fin b n _ _ => if n = 0 then .nan false else .inf (a != b)
  | .fin a n _ _, .inf b => if n = 0 then .nan false else .inf (a != b)
  | .fin n1 a1 d1 e1, .fin n2 a2 d2 e2 => .fin (n1 != n2) (a1 * a2) (d1 * d2) (e1 + e2)

/-- The exact reciprocal: of ±0 an infinity, of an infinity a zero (R105). -/
def FVal.recip (x : FVal) : FVal :=
  match x with
  | .nan n => .nan n
  | .inf n => .fin n 0 1 0
  | .fin n 0 _ _ => .inf n
  | .fin n a d e => .fin n d a (-e)

/-- One step of the integer square root: the root so far, with bit `i` tried. -/
def isqrtStep (x i r : Nat) : Nat := if (r + 2 ^ i) * (r + 2 ^ i) ≤ x then r + 2 ^ i else r

/-- The integer square root of a number below `4 ^ n`, tried bit by bit. -/
def isqrt (x : Nat) : Nat → Nat → Nat
  | 0, r => r
  | n + 1, r => isqrt x n (isqrtStep x n r)

/-- The square root, exact but for an odd unit far below any rounding point that marks a root that is not exact; a
value below −0 gives NaN (R105). The root keeps 64 bits and more. -/
def FVal.sqrt (x : FVal) : FVal :=
  match x with
  | .nan n => .nan n
  | .inf n => if n then .nan false else .inf false
  | .fin n 0 d e => .fin n 0 d e
  | .fin true _ _ _ => .nan false
  | .fin false a d e =>
    let e2 := e - e % 2
    let m := a * d * 2 ^ (e % 2).toNat * 4 ^ 80
    let r := isqrt m (Nat.log2 m / 2 + 1) 0
    .fin false (2 * r + b2n (decide (r * r ≠ m))) (2 * d) (e2 / 2 - 80)

/-- Rounds to an integral value in a mode, keeping the sign of a zero result (R102, frnd). -/
def FVal.round (x : FVal) (md : Rnd) : FVal :=
  match x with
  | .fin n a d e =>
    let (p, q) := scaleBy a d e
    .fin n (roundNat md n p q) 1 0
  | y => y

/-- Compares two values that are not NaN: the sign of `x − y`, with −0 and +0 equal. -/
def FVal.cmp (x y : FVal) : Ordering :=
  match x, y with
  | .inf a, .inf b => if a == b then .eq else if a then .lt else .gt
  | .inf a, _ => if a then .lt else .gt
  | _, .inf b => if b then .gt else .lt
  | .fin n1 a1 d1 e1, .fin n2 a2 d2 e2 =>
    let (p, q, _, _) := aligned n1 a1 d1 e1 n2 a2 d2 e2
    if p < q then .lt else if p = q then .eq else .gt
  | _, _ => .eq

/-- The place of a code that is not NaN in the order −∞ < … < −0 < +0 < … < +∞ of R103. -/
def Fmt.rank (t : Fmt) (c : Nat) : Int :=
  let body := c % 2 ^ (t.M + t.E)
  if bitOf c (t.M + t.E) then -(body : Int) - 1 else body

/-- A code is subnormal: exponent 0 and mantissa not 0. -/
def Fmt.isSub (t : Fmt) (c : Nat) : Bool :=
  let body := c % 2 ^ (t.M + t.E)
  decide (0 < body) && decide (body < 2 ^ t.M)

/-- Flush to zero (R35): a subnormal code becomes the zero of its sign. -/
def Fmt.flush (t : Fmt) (ftz : Bool) (c : Nat) : Nat :=
  if ftz && t.isSub c then t.sign (bitOf c (t.M + t.E)) else c

/-- FTZ acts on FP32 and FP64 vector arithmetic alone (R35). -/
def Fmt.ftz (t : Fmt) (on : Bool) : Bool := on && (t.width == 32 || t.width == 64)

/-! ### The operations of R102 to R106 on codes -/

/-- fadd (R102). -/
def fAdd (t : Fmt) (ftz : Bool) (md : Rnd) (a b : Nat) : Nat :=
  let z := t.ftz ftz
  t.flush z (arith t (FVal.add (t.decode (t.flush z a)) (t.decode (t.flush z b)) md) md)

/-- fsub: fadd with the sign of b inverted (R102). -/
def fSub (t : Fmt) (ftz : Bool) (md : Rnd) (a b : Nat) : Nat :=
  fAdd t ftz md a (Nat.xor (b % 2 ^ t.width) (2 ^ (t.M + t.E)))

/-- fmul (R102). -/
def fMul (t : Fmt) (ftz : Bool) (md : Rnd) (a b : Nat) : Nat :=
  let z := t.ftz ftz
  t.flush z (arith t (FVal.mul (t.decode (t.flush z a)) (t.decode (t.flush z b))) md)

/-- fma: product and sum rounded once (R102). -/
def fFma (t : Fmt) (ftz : Bool) (md : Rnd) (a b c : Nat) : Nat :=
  let z := t.ftz ftz
  let p := FVal.mul (t.decode (t.flush z a)) (t.decode (t.flush z b))
  t.flush z (arith t (FVal.add p (t.decode (t.flush z c)) md) md)

/-- fmin and fmax (R103): `useMax` picks the larger, `nanMode` is the .nan modifier. -/
def fMinMax (t : Fmt) (ftz useMax nanMode : Bool) (a0 b0 : Nat) : Nat :=
  let z := t.ftz ftz
  let a := t.flush z (a0 % 2 ^ t.width)
  let b := t.flush z (b0 % 2 ^ t.width)
  let canon := t.nan.getD 0
  match t.isNanCode a, t.isNanCode b with
  | true, true => canon
  | true, false => if nanMode then canon else b
  | false, true => if nanMode then canon else a
  | false, false =>
    if useMax then (if t.rank a < t.rank b then b else a) else (if t.rank b < t.rank a then b else a)

/-- fcmp's conditions (R104). -/
def fCmp (t : Fmt) (ftz : Bool) (cond a b : Nat) : Bool :=
  let z := t.ftz ftz
  let x := t.decode (t.flush z a)
  let y := t.decode (t.flush z b)
  let un := x.isNan || y.isNan
  match cond with
  | 0 => !un && x.cmp y == .eq
  | 1 => un || x.cmp y != .eq
  | 2 => !un && x.cmp y == .lt
  | 3 => !un && x.cmp y != .gt
  | 4 => !un && x.cmp y == .gt
  | 5 => !un && x.cmp y != .lt
  | 6 => un
  | _ => !un

/-- The class bit of a code for fcls (R104). -/
def fClass (t : Fmt) (a : Nat) : Nat :=
  let neg := bitOf a (t.M + t.E)
  match t.decode a with
  | .nan _ => 8
  | .inf _ => if neg then 0 else 7
  | v => if v.isZero then (if neg then 3 else 4)
    else if t.isSub a then (if neg then 2 else 5) else (if neg then 1 else 6)

/-- frcp, correctly rounded (R105). -/
def fRcp (t : Fmt) (ftz : Bool) (md : Rnd) (a : Nat) : Nat :=
  let z := t.ftz ftz
  t.flush z (arith t (t.decode (t.flush z a)).recip md)

/-- fsqrt, correctly rounded (R105). -/
def fSqrt (t : Fmt) (ftz : Bool) (md : Rnd) (a : Nat) : Nat :=
  let z := t.ftz ftz
  t.flush z (arith t (t.decode (t.flush z a)).sqrt md)

/-- frnd (R102). -/
def fRnd (t : Fmt) (ftz : Bool) (md : Rnd) (a : Nat) : Nat :=
  let z := t.ftz ftz
  t.flush z (arith t ((t.decode (t.flush z a)).round md) md)

/-- fscl: a × 2^k rounded once (R102). -/
def fScl (t : Fmt) (ftz : Bool) (md : Rnd) (a : Nat) (k : Int) : Nat :=
  let z := t.ftz ftz
  t.flush z (arith t (match t.decode (t.flush z a) with
    | .fin n m d e => .fin n m d (e + k)
    | y => y) md)

/-- The exact sum of a list of addends and its zero's sign (R34, R106). R34 gives the sign of a zero sum of two addends only; of more,
zeros of one sign give that sign, and any other zero sum is +0, or -0 in RDN (log 79). -/
def sumExact (md : Rnd) : List FVal → FVal
  | [] => .fin false 0 1 0
  | [x] => x
  | x :: xs => match FVal.add x (sumExact md xs) md with
    | .fin _ 0 d e => if (x :: xs).all (fun y => y.isZero && y.neg == x.neg) then .fin x.neg 0 1 0
        else .fin (md == .rdn) 0 d e
    | r => r

/-- dot2 and dot4 (R106): an exact sum of products and an .f32 addend, rounded once. -/
def fDot (t : Fmt) (n : Nat) (ftz : Bool) (md : Rnd) (a b c : Nat) : Nat :=
  let w := t.width
  let prods := (List.range n).map (fun j =>
    FVal.mul (t.decode (bitsOf a (w * j + w - 1) (w * j))) (t.decode (bitsOf b (w * j + w - 1) (w * j))))
  fmtF32.flush ftz (arith fmtF32 (sumExact md (fmtF32.decode (fmtF32.flush ftz c) :: prods)) md)

/-- A packed operation on the two 16-bit elements of its sources (R30, R102). -/
def packed2 (op : Nat → Nat → Nat → Nat) (a b c : Nat) : Nat :=
  op (a % 65536) (b % 65536) (c % 65536) +
    65536 * op (bitsOf a 31 16) (bitsOf b 31 16) (bitsOf c 31 16)

/-! ### Stochastic rounding -/

/-- The draw for counter `c` under `key` (R42). -/
def srDraw (key c : Nat) : Nat :=
  let z0 := (key + c * 0x9E3779B97F4A7C15) % 2 ^ 64
  let z1 := (Nat.xor z0 (z0 / 2 ^ 30) * 0xBF58476D1CE4E5B9) % 2 ^ 64
  let z2 := (Nat.xor z1 (z1 / 2 ^ 27) * 0x94D049BB133111EB) % 2 ^ 64
  let z3 := Nat.xor z2 (z2 / 2 ^ 31)
  bitsOf z3 63 48

/-- The key of a lane's generator (R42). -/
def srKey (seed block wib lane : Nat) : Nat :=
  Nat.xor (Nat.xor (Nat.xor seed (block % 2 ^ 32 * 2 ^ 10)) (wib % 32 * 32)) (lane % 32)

/-! ### MX blocks (R31, R43) -/

/-- The largest magnitude among values that are finite, as a value; the first of equals. -/
def maxMag : List FVal → FVal
  | [] => .fin false 0 1 0
  | x :: xs =>
    let y := maxMag xs
    match x, y with
    | .fin _ a d e, .fin _ a2 d2 e2 => if FVal.cmp (.fin false a d e) (.fin false a2 d2 e2) == .lt then y else
        .fin false a d e
    | _, _ => y

/-- The element types of MX blocks (R31): a floating-point format with its greatest exponent, or MXINT8. -/
inductive MxElem where
  | fp (t : Fmt) (emax : Nat)
  | int8
  deriving DecidableEq, Repr

/-- Quantises the values of a block (R43): the scale code and the element codes; `mode i` is the mode of element i. -/
def mxQuantise (el : MxElem) (xs : List FVal) (mode : Nat → Rnd) : Nat × List Nat :=
  if xs.any (fun x => x.isNan || x.isInf) then (0xFF, xs.map (fun _ => 0))
  else match maxMag xs with
    | .fin _ 0 _ _ => (0, xs.map (fun _ => 0))
    | .fin _ a d e =>
      let emax : Int := match el with
        | .fp _ m => m
        | .int8 => 0
      let s0 := floorLog2 a d + e - emax
      let s := if s0 < -127 then -127 else if 127 < s0 then 127 else s0
      ((s + 127).toNat, xs.zipIdx.map (fun (x, i) =>
        match x with
        | .fin n m dd ee => (match el with
          | .fp t _ => convert t (.fin n m dd (ee - s)) (mode i) true
          | .int8 =>
            let (p, q) := scaleBy m dd (ee + 6 - s)
            let r : Int := roundNat (mode i) n p q
            let v := if n then -r else r
            wrapI 8 (if v < -128 then -128 else if 127 < v then 127 else v))
        | _ => 0))
    | _ => (0, xs.map (fun _ => 0))

/-! ### Matrix array arithmetic (R45, R46) -/

/-- The value of a pass of products (R45). -/
def passValue (prods : List FVal) : Nat :=
  if prods.any FVal.isNan then 0x7FC00000
  else if prods.any (fun p => p.isInf && p.neg) && prods.any (fun p => p.isInf && !p.neg) then 0x7FC00000
  else if prods.any (fun p => p.isInf && p.neg) then 0xFF800000
  else if prods.any FVal.isInf then 0x7F800000
  else
    match maxMag prods with
    | .fin _ 0 _ _ => 0
    | .fin _ a d ee =>
      let e := floorLog2 a d + ee
      let t : Int := prods.foldl (fun acc p => match p with
        | .fin n m dd pe =>
          let (x, y) := scaleBy m dd (pe - (e - 30))
          if n then acc - (x / y : Nat) else acc + (x / y : Nat)
        | _ => acc) 0
      if t = 0 then 0 else arith fmtF32 (.fin (decide (t < 0)) t.natAbs 1 (e - 30)) .rne
    | _ => 0

/-- The accumulator after a pass (R46). -/
def accStep (acc pass : Nat) : Nat :=
  arith fmtF32 (FVal.add (fmtF32.decode acc) (fmtF32.decode pass) .rne) .rne

end Sys2Proof.Machine
end

