-- ==== Sys2Proof/Machine/Operands.lean ====
section
/-! DEFINITION. Operand forms (03_encoding.md R54 to R61, R68) and the encoding traps of steps 3 to 5 of R78, as data:
an `OpSpec` says what each field of a word holds, and one check reads it. -/

namespace Sys2Proof.Machine

open Sys2Proof

/-! ### Types -/

/-- The width of a type code of R53. -/
def typeWidth (code : Nat) : Nat :=
  [8, 16, 32, 64, 8, 16, 32, 64, 8, 16, 32, 64, 64, 32, 16, 16, 8, 8, 6, 6, 4, 8, 32, 32, 32].getD code 32

/-- A type code is a signed integer type. -/
def typeSigned (code : Nat) : Bool := decide (code < 4)

/-- The type classes of 04_compute_instructions.md R84. -/
def typesI : List Nat := [0, 1, 2, 3]
def typesN : List Nat := [4, 5, 6, 7]
def typesB : List Nat := [8, 9, 10, 11]
def typesF : List Nat := [12, 13, 14, 15]

/-- The element format of a packed type code and how many elements it has (R30). -/
def packedOf (code : Nat) : Option (Fmt × Nat) :=
  match code with
  | 22 => some (fmtBf16, 2)
  | 23 => some (fmtF16, 2)
  | 24 => some (fmtE4m3, 4)
  | _ => none

/-- The type code that FTYPE names (R52); 0b111 gives none. -/
def ftypeCode (ftype : Nat) : Option Nat := [12, 13, 14, 15, 22, 23, 24][ftype]?

/-- The type code of a word of class 001, `.f32` where FTYPE names none. -/
def typeOfFp (f : FWord) : Nat := (ftypeCode f.ftype).getD 13

/-! ### Operand fields -/

/-- What a general operand field names (R54). -/
inductive Src where
  | v (n : Nat)
  | s (n : Nat)
  | const (c : Nat)
  | special (x : Nat)
  | lit (sel : Nat)
  deriving DecidableEq, Repr

/-- Decodes a general operand field by its leading bits (R54). -/
def srcOf (f : Field) : Src :=
  let n := f.toNat
  if n < 256 then .v n
  else if n < 320 then .s (n - 256)
  else if n < 384 then .const (n - 320)
  else if n < 448 then .special (n - 384)
  else .lit (n - 448)

/-- The value of an inline constant as an exact number (R55); the irrational ones to 50 decimal places. -/
def constVal (c : Nat) : FVal :=
  if c ≤ 0x20 then .ofInt c
  else if c ≤ 0x30 then .ofInt (-((c - 0x20 : Nat) : Int))
  else match c with
    | 0x31 => .fin false 1 1 (-1)
    | 0x32 => .fin true 1 1 (-1)
    | 0x33 => .fin false 1 1 0
    | 0x34 => .fin true 1 1 0
    | 0x35 => .fin false 1 1 1
    | 0x36 => .fin true 1 1 1
    | 0x37 => .fin false 1 1 2
    | 0x38 => .fin true 1 1 2
    | 0x39 => .fin false 1 1 (-2)
    | 0x3A => .fin false 144269504088896340735992468100189213742664595415299 (10 ^ 50) 0
    | 0x3B => .fin false 69314718055994530941723212145817656807550013436026 (10 ^ 50) 0
    | 0x3C => .fin false 314159265358979323846264338327950288419716939937511 (10 ^ 50) 0
    | 0x3D => .fin false 15915494309189533576888376337251436203445964574046 (10 ^ 50) 0
    | 0x3E => .inf false
    | _ => .nan false

/-- The bits of an inline constant for an operand of a type (R55); none where the code has no value at that width. -/
def constBits (ty c : Nat) : Option Nat :=
  match fmtOf ty with
  | some t => some (convert t (constVal c) .rne false)
  | none => match packedOf ty with
    | some (t, n) =>
      let e := convert t (constVal c) .rne false
      some ((List.range n).foldl (fun acc j => acc + e * 2 ^ (t.width * j)) 0)
    | none =>
      if ty = 21 then some (convertE8m0 (constVal c) .rne false)
      else
        let w := typeWidth ty
        if c ≤ 0x20 then some (c % 2 ^ w)
        else if c ≤ 0x30 then some (wrapI w (-((c - 0x20 : Nat) : Int)))
        else match w with
          | 64 => some (convert fmtF64 (constVal c) .rne false)
          | 32 => some (convert fmtF32 (constVal c) .rne false)
          | 16 => some (convert fmtF16 (constVal c) .rne false)
          | _ => none

/-- The bits of the extension word that a literal selector picks (R57). -/
def litRaw (ext : DWord) (sel : Nat) : Nat :=
  match sel with
  | 0 => ext.toNat
  | 1 => ext.toNat % 2 ^ 32
  | _ => ext.toNat / 2 ^ 32

/-- The value of a literal for an operand of a type: extended or cut to its width (R57). -/
def litBits (ext : DWord) (ty sel : Nat) : Nat :=
  let x := litRaw ext sel
  if sel ≠ 0 && typeWidth ty == 64 then
    match ty with
    | 3 => wrapI 64 (signedOf 32 x)
    | 12 => convert fmtF64 (fmtF32.decode x) .rne false
    | _ => x
  else x % 2 ^ typeWidth ty

/-- A special value is assigned (R56). -/
def specialAssigned (x : Nat) : Bool := decide (x ≤ 0x0D) || (decide (0x10 ≤ x) && decide (x ≤ 0x1B))

/-- A special value is per-lane (R56). -/
def specialPerLane (x : Nat) : Bool := x == 0 || x == 0x0A

/-! ### Operand specifications -/

/-- What a general operand accepts. -/
structure Gen where
  /-- The type code its value has. -/
  ty : Nat := 10
  /-- v registers it takes (0: by the width of the type) and the alignment of the first (0: that number). -/
  regs : Nat := 0
  align : Nat := 0
  v : Bool := true
  s : Bool := true
  /-- s registers it takes, the first a multiple of that number. -/
  sRegs : Nat := 1
  iconst : Bool := true
  fconst : Bool := true
  special : Bool := true
  perLane : Bool := true
  lits : List Nat := [0, 1, 2]
  /-- A destination that may be a mask register m1 to m11. -/
  mask : Bool := false
  deriving DecidableEq, Repr

/-- How many v registers an operand takes. -/
def Gen.count (g : Gen) : Nat := if g.regs = 0 then (if typeWidth g.ty = 64 then 2 else 1) else g.regs

/-- The alignment of its first v register. -/
def Gen.alignment (g : Gen) : Nat := if g.align = 0 then g.count else g.align

/-- A general source of a type. -/
def Gen.src (ty : Nat) : Gen := { ty := ty }
/-- A uniform source of a type: no v register, no per-lane special value. -/
def Gen.uniform (ty : Nat) : Gen := { ty := ty, v := false, perLane := false }
/-- An s register or a literal of one selector. -/
def Gen.sLit (ty sel : Nat) : Gen :=
  { ty := ty, v := false, iconst := false, fconst := false, special := false, lits := [sel] }
/-- An s register, an integer constant or a literal of one selector. -/
def Gen.sIntLit (ty sel : Nat) : Gen := { ty := ty, v := false, fconst := false, special := false, lits := [sel] }
/-- An s register alone. -/
def Gen.sOnly (ty : Nat) : Gen :=
  { ty := ty, v := false, iconst := false, fconst := false, special := false, lits := [] }
/-- A v register (group) alone. -/
def Gen.vOnly (ty regs align : Nat) : Gen :=
  { ty := ty, regs := regs, align := align, s := false, iconst := false, fconst := false, special := false, lits := [] }

/-- What a field of a word holds (R49, R58, R59, R123). -/
inductive Operand where
  | unused
  | quals
  | offset
  | pred (count : Nat)
  | handle
  | bank
  /-- A mask register; a written one is not m0. -/
  | maskReg (write : Bool)
  | source (g : Gen)
  | dest (g : Gen)
  /-- FD read as data, in blocking mode. -/
  | data (g : Gen)
  deriving DecidableEq, Repr

/-- What TYPE, MOD and RND hold (R52, R53, R60). -/
inductive Typing where
  /-- TYPE must be 0. -/
  | none
  /-- TYPE is one of these codes. -/
  | codes (ok : List Nat)
  /-- FTYPE names one of these codes; the instruction rounds or not. -/
  | fp (ok : List Nat) (rounds : Bool)
  /-- The instruction's own checks read them. -/
  | own
  deriving DecidableEq, Repr

/-- The encoding rules of an instruction word. -/
structure OpSpec where
  fd : Operand := .unused
  fa : Operand := .unused
  fb : Operand := .unused
  fc : Operand := .unused
  /-- Q bits that the instruction defines. -/
  qBits : Nat := 0
  /-- MOD bits that the instruction defines. -/
  modBits : Nat := 0
  typing : Typing := .none
  /-- The extension word is a descriptor (R61). -/
  desc : Bool := false
  /-- Executes on a latency core (R76). -/
  latency : Bool := true
  /-- Only in system mode (R77). -/
  system : Bool := false
  /-- Further breaches of step 4 and of step 5. -/
  reserved : Bool := false
  illegal : Bool := false
  deriving Repr

/-- What the checks read of the issuing wave: a latency core, system mode, its v registers. -/
structure EncEnv where
  latency : Bool
  system : Bool
  nv : Nat
  deriving DecidableEq, Repr

/-- Bits of `x` outside the mask `m`. -/
def outside (x m : Nat) : Bool := decide (Nat.xor (Nat.lor x m) m ≠ 0)

/-- Step 4 of R78 for one field: its E bit is `e`, the defined Q bits are `qm`. -/
def Operand.reserved (o : Operand) (f : Field) (e : Bool) (qm : Nat) : Bool :=
  match o with
  | .unused => decide (f ≠ 0) || e
  | .quals => e || outside f.toNat qm
  | .offset => e
  | .pred _ => e || decide (128 ≤ f.toNat)
  | .handle => e || decide (16 ≤ f.toNat)
  | .bank => e || decide (32 ≤ f.toNat)
  | .maskReg _ => e || decide (f.toNat / 64 ≠ 6)
  | .source _ => match srcOf f with
    | .v _ => false
    | .s _ => false
    | .lit sel => e || decide (2 < sel)
    | _ => e
  | .dest _ => match srcOf f with
    | .lit sel => decide (2 < sel)
    | _ => false
  | .data _ => match srcOf f with
    | .lit sel => decide (2 < sel)
    | _ => false

/-- A source of the kind `g` may not be this operand (step 5 of R78); `uni`: every source must be uniform (R51). -/
def Gen.badSource (g : Gen) (env : EncEnv) (ext desc uni : Bool) (x : Src) : Bool :=
  match x with
  | .v n => !g.v || uni || decide (n % g.alignment ≠ 0) || decide (env.nv < n + g.count)
  | .s n => !g.s || decide (n % g.sRegs ≠ 0) || decide (64 < n + g.sRegs)
  | .const c => (if c ≤ 0x30 then !g.iconst else !g.fconst) || (constBits g.ty c).isNone
  | .special k => !g.special || !specialAssigned k || ((uni || !g.perLane) && specialPerLane k)
  | .lit sel => !g.lits.contains sel || !ext || desc

/-- A destination of the kind `g` may not be this operand (R54, R58, R67, R68). -/
def Gen.badDest (g : Gen) (env : EncEnv) (x : Src) : Bool :=
  match x with
  | .v n => !g.v || decide (n % g.alignment ≠ 0) || decide (env.nv < n + g.count)
  | .s _ => !g.s
  | .special k => !g.mask || decide (k < 0x11) || decide (0x1B < k) || decide (32 < typeWidth g.ty)
  | _ => true

/-- Step 5 of R78 for one field. -/
def Operand.illegal (o : Operand) (env : EncEnv) (ext desc uni : Bool) (f : Field) : Bool :=
  match o with
  | .pred n => decide (96 < f.toNat + n)
  | .maskReg w => decide (f.toNat % 64 < (if w then 0x11 else 0x10)) || decide (0x1B < f.toNat % 64)
  | .source g => g.badSource env ext desc uni (srcOf f)
  | .data g => g.badSource env ext desc false (srcOf f)
  | .dest g => g.badDest env (srcOf f)
  | _ => false

/-- The literal selector in a field that is a general operand. -/
def Operand.selector (o : Operand) (f : Field) : Option Nat :=
  match o, srcOf f with
  | .source _, .lit n => some n
  | .dest _, .lit n => some n
  | .data _, .lit n => some n
  | _, _ => none

/-- The literal selectors of a word. -/
def OpSpec.selectors (p : OpSpec) (f : FWord) : List Nat :=
  [p.fd.selector f.fd, p.fa.selector f.fa, p.fb.selector f.fb, p.fc.selector f.fc].filterMap id

/-- The extension bits that selectors pick (R57). -/
def selectedBits (sels : List Nat) : Nat :=
  sels.foldl (fun m n => Nat.lor m (match n with
    | 0 => 2 ^ 64 - 1
    | 1 => 2 ^ 32 - 1
    | 2 => (2 ^ 32 - 1) * 2 ^ 32
    | _ => 0)) 0

/-- The destination makes the instruction wave-uniform with uniform sources: it is an s register (R51). -/
def OpSpec.sDest (p : OpSpec) (f : FWord) : Bool :=
  match p.fd, srcOf f.fd with
  | .dest _, .s _ => true
  | _, _ => false

/-- Step 4 of R78. -/
def OpSpec.reservedTrap (p : OpSpec) (f : FWord) : Bool :=
  p.fd.reserved f.fd false p.qBits || p.fa.reserved f.fa f.ea p.qBits || p.fb.reserved f.fb f.eb p.qBits ||
  p.fc.reserved f.fc f.ec p.qBits ||
  (match p.typing with
   | .none => decide (f.ty ≠ 0) || outside f.mod p.modBits
   | .codes _ => outside f.mod p.modBits
   | .fp _ rounds => if rounds then decide (6 ≤ f.rnd) else decide (f.rnd ≠ 0)
   | .own => false) ||
  (match f.ext with
   | none => false
   | some x => !p.desc && outside x.toNat (selectedBits (p.selectors f))) ||
  p.reserved

/-- Step 5 of R78. -/
def OpSpec.illegalTrap (p : OpSpec) (env : EncEnv) (f : FWord) : Bool :=
  let uni := p.sDest f
  let x := f.ext.isSome
  decide (96 ≤ f.g.toNat) ||
  p.fd.illegal env x p.desc uni f.fd || p.fa.illegal env x p.desc uni f.fa || p.fb.illegal env x p.desc uni f.fb ||
  p.fc.illegal env x p.desc uni f.fc ||
  (match p.typing with
   | .codes ok => !ok.contains f.tcode
   | .fp ok rounds => (match ftypeCode f.ftype with
     | none => true
     | some c => !ok.contains c) || (rounds && f.rnd == 4)
   | _ => false) ||
  (if p.desc then !x else x && (p.selectors f).isEmpty) ||
  p.illegal

/-- The encoding trap of a word, if any: steps 3, 4 and 5 of R78 in this order (0x01 ILLEGAL_OP, 0x02 RESERVED_FIELD). -/
def OpSpec.trap (p : OpSpec) (env : EncEnv) (f : FWord) : Option Nat :=
  if (env.latency && !p.latency) || (p.system && !env.system) then some 1
  else if p.reservedTrap f then some 2
  else if p.illegalTrap env f then some 1
  else none

/-- The v registers and s registers that a field reads or, as a destination, writes. -/
def Operand.regs (o : Operand) (f : Field) : List Nat × List Nat :=
  let of (g : Gen) : List Nat × List Nat := match srcOf f with
    | .v n => ((List.range g.count).map (n + ·), [])
    | .s n => ([], (List.range g.sRegs).map (n + ·))
    | _ => ([], [])
  match o with
  | .source g => of g
  | .data g => of g
  | .dest g => of g
  | _ => ([], [])

end Sys2Proof.Machine
end

