-- ==== Sys2Proof/Machine/Waves.lean ====
section
/-! DEFINITION. Waves, their registers and the operands an issuing group reads and writes (03_encoding.md R54 to R72,
05_wave.md R115 to R119), and long-latency results in flight (R70 to R73). -/

namespace Sys2Proof.Machine

open Sys2Proof

/-! ### Lanes and waves -/

/-- The lanes of a mask, lowest first. -/
def laneList (m : Word) : List Nat := (List.range 32).filter (fun l => m.getLsbD l)

/-- The mask of some lanes. -/
def maskOf (ls : List Nat) : Word := ls.foldl (fun m l => m ||| (1#32 <<< l)) 0

/-- The lowest lane of a mask (0 for an empty one). -/
def lowestLane (m : Word) : Nat := (laneList m).headD 0

/-- The number of lanes of a mask. -/
def laneCount (m : Word) : Nat := (laneList m).length

/-- A wave that does not exist. -/
def Wave.blank : Wave := { core := 0, slot := 0, ctx := 0 }

/-- The key of a wave: its core and slot. -/
def waveKey (core slot : Nat) : Nat := core * 128 + slot

/-- The wave under a key. -/
def State.waveAt (s : State) (k : Nat) : Wave := (Cells.find s.waves k).getD Wave.blank

/-- Changes a wave. -/
def State.modWave (s : State) (k : Nat) (f : Wave → Wave) : State := { s with waves := Cells.modify s.waves k f }

/-- A write of some lanes of a wave was lost or refused (07_consistency.md R189, 12_barrier.md R278). -/
def State.noteLost (s : State) (k : Nat) (lanes : Word) : State :=
  s.modWave k (fun w => { w with lostWrites := w.lostWrites ++ [lanes], lostSteps := w.lostSteps + 1 })

/-- A thread of a latency core (R16). -/
def Wave.latency (w : Wave) : Bool := decide (1536 ≤ w.core)

/-! ### Registers -/

/-- The value of a v register in a lane. -/
def RegFile.vGet (r : RegFile) (n lane : Nat) : Word := Cells.get 0 r.v (n * 32 + lane)

/-- The place of an s register: in trap mode s56 to s63 are the second set (08_context.md R212). -/
def sIndex (trap : Bool) (n : Nat) : Nat := if trap && decide (56 ≤ n) then n + 64 else n

/-- The place of a predicate: in trap mode p94 and p95 are the second set (R212). -/
def pIndex (trap : Bool) (n : Nat) : Nat := if trap && decide (94 ≤ n) then n + 96 else n

/-- The value of an s register. -/
def RegFile.sGet (r : RegFile) (trap : Bool) (n : Nat) : DWord := Cells.get 0 r.s (sIndex trap n)

/-- The value of a predicate in a lane; p0 reads true (R66). -/
def RegFile.pGet (r : RegFile) (trap : Bool) (n lane : Nat) : Bool :=
  n == 0 || Cells.get false r.p (pIndex trap n * 32 + lane)

/-- The value of a mask register. -/
def RegFile.mGet (r : RegFile) (k : Nat) : Word := Cells.get 0 r.m k

/-- The live mask m0 (R116). -/
def Wave.m0 (w : Wave) : Word := w.regs.mGet 0

/-- Writes a v register in a lane. -/
def Wave.setV (w : Wave) (n lane : Nat) (x : Word) : Wave :=
  { w with regs := { w.regs with v := Cells.set 0 w.regs.v (n * 32 + lane) x } }

/-- Writes an s register by its place. -/
def Wave.setSAt (w : Wave) (i : Nat) (x : DWord) : Wave :=
  { w with regs := { w.regs with s := Cells.set 0 w.regs.s i x } }

/-- Writes an s register by its name. -/
def Wave.setS (w : Wave) (n : Nat) (x : DWord) : Wave := w.setSAt (sIndex w.trapMode n) x

/-- Writes a predicate in a lane; writes to p0 are ignored (R66). -/
def Wave.setP (w : Wave) (n lane : Nat) (b : Bool) : Wave :=
  if n = 0 then w
  else { w with regs := { w.regs with p := Cells.set false w.regs.p (pIndex w.trapMode n * 32 + lane) b } }

/-- Writes a mask register; on a latency core bits 31:1 stay 0 (R67). -/
def Wave.setM (w : Wave) (k : Nat) (x : Word) : Wave :=
  { w with regs := { w.regs with m := Cells.set 0 w.regs.m k (if w.latency then x &&& 1 else x) } }

/-- Writes the pc of lanes. -/
def Wave.setPcs (w : Wave) (lanes : List Nat) (f : Nat → DWord) : Wave :=
  { w with pcs := lanes.foldl (fun m l => Cells.set 0 m l (f l)) w.pcs }

/-- Writes the region entry of lanes (R132). -/
def Wave.setEntries (w : Wave) (lanes : List Nat) (f : Nat → DWord) : Wave :=
  { w with entries := lanes.foldl (fun m l => Cells.set 0 m l (f l)) w.entries }

/-- The pc of a lane. -/
def Wave.pcOf (w : Wave) (l : Nat) : DWord := Cells.get 0 w.pcs l

/-- Lanes that wait at an instruction. -/
def Wave.waiting (w : Wave) : Word := w.waits.foldl (fun m x => m ||| x.lanes) 0

/-- The ready lanes of a wave (R120): live and not waiting; none while an instruction holds its issue. -/
def Wave.ready (w : Wave) : Word :=
  if w.hold.isSome || w.waits.any LaneWait.wholeWave then 0 else w.m0 &&& ~~~ w.waiting

/-! ### The issuing group -/

/-- An issuing group: its wave's key, its pc and the size of its instruction, its lanes, the word's fields and the
active lanes (R50). -/
structure Env where
  key : Nat
  pc : DWord
  size : Nat
  lanes : Word
  act : Word
  f : FWord
  deriving Repr

/-- The registers the group reads: those from before the turn (R85). -/
def State.regsOf (s : State) (e : Env) : RegFile := (s.turnRegs.map (·.regs)).getD (s.waveAt e.key).regs

/-- The issuing wave with the full/empty bits the group finds: those from before the turn (R85, 05_wave.md R121). -/
def State.turnWave (s : State) (e : Env) : Wave :=
  let w := s.waveAt e.key
  match s.turnRegs with
  | none => w
  | some t => { w with vEmpty := t.vEmpty, sEmpty := t.sEmpty }

/-- A predicate in a lane, as the group reads it. -/
def State.pred (s : State) (e : Env) (n lane : Nat) : Bool := (s.regsOf e).pGet (s.waveAt e.key).trapMode n lane

/-- An s register, as the group reads it. -/
def State.sreg (s : State) (e : Env) (n : Nat) : DWord := (s.regsOf e).sGet (s.waveAt e.key).trapMode n

/-- A v register in a lane, as the group reads it. -/
def State.vreg (s : State) (e : Env) (n lane : Nat) : Word := (s.regsOf e).vGet n lane

/-- The die number of a core (R15, R56). -/
def dieOf (core : Nat) : Nat := if core < 768 then 0 else if core < 1536 then 1 else 2

/-- A special value in a lane (R56). -/
def State.specialValue (s : State) (e : Env) (x lane : Nat) : Nat :=
  let w := s.waveAt e.key
  let b := w.block.bind (fun i => Cells.find s.blocks i)
  let l := b.bind (fun i => Cells.find s.launches i.launch)
  match x with
  | 0x00 => if w.latency then 0 else lane
  | 0x01 => w.wib
  | 0x02 => w.slot
  | 0x03 => w.slot / 32
  | 0x04 => w.core
  | 0x05 => clusterOf w.core
  | 0x06 => dieOf w.core
  | 0x07 => (b.map (·.index)).getD 0
  | 0x08 => (l.map (·.fields.nblock)).getD 1
  | 0x09 => if w.latency then 1 else (l.map (·.fields.waves)).getD 1
  | 0x0A => if w.latency then 0 else 2 ^ lane - 1
  | 0x0B => (if w.latency then s.latencyCycle else s.cycle) % 2 ^ 64
  | 0x0C => s.node
  | 0x0D => w.ctx
  | n => if 0x10 ≤ n then ((s.regsOf e).mGet (n - 0x10)).toNat else 0

/-- The value of a general operand field in a lane, at the width of a type (R27, R55 to R57, R68). A special value wider than the type,
as CYCLE is, gives its low bits: R56 gives the extension of the 32-bit ones only (log 80). -/
def State.value (s : State) (e : Env) (ty : Nat) (f : Field) (lane : Nat) : Nat :=
  let w := typeWidth ty
  match srcOf f with
  | .v n => if w = 64 then (s.vreg e n lane).toNat + 2 ^ 32 * (s.vreg e (n + 1) lane).toNat
      else (s.vreg e n lane).toNat % 2 ^ w
  | .s n => (s.sreg e n).toNat % 2 ^ w
  | .const c => (constBits ty c).getD 0
  | .special x => s.specialValue e x lane % 2 ^ w
  | .lit sel => litBits (e.f.ext.getD 0) ty sel

/-- The value of a uniform operand field: that of the lowest active lane. -/
def State.uvalue (s : State) (e : Env) (ty : Nat) (f : Field) : Nat := s.value e ty f (lowestLane e.act)

/-- A result of a type extended to 32 bits for a v register (R27). -/
def extend32 (ty x : Nat) : Word :=
  if typeSigned ty then BitVec.ofNat 32 (wrapI 32 (signedOf (typeWidth ty) x)) else BitVec.ofNat 32 (x % 2 ^ typeWidth ty)

/-- A result of a type extended to 64 bits for an s register (R27). -/
def extend64 (ty x : Nat) : DWord :=
  if typeSigned ty then BitVec.ofNat 64 (wrapI 64 (signedOf (typeWidth ty) x)) else BitVec.ofNat 64 (x % 2 ^ typeWidth ty)

/-- Writes a result of a type to what a destination field names in a lane (R27, R54, R68). -/
def Wave.putDest (w : Wave) (ty : Nat) (f : Field) (lane x : Nat) : Wave :=
  match srcOf f with
  | .v n => if typeWidth ty = 64 then
        (w.setV n lane (BitVec.ofNat 32 x)).setV (n + 1) lane (BitVec.ofNat 32 (x / 2 ^ 32))
      else w.setV n lane (extend32 ty x)
  | .s n => w.setS n (extend64 ty x)
  | .special k => w.setM (k - 0x10) (BitVec.ofNat 32 x)
  | _ => w

/-- Writes a result of a type to the destination field in a lane. -/
def State.write (s : State) (e : Env) (ty : Nat) (f : Field) (lane x : Nat) : State :=
  s.modWave e.key (fun w => w.putDest ty f lane x)

/-- Writes a predicate in a lane. -/
def State.setPred (s : State) (e : Env) (n lane : Nat) (b : Bool) : State := s.modWave e.key (·.setP n lane b)

/-- Writes a predicate in every active lane. -/
def State.setPredAll (s : State) (e : Env) (n : Nat) (b : Bool) : State :=
  (laneList e.act).foldl (fun t l => t.setPred e n l b) s

/-- An instruction whose destination is an s register or a mask executes once (R51): its lanes are then the lowest
active one alone. -/
def Env.resultLanes (e : Env) : List Nat :=
  match srcOf e.f.fd with
  | .v _ => laneList e.act
  | _ => [lowestLane e.act]

/-! ### Full/empty bits and results in flight -/

/-- The v registers and s registers (by place) that are empty among those named, in some lane of a mask (R71). -/
def Wave.anyEmpty (w : Wave) (regs : List Nat × List Nat) (lanes : Word) : Bool :=
  regs.1.any (fun n => (laneList lanes).any (fun l => Cells.get false w.vEmpty (n * 32 + l))) ||
  regs.2.any (fun n => Cells.get false w.sEmpty (sIndex w.trapMode n))

/-- The lowest lane of a mask in which one of the registers is empty. -/
def Wave.emptyLane (w : Wave) (regs : List Nat × List Nat) (lanes : Word) : Nat :=
  ((laneList lanes).find? (fun l => regs.1.any (fun n => Cells.get false w.vEmpty (n * 32 + l)))).getD (lowestLane lanes)

/-- Marks registers full or empty, by their keys. -/
def Wave.mark (w : Wave) (vKeys sKeys : List Nat) (empty : Bool) : Wave :=
  { w with vEmpty := vKeys.foldl (fun m k => Cells.set false m k empty) w.vEmpty
           sEmpty := sKeys.foldl (fun m k => Cells.set false m k empty) w.sEmpty }

/-- The keys of the destination field of a type in some lanes. -/
def State.destKeys (s : State) (e : Env) (count : Nat) (f : Field) (lanes : Word) : List Nat × List Nat :=
  match srcOf f with
  | .v n => ((List.range count).flatMap (fun i => (laneList lanes).map (fun l => (n + i) * 32 + l)), [])
  | .s n => ([], [sIndex (s.waveAt e.key).trapMode n])
  | _ => ([], [])

/-- Starts a long-latency result: its destination is empty (R70), and it waits for its values. -/
def State.startFill (s : State) (key : Nat) (keys : List Nat × List Nat) : Nat × State :=
  let (id, s1) := s.fresh
  (id, { s1 with fills := Cells.put s1.fills id { wave := key, ready := false, vKeys := keys.1, sKeys := keys.2 } }.modWave
    key (·.mark keys.1 keys.2 true))

/-- Gives a result in flight its values; REGISTER_FILL then writes them. -/
def State.endFill (s : State) (id : Nat) (vs : List (Nat × Word)) (ss : List (Nat × DWord)) : State :=
  { s with fills := Cells.modify s.fills id (fun x => { x with vs := x.vs ++ vs, ss := x.ss ++ ss, ready := true }) }.post
    (.registerFill id)

/-- A long-latency result whose values are known. -/
def State.longResult (s : State) (key : Nat) (keys : List Nat × List Nat) (vs : List (Nat × Word))
    (ss : List (Nat × DWord)) : State :=
  let (id, s1) := s.startFill key keys
  s1.endFill id vs ss

/-- A 64-bit result for an s destination, at long latency. -/
def State.longS (s : State) (e : Env) (x : Nat) : State :=
  match srcOf e.f.fd with
  | .s n =>
    let i := sIndex (s.waveAt e.key).trapMode n
    s.longResult e.key ([], [i]) [] [(i, BitVec.ofNat 64 x)]
  | _ => s

/-- Ends a result in flight: its values, if any, are written, and its registers are full (R70). -/
def State.finishFill (s : State) (id : Nat) : State :=
  match Cells.find s.fills id with
  | none => s
  | some x =>
    { s with fills := Cells.del s.fills id }.modWave x.wave (fun w =>
      let w1 := x.vs.foldl (fun (u : Wave) (k, v) => u.setV (k / 32) (k % 32) v) w
      let w2 := x.ss.foldl (fun (u : Wave) (k, v) => u.setSAt k v) w1
      w2.mark x.vKeys x.sKeys false)

/-- Cancels the results in flight of a wave: their registers are full and keep their contents (R73). -/
def State.cancelFills (s : State) (key : Nat) : State :=
  let mine := s.fills.filter (fun (_, x) => x.wave == key)
  let s1 := { s with fills := s.fills.filter (fun (_, x) => x.wave != key)
                     fabricWaits := s.fabricWaits.filter (fun (_, x) => !(x.wave == key && x.getLine.isNone)) }
  s1.modWave key (fun w => mine.foldl (fun (u : Wave) (_, x) => u.mark x.vKeys x.sKeys false) w)

/-- Gives up one result in flight: its registers are full and keep their contents, and its requests are forgotten. -/
def State.cancelFill (s : State) (fill : Nat) : State :=
  match Cells.find s.fills fill with
  | none => s
  | some x =>
    ({ s with fills := Cells.del s.fills fill
              fabricWaits := s.fabricWaits.filter (fun (_, y) => y.fill != fill || y.getLine.isSome) } : State).modWave x.wave
      (·.mark x.vKeys x.sKeys false)

/-- The instruction at `pc` whose reply holds a wave's issue is given up: its lanes stand at it again. -/
def State.recede (s : State) (k : Nat) (pc : DWord) : State :=
  match (s.waveAt k).hold with
  | some (.reply fill lanes _ _) =>
    (s.cancelFill fill).modWave k (fun w => { w.setPcs (laneList lanes) (fun _ => pc) with hold := none })
  | _ => s

/-- A wait whose instruction is issued anew after a pre-emption: a waitsig (09_queue.md R233), a joink (10_kernel.md R253). -/
def LaneWait.reissued (x : LaneWait) : Bool :=
  x.wholeWave || (match x.obj with
    | .kernel _ => true
    | _ => false)

/-- A wave gives up waits: their registers are full, and their lanes stand at their instructions. -/
def Wave.giveUp (w : Wave) (p : LaneWait → Bool) : Wave :=
  let keys := (w.waits.filter p).map (fun x => x.sd)
  { (w.mark [] keys false) with waits := w.waits.filter (fun x => !p x) }

/-- A wave gives up a waitsig. -/
def Wave.dropSignals (w : Wave) : Wave := w.giveUp LaneWait.wholeWave

/-- Takes lanes out of the waits of a wave; a wait left by every lane is cancelled as a producer (R273). -/
def Wave.dropWaits (w : Wave) (lanes : Word) : Wave :=
  let step (x : LaneWait) : LaneWait := { x with lanes := x.lanes &&& ~~~ lanes }
  let gone := w.waits.filter (fun x => (step x).lanes == 0 && x.lanes != 0)
  let keys := gone.filterMap (fun x => match x.obj with
    | .mask _ => none
    | _ => some x.sd)
  { (w.mark [] keys false) with waits := (w.waits.map step).filter (fun x => x.lanes != 0) }

/-- The waits at a mask are evaluated again (05_wave.md R128): a lane that is no member is released, and when every
member of a mask waits at a waitm that names it, all of them are. -/
def Wave.settleMasks (w : Wave) : Wave :=
  let free (x : LaneWait) : Word := match x.obj with
    | .mask k =>
      let mk := w.regs.mGet k &&& w.m0
      let here := w.waits.foldl (fun m y => if y.obj = .mask k then m ||| y.lanes else m) 0
      if mk &&& ~~~ here = 0 then x.lanes else x.lanes &&& ~~~ mk
    | _ => 0
  let w1 := w.waits.foldl (fun u x => u.setPcs (laneList (free x)) (fun _ => x.pc + BitVec.ofNat 64 x.size)) w
  { w1 with waits := (w.waits.map (fun x => { x with lanes := x.lanes &&& ~~~ free x })).filter (fun x => x.lanes != 0) }

end Sys2Proof.Machine
end

