-- ==== Sys2Proof/Machine/Groups.lean ====
section
/-! DEFINITION. Cohorts and barriers as their tables keep them (11_group.md R256 to R259, 12_barrier.md R266 to R273):
membership, the test of open phases after each event, and the release of waiting lanes. -/

namespace Sys2Proof.Machine

open Sys2Proof

/-! ### Releasing waits -/

/-- Ends one wait of a wave with a value for its s register: its lanes are ready behind the instruction (R273). -/
def Wave.release (w : Wave) (x : LaneWait) (value : DWord) : Wave :=
  let w1 := ((w.setSAt x.sd value).mark [] [x.sd] false).setPcs (laneList x.lanes)
    (fun _ => x.pc + BitVec.ofNat 64 x.size)
  { w1 with waits := w1.waits.filter (fun y => decide (y ≠ x)) }

/-- Ends every wait of a wave that has an answer. -/
def Wave.releaseIf (w : Wave) (answer : LaneWait → Option DWord) : Wave :=
  w.waits.foldl (fun u x => match answer x with
    | none => u
    | some v => u.release x v) w

/-- Applies a change to every wave. -/
def State.mapWaves (s : State) (f : Wave → Wave) : State := { s with waves := s.waves.map (fun e => (e.1, f e.2)) }

/-- Ends the waits of a context's waves that have an answer, those of its saved image among them (10_kernel.md R253,
12_barrier.md R277). -/
def State.releaseWaits (s : State) (c : Nat) (answer : LaneWait → Option DWord) : State :=
  let s1 := s.mapWaves (fun w => if w.ctx = c then w.releaseIf answer else w)
  match (s1.ctxAt c).image with
  | none => s1
  | some im => s1.modCtx c (fun x => { x with image := some { im with waves := im.waves.map (fun w => Wave.releaseIf w answer) } })

/-! ### Placement groups and members -/

/-- The placement group of a block (R256): its launch, and the eight blocks of a cluster launch or the block alone. -/
def State.groupOfBlock (s : State) (b : Nat) : Nat × Nat :=
  match Cells.find s.blocks b with
  | none => (0, 0)
  | some blk =>
    let cluster := match Cells.find s.launches blk.launch with
      | some l => l.fields.cluster
      | none => false
    (blk.launch, if cluster then blk.index / 8 else blk.index)

/-- The placement group of a wave. -/
def State.groupOf (s : State) (w : Wave) : Nat × Nat :=
  match w.block with
  | none => (0, 0)
  | some b => s.groupOfBlock b

/-- The block is one of a cluster launch (R238). -/
def State.clusterLaunch (s : State) (b : Nat) : Bool :=
  match Cells.find s.blocks b with
  | none => false
  | some blk => match Cells.find s.launches blk.launch with
    | none => false
    | some l => l.fields.cluster

/-- The member lanes of a wave in a cohort entry of its cluster. -/
def Wave.memberMask (w : Wave) (entry : Nat) : Word :=
  match w.cohorts.find? (fun x => x.1 == entry) with
  | none => 0
  | some (_, m) => m

/-- Replaces a wave's member mask; an empty one frees the slot (R257, R263). -/
def Wave.setMembers (w : Wave) (entry : Nat) (m : Word) : Wave :=
  let rest := w.cohorts.filter (fun x => x.1 != entry)
  { w with cohorts := if m = 0 then rest else
      if w.cohorts.any (fun x => x.1 == entry) then
        w.cohorts.map (fun x => if x.1 = entry then (entry, m) else x)
      else w.cohorts ++ [(entry, m)] }

/-- The members of a cohort entry of a cluster. -/
def State.memberCount (s : State) (cluster entry : Nat) : Nat :=
  s.waves.foldl (fun n (_, w) => if clusterOf w.core = cluster then n + laneCount (w.memberMask entry) else n) 0

/-! ### Barriers -/

/-- The barrier reference of an entry (R269). -/
def barrierRef (gen entry : Nat) : Nat := gen * 256 + entry

/-- Ends the waits at a barrier entry of a cluster for which the answer is given, by the phase that is waited for and the
status of the arrival. -/
def State.releaseBarrier (s : State) (cluster entry gen : Nat) (answer : Nat → Nat → Option DWord) : State :=
  s.mapWaves (fun w =>
    if clusterOf w.core = cluster then
      w.releaseIf (fun x => match x.obj with
        | .barrier e g phase _ st => if e = entry ∧ g = gen then answer phase st else none
        | _ => none)
    else w)

/-- Makes a barrier entry FREE: its waiters are released with status 5 (R268). -/
def State.freeBarrier (s : State) (cluster entry : Nat) : State :=
  let key := cluster * 32 + entry
  let b := Cells.get {} s.barriers key
  { s with barriers := Cells.set {} s.barriers key { gen := b.gen } }.releaseBarrier cluster entry b.gen
    (fun _ _ => some (BitVec.ofNat 64 (5 * 2 ^ 56)))

/-- Makes a cohort entry FREE, and the barriers bound to it (R258, R268). -/
def State.freeCohort (s : State) (cluster entry : Nat) : State :=
  let key := cluster * 64 + entry
  let c := Cells.get {} s.cohorts key
  let s1 := { s with cohorts := Cells.set {} s.cohorts key { gen := c.gen } }
  (List.range 32).foldl (fun t e =>
    let b := Cells.get {} t.barriers (cluster * 32 + e)
    if b.live && b.cohort == entry then t.freeBarrier cluster e else t) s1

/-- The members who have arrived at the open phase of a barrier. -/
def BarrierEntry.arrivedCount (b : BarrierEntry) : Nat := b.arrived.foldl (fun n (_, m) => n + laneCount m) 0

/-- Tests the open phase of a barrier (R267): on completion PHASE rises, the arrivals are cleared and the lanes that
wait on the phase are released with its token and the status of their arrival, which is an acquire at .cluster (R269, R274). -/
def State.testBarrier (s : State) (cluster entry : Nat) : State :=
  let key := cluster * 32 + entry
  let b := Cells.get {} s.barriers key
  let n := b.arrivedCount
  let awaits (w : Wave) : Bool := clusterOf w.core == cluster && w.waits.any (fun x => match x.obj with
    | .barrier e g phase _ _ => e == entry && g == b.gen && phase == b.phase
    | _ => false)
  if b.live && n == s.memberCount cluster b.cohort && decide (b.min ≤ n) && decide (0 < n) then
    let s1 : State := ((s.waves.filter (fun e => awaits e.2)).map (fun e => e.2.core)).foldl State.l0Acquire s
    { s1 with barriers := Cells.set {} s.barriers key { b with phase := (b.phase + 1) % 65536, arrived := [] }
      }.releaseBarrier cluster entry b.gen (fun phase st =>
        if phase = b.phase then some (BitVec.ofNat 64 (st * 2 ^ 56 + phase * 65536 + barrierRef b.gen entry)) else none)
  else s

/-- Takes lanes of a wave out of a cohort; they take their arrivals with them (R263, R267). -/
def State.leaveCohort (s : State) (wave : Nat) (entry : Nat) (lanes : Word) : State :=
  let cluster := clusterOf (s.waveAt wave).core
  let s1 := s.modWave wave (fun w => w.setMembers entry (w.memberMask entry &&& ~~~ lanes))
  { s1 with barriers := s1.barriers.map (fun (k, b) =>
      if k / 32 = cluster ∧ b.cohort = entry then
        (k, { b with arrived := Cells.set 0 b.arrived wave (Cells.get 0 b.arrived wave &&& ~~~ lanes) })
      else (k, b)) }

/-- After an event that changed memberships or arrivals of a cluster: cohorts without members become FREE, and every
LIVE barrier's open phase is tested (R258, R267). -/
def State.settleCluster (s : State) (cluster : Nat) : State :=
  let s1 := (List.range 64).foldl (fun t e =>
    if (Cells.get {} t.cohorts (cluster * 64 + e)).live && t.memberCount cluster e == 0 then t.freeCohort cluster e
    else t) s
  (List.range 32).foldl (fun t e => t.testBarrier cluster e) s1

/-- Lanes of a wave leave every cohort they belong to (R259). -/
def State.leaveAll (s : State) (wave : Nat) (lanes : Word) : State :=
  let w := s.waveAt wave
  if w.cohorts.isEmpty then s
  else (w.cohorts.foldl (fun t (e, _) => t.leaveCohort wave e lanes) s).settleCluster (clusterOf w.core)

end Sys2Proof.Machine
end

