-- ==== Sys2Proof/Machine/Translate.lean ====
section
/-! DEFINITION. The address chain: the heap window and the page walk (01_package.md R21, 13_page.md R283 to R287),
permission (06_memory_access.md R146, 08_context.md R207), tier-C ownership (13_page.md R301), and the scope checker
(07_consistency.md R183 to R185). -/

namespace Sys2Proof.Machine

open Sys2Proof

/-! ### Page tables -/

/-- Why an address does not resolve or may not be accessed. -/
inductive AddrFault where
  /-- Malformed, straddling, untranslated; or `unbacked` (R22). -/
  | xlate (unbacked : Bool)
  /-- Not permitted; or a row of another guest (R207). -/
  | perm (guard : Bool)
  /-- A table of the walk lies in a shared frame that another package owns: the access stalls for it (R301). -/
  | unowned (frame : Nat)
  deriving DecidableEq, Repr

/-- Why an instruction word cannot be fetched: its fault with GUARD and UNBACKED, or a frame that another package owns. -/
inductive FetchFault where
  | fault (code : Nat) (guard unbacked : Bool)
  | unowned (frame : Nat)
  deriving DecidableEq, Repr

/-- Where an address leads: a package address, of this package or of a node, and the PTE that gave it (0 in the
heap window). -/
structure Place where
  pa : Nat
  remote : Option Nat
  pte : DWord
  deriving DecidableEq, Repr

/-- The level's index bits, page bits, and the alignment of the next level's table (R283). -/
def walkIndex (va lvl : Nat) : Nat :=
  match lvl with
  | 3 => bitsOf va 55 42
  | 2 => bitsOf va 41 29
  | 1 => bitsOf va 28 21
  | _ => bitsOf va 20 16

def pageBits (lvl : Nat) : Nat :=
  match lvl with
  | 2 => 29
  | 1 => 21
  | _ => 16

/-- An entry at a level is malformed (R286). -/
def malformedEntry (node : Nat) (e : Nat) (lvl : Nat) : Bool :=
  if bitOf e 1 then
    decide (lvl = 3) || decide (bitsOf e 15 12 ≠ 0) || decide (bitsOf e 51 16 % 2 ^ (pageBits lvl - 16) ≠ 0) ||
    decide (bitsOf e 10 9 = 3) ||
    (if bitOf e 11 then bitOf e 4 || decide (bitsOf e 63 52 = node) else decide (bitsOf e 63 52 ≠ 0))
  else
    decide (lvl = 0) || decide (bitsOf e 63 52 ≠ 0) || decide (bitsOf e 7 2 ≠ 0) ||
    decide (bitsOf e 51 8 % (match lvl with
      | 3 => 256
      | 2 => 8
      | _ => 1) ≠ 0)

/-- The frame is shared and another package owns it (R301). -/
def State.unowned (s : State) (pa : Nat) : Bool :=
  match Cells.find s.place (pa / 65536) with
  | some e => e.shr && !e.owned
  | none => false

/-- The walk from a table at a level (R283): the leaf and its page bits. -/
def State.walk (s : State) (va : Nat) : Nat → Nat → Except AddrFault (Nat × Nat)
  | 0, _ => .error (.xlate false)
  | n + 1, t =>
    let a := t + 8 * walkIndex va n
    if !s.backed a then .error (.xlate true)
    else if s.unowned a then .error (.unowned (a / 65536))
    else
      let e := s.peekNat a 8
      if !bitOf e 0 || malformedEntry s.node e n then .error (.xlate false)
      else if bitOf e 1 then .ok (e, pageBits n)
      else State.walk s va n (bitsOf e 51 8 * 256)

/-- The addresses of the entries that a walk from a table at a level reads (R286). -/
def State.walkReads (s : State) (va : Nat) : Nat → Nat → List Nat
  | 0, _ => []
  | n + 1, t =>
    let a := t + 8 * walkIndex va n
    if !s.backed a || s.unowned a then []
    else
      let e := s.peekNat a 8
      if !bitOf e 0 || malformedEntry s.node e n || bitOf e 1 then [a] else a :: State.walkReads s va n (bitsOf e 51 8 * 256)

/-- A TLB entry covers an address of a context (R287). -/
def TlbEntry.covers (x : TlbEntry) (c : Nat) (va : Nat) : Bool :=
  x.ctx == c && decide (va / 2 ^ x.bits = x.base / 2 ^ x.bits)

/-- The three TLBs that serve a core: its own, its cluster's and its die's (R287). -/
def tlbSites (core : Nat) : List TlbSite :=
  [.core core, .cluster (clusterOf core), .die (if core < 768 then 0 else if core < 1536 then 1 else 2)]

/-- The leaf for a paged address: from the first TLB that holds one, else from a walk; none where the root table is not
aligned (R283). -/
def State.leafOf (s : State) (c core va : Nat) : Except AddrFault (Nat × Nat) :=
  let root := (s.ctxAt c).ptroot.toNat
  if bitsOf root 16 12 ≠ 0 then .error (.xlate false)
  else match (tlbSites core).findSome? (fun st => s.tlb.find? (fun x => decide (x.site = st) && x.covers c va)) with
    | some x => .ok (x.pte.toNat, x.bits)
    | none => s.walk va 4 (bitsOf root 51 12 * 4096)

/-- How many entries a TLB holds (R287). -/
def tlbCapacity : TlbSite → Nat
  | .core _ => 64
  | .cluster _ => 2048
  | .die _ => 65536

/-- A TLB that serves a core holds the leaf of an address. -/
def State.tlbHit (s : State) (c core va : Nat) : Bool :=
  s.tlb.any (fun x => (tlbSites core).contains x.site && x.covers c va)

/-- The reads of a walk reach the cluster's cache, or the homes where no core asks (R286, R294, log 70). -/
def State.walkTouch (s : State) (c core va : Nat) : State :=
  (s.walkReads va 4 (bitsOf (s.ctxAt c).ptroot.toNat 51 12 * 4096)).foldl (fun t a =>
    if clusterOf core < 208 then (t.restoreLine a).cacheLoad (clusterOf core) a else (t.restoreLine a).homeRead a) s

/-- Caches the leaf of an address in the TLBs of a core, by a walk where none of them holds it; a full one drops an entry, chosen
freely. -/
def State.tlbFill (s0 : State) (c core va : Nat) : State :=
  match s0.leafOf c core va with
  | .error _ => s0
  | .ok (e, bits) =>
    let s := if s0.tlbHit c core va then s0 else s0.walkTouch c core va
    (tlbSites core).foldl (fun t st =>
      if t.tlb.any (fun x => decide (x.site = st) && x.covers c va) then t
      else
        let mine := t.tlb.filter (fun x => decide (x.site = st))
        let kept := if mine.length < tlbCapacity st then t.tlb
          else match mine[Config.victim t.tick % mine.length]? with
            | none => t.tlb
            | some v => t.tlb.filter (fun x => decide (x ≠ v))
        { t with tlb := kept ++ [{ site := st, ctx := c, base := va / 2 ^ bits * 2 ^ bits, bits := bits,
                                   pte := BitVec.ofNat 64 e }] }) s

/-! ### The address chain -/

/-- Bits 63:56 equal bit 55 (R21). -/
def canonical (va : Nat) : Bool := bitsOf va 63 56 == (if bitOf va 55 then 255 else 0)

/-- The page translation of R21. -/
def State.pageTranslate (s : State) (c core va : Nat) : Except AddrFault Place :=
  match s.leafOf c core va with
  | .error f => .error f
  | .ok (e, bits) =>
    let pa := (bitsOf e 51 16 * 65536 + va % 2 ^ bits) % 2 ^ 52
    if bitOf e 11 then .ok ⟨pa, some (bitsOf e 63 52), BitVec.ofNat 64 e⟩
    else if s.backed pa then .ok ⟨pa, none, BitVec.ofNat 64 e⟩
    else .error (.xlate true)

/-- The heap window of a context (R21): base, limit and offset. -/
def Context.window (x : Context) : Nat × Nat × Nat := (x.heapBase.toNat, x.heapLimit.toNat, x.heapOffset.toNat)

/-- Step 3 of R172 for a data access of `len` bytes at `va`. -/
def State.translate (s : State) (c core va len : Nat) : Except AddrFault Place :=
  let last := va + (len - 1)
  let (lo, hi, off) := (s.ctxAt c).window
  if !canonical va || decide (2 ^ 64 ≤ last) then .error (.xlate false)
  else if lo ≤ va && decide (last < hi) then
    let pa := (va + off) % 2 ^ 64
    if 2 ^ 52 ≤ pa then .error (.xlate false)
    else if s.backed pa then .ok ⟨pa, none, 0⟩
    else .error (.xlate true)
  else if lo < hi && decide (va < hi) && decide (lo ≤ last) then .error (.xlate false)
  else s.pageTranslate c core va

/-- The guest of a context (R201). -/
def Context.guest (x : Context) : Nat := bitsOf x.cfg.toNat 5 0
/-- A context runs in system mode (R212). -/
def Context.sys (x : Context) : Bool := bitOf x.cfg.toNat 8

/-- The number under which the allocation table keeps a device frame. -/
def allocKey (tier dframe : Nat) : Nat := tier * 2 ^ 30 + dframe

/-- A place lies in rows of another guest than its context's, or in a guard row (R207). The table holds a guest plus 1;
0 is no guest, which guard rows have (21_memory_devices.md R448). -/
def State.guarded (s : State) (c : Nat) (p : Place) : Bool :=
  match p.remote, s.device p.pa with
  | none, some k =>
    let a := k / 65536
    decide (Cells.get 0 s.alloc a ≠ (s.ctxAt c).guest + 1)
  | _, _ => false

/-- What an access needs of a page (R146). -/
structure Need where
  read : Bool := false
  write : Bool := false
  /-- A page of another package is refused (R286). -/
  here : Bool := false
  deriving DecidableEq, Repr

/-- Step 4 of R172. -/
def State.permitted (s : State) (c : Nat) (need : Need) (p : Place) : Except AddrFault Unit :=
  let e := p.pte.toNat
  let page : Bool := bitOf e 0
  if page && ((bitOf e 5 && !(s.ctxAt c).sys) || (need.read && !bitOf e 2) || (need.write && !bitOf e 3) ||
      (need.here && bitOf e 11)) then .error (.perm false)
  else if s.guarded c p then .error (.perm true)
  else .ok ()

/-- Steps 3 and 4 of R172 together. -/
def State.resolve (s : State) (c core va len : Nat) (need : Need) : Except AddrFault Place :=
  match s.translate c core va len with
  | .error f => .error f
  | .ok p => match s.permitted c need p with
    | .error f => .error f
    | .ok _ => .ok p

/-- An instruction fetch (R21, R207, R290): its package address, or the code of its fault with GUARD and UNBACKED. -/
def State.fetchPlace (s : State) (c core va : Nat) : Except FetchFault Nat :=
  let (lo, hi, _) := (s.ctxAt c).window
  if !canonical va then .error (.fault 0x20 false false)
  else if lo ≤ va && decide (va < hi) then .error (.fault 0x21 false false)
  else match s.pageTranslate c core va with
    | .error (.xlate u) => .error (.fault 0x20 false u)
    | .error (.perm g) => .error (.fault 0x21 g false)
    | .error (.unowned f) => .error (.unowned f)
    | .ok p =>
      let e := p.pte.toNat
      if !bitOf e 4 || (bitOf e 5 && !(s.ctxAt c).sys) then .error (.fault 0x21 false false)
      else if s.guarded c p then .error (.fault 0x21 true false)
      else if s.unowned p.pa then .error (.unowned (p.pa / 65536))
      else .ok p.pa

/-! ### Tier-C ownership -/

/-- Triggers the hand-over of a frame (R301): the Lintel reads the owner and recalls the frame, once. A frame whose
table entry already names this package is owned without a recall. -/
def State.requestOwnership (s : State) (frame : Nat) : State :=
  match Cells.find s.place frame with
  | none => s
  | some e =>
    if !e.shr || e.owned || e.handover then s
    else
      let owner := (Cells.get {} s.ownTable e.dframe).owner
      let s1 := { s with place := Cells.put s.place frame { e with handover := true } }
      if owner = s.node then s1.post (.handoverComplete frame) else s1.sendTo owner (.recall owner e.dframe)

/-! ### Agents and the scope checker -/

/-- The cluster's index within a context's rectangle: the die's place (0 or 1) and the index in row-major order. -/
def Context.rectIndex (x : Context) (cluster : Nat) : Nat × Nat :=
  let r := x.rect.toNat
  let die := cluster / 96
  let l := cluster % 96
  let dies := bitsOf r 17 16
  (if dies = 2 then die else 0, (l / 12 - bitsOf r 7 4) * bitsOf r 11 8 + (l % 12 - bitsOf r 3 0))

/-- The AGENT of a core in its context (R183). -/
def Context.agentOf (x : Context) (core : Nat) : Nat :=
  if 1536 ≤ core then 0x800 + (core - 1536)
  else
    let (d, i) := x.rectIndex (core / 8)
    d * 0x400 + i * 8 + core % 8

/-- The core that an AGENT of a context names, where it lies in the context's grant. -/
def Context.coreOf (x : Context) (agent : Nat) : Option Nat :=
  let r := x.rect.toNat
  if 0x800 ≤ agent then (if agent < 0x840 then some (1536 + (agent - 0x800)) else none)
  else
    let dies := bitsOf r 17 16
    let w := bitsOf r 11 8
    let i := agent % 0x400 / 8
    let d := agent / 0x400
    if dies = 3 || w = 0 || decide (w * bitsOf r 15 12 ≤ i) || (decide (dies ≠ 2) && decide (0 < d)) then none
    else
      let die := if dies = 2 then d else dies
      let row := bitsOf r 7 4 + i / w
      let col := bitsOf r 3 0 + i % w
      if 8 ≤ row ∨ 12 ≤ col then none else some ((die * 96 + row * 12 + col) * 8 + agent % 8)

/-- A cluster lies in a context's grant: its rectangle or its latency cores (R205). -/
def Context.grants (x : Context) (core : Nat) : Bool :=
  if 1536 ≤ core then bitOf x.lcores.toNat (core - 1536)
  else
    let r := x.rect.toNat
    let dies := bitsOf r 17 16
    let die := core / 768
    let l := core / 8 % 96
    decide (dies ≠ 3) && (decide (dies = 2) || decide (dies = die)) &&
    decide (bitsOf r 3 0 ≤ l % 12) && decide (l % 12 < bitsOf r 3 0 + bitsOf r 11 8) &&
    decide (bitsOf r 7 4 ≤ l / 12) && decide (l / 12 < bitsOf r 7 4 + bitsOf r 15 12)

/-- Two parties, each a node and an AGENT, share the instance of a scope (R177, R184). -/
def sameInstance (scope : Nat) (a b : Nat × Nat) : Bool :=
  let cluster (x : Nat) : Nat := if 0x800 ≤ x then 0x1000 + x / 4 else x / 8
  match scope with
  | 0 => a.1 == b.1 && a.2 == b.2
  | 1 => a.1 == b.1 && cluster a.2 == cluster b.2
  | 2 => a.1 == b.1 && a.2 / 0x400 == b.2 / 0x400
  | 3 => a.1 == b.1
  | _ => true

/-- The check of R184 against a line's record. -/
def LineMeta.syncOk (m : LineMeta) (scope : Nat) (party : Nat × Nat) : Bool :=
  m.scope == 7 || (sameInstance m.scope party (m.node, m.agent) && sameInstance scope party (m.node, m.agent))

/-- Enters a synchronising access that was performed into the record of its line (R184). -/
def State.syncUpdate (s : State) (pa scope : Nat) (party : Nat × Nat) : State :=
  s.modMeta pa (fun m => { m with scope := scope, node := party.1, agent := party.2 })

end Sys2Proof.Machine
end

