-- ==== Sys2Proof/Machine/Blocks.lean ====
section
/-! DEFINITION. The ends of work: waves that leave, blocks that retire, kernels that end (05_wave.md R144, 10_kernel.md
R247 to R255), queue entries that complete (09_queue.md R227, R230), and contexts that fault, are saved, and release their
cores (08_context.md R202, R204, R217, R218). -/

namespace Sys2Proof.Machine

open Sys2Proof

/-! ### Tiles of a stash (06_memory_access.md R148 to R155) -/

/-- The key of a stash byte of a block. -/
def State.stashKey (s : State) (b off : Nat) : Nat :=
  match Cells.find s.blocks b with
  | none => 0
  | some blk => blk.core * 2 ^ 19 + blk.stashBase + off

/-- A tile of a block. -/
def State.tileAt (s : State) (b t : Nat) : Tile :=
  match Cells.find s.blocks b with
  | none => {}
  | some blk => Cells.get {} blk.tiles t

/-- Changes a block. -/
def State.modBlock (s : State) (b : Nat) (f : Block → Block) : State := { s with blocks := Cells.modify s.blocks b f }

/-- Changes a tile of a block. -/
def State.modTile (s : State) (b t : Nat) (f : Tile → Tile) : State :=
  s.modBlock b (fun blk => { blk with tiles := Cells.set {} blk.tiles t (f (Cells.get {} blk.tiles t)) })

/-- The stash bytes of a block from an offset on, as the stash holds them. -/
def State.stashRaw (s : State) (b off len : Nat) : List Byte := Cells.getRun 0 s.stash (s.stashKey b off) len

/-- Writes stash bytes of a block. -/
def State.stashPut (s : State) (b off : Nat) (bs : List Byte) : State :=
  { s with stash := Cells.setRun 0 s.stash (s.stashKey b off) bs }

/-- The line of a mapped tile is not filled: a touch fetches it, or it is on its way (R151). -/
def Tile.unfilled (t : Tile) (line : Nat) : Bool :=
  decide (t.st ≠ .unmapped) && (match Cells.get .invalid t.lines line with
    | .clean => false
    | .dirty => false
    | _ => true)

/-- The bytes of a tile that no fill defines any more: free values, one for each byte (R151). -/
def State.undefineLine (s : State) (b t line : Nat) : State :=
  let off := 1024 * t + 128 * line
  s.stashPut b off ((List.range 128).map (fun i => Config.undefinedByte (s.tick * 2 ^ 31 + (s.stashKey b off + i))))

/-- A tile becomes UNMAPPED (R151, R153): the lines that hold no fill keep no defined bytes. -/
def State.unmapTile (s : State) (b t : Nat) : State :=
  let tile := s.tileAt b t
  if tile.st = .unmapped then s
  else
    let s1 := (List.range 8).foldl (fun u i => if tile.unfilled i then u.undefineLine b t i else u) s
    s1.modTile b t (fun x => { x with st := .unmapped, va := 0, lines := [], pas := [], old := [] })

/-! ### Engine operations that wait -/

/-- The event that carries an engine operation on. -/
def EngineOp.event (o : EngineOp) (id : Nat) : Option Instr :=
  match o.kind with
  | .copy _ => some (.copyTileWrite id)
  | .release _ _ => none
  | .level _ _ => none
  | .copied _ => some (.engineOpRetire id)
  | .put _ => some (.engineOpRetire id)
  | .coll _ => some (.engineOpRetire id)
  | .performed => some (.engineOpRetire id)
  | .pool _ => some (.engineOpRetire id)
  | .placement _ => some (.engineOpRetire id)
  | _ => some (.mtxOperation o.core id)

/-- Lets the waiting operations that a change may concern try again. -/
def State.wakeOps (s : State) (p : EngineOp → Bool) : State :=
  let hit (o : EngineOp) : Bool := o.stuck && p o
  { s with ops := s.ops.map (fun e => (e.1, if hit e.2 then { e.2 with stuck := false } else e.2))
           agenda := s.agenda ++ s.ops.filterMap (fun e => if hit e.2 then e.2.event e.1 else none) }

/-- An operation that has not arrived at the pool engine (17_block_pool.md R374). -/
def EngineOp.toPool (o : EngineOp) : Bool :=
  match o.kind with
  | .pool _ => !o.done
  | _ => false

/-- Lets the collective rounds that wait try again. -/
def State.wakeColls (s : State) : State :=
  s.wakeOps (fun o => match o.kind with
    | .coll _ => true
    | _ => false)

/-- An operation of the matrix unit (16_matrix.md R341, 18_attention.md R399). -/
def OpKind.onUnit : OpKind → Bool
  | .matrix _ => true
  | .zero _ _ => true
  | .writeBank _ => true
  | .readBank _ _ => true
  | .drain _ => true
  | .grant _ _ => true
  | .release _ _ => true
  | .mask _ => true
  | .softmax _ => true
  | .reduce _ => true
  | _ => false

/-- The cores at whose units an operation has arrived and is not performed: of an mxap both of the pair (R358). -/
def EngineOp.units (o : EngineOp) : List Nat :=
  if o.done || !o.kind.onUnit then []
  else match o.kind with
    | .matrix j => if j.pair then [o.core, Nat.xor o.core 1] else [o.core]
    | _ => [o.core]

/-- Looks at every operation and reduction round that waits again. -/
def State.wakeAll (s : State) : State :=
  let t := s.wakeOps (fun _ => true)
  { t with agenda := t.agenda ++ t.rounds.map (fun (k, _) => .credRoundComplete (k / 16) k) }

/-- An operation waits. -/
def State.stickOp (s : State) (id : Nat) : State :=
  { s with ops := Cells.modify s.ops id (fun o => { o with stuck := true }) }

/-! ### Queues -/

/-- The queue processor acts for a context (R224). -/
def CtxState.queuesRun : CtxState → Bool
  | .runnable => true
  | .running => true
  | .preempting => true
  | .saved => true
  | _ => false

/-- Completes the first accepted entry that `p` names (R227, R230): its record, then DONE, then MSI-X where IRQ is set. Each accepted
entry yields one record (R228), also where DISABLE and ENABLE have let two entries have one number. -/
def State.completeFirst (s : State) (c q : Nat) (p : QEntry → Bool) (status cycles : Nat) : State :=
  let x := s.ctxAt c
  let qu := x.queueAt q
  match qu.entries.find? p with
  | none => s
  | some e =>
    if !x.st.queuesRun then s
    else
      let d := (qu.done + s.hidden (.done c q 0 false) + 1) % 2 ^ 32
      let slot := (d + 2 ^ 32 - 1) % 2 ^ 32 % queueSize qu.ring
      (s.modQueue c q (fun y => { y with entries := y.entries.erase e })).deviceWrite (queueBase qu.cpl + 64 * slot)
        (wordBytes [BitVec.ofNat 64 (d * 2 ^ 32 + e.hseq), BitVec.ofNat 64 status, e.tag, BitVec.ofNat 64 cycles,
          BitVec.ofNat 64 s.timeNs, 0, 0, 0]) (.done c q d e.irq)

/-- Completes an entry that has not started its work. -/
def State.completeEntry (s : State) (c q hseq status cycles : Nat) : State :=
  s.completeFirst c q (fun e => e.hseq == hseq && !e.started) status cycles

/-- Completes the LAUNCH entry of a launch (R230). -/
def State.completeLaunch (s : State) (c q id status cycles : Nat) : State :=
  s.completeFirst c q (fun e => e.launch == some id) status cycles

/-! ### Free block places -/

/-- The resident blocks of a core (R242). -/
def State.residentBlocks (s : State) (core : Nat) : Nat :=
  (s.blocks.filter (fun (_, b) => b.core == core && !b.retired)).length

/-- The free block places of a context on a die (R244). -/
def State.freePlaces (s : State) (x : Context) (die : Nat) : Nat :=
  if bitsOf x.rect.toNat 17 16 = 3 then 0
  else (List.range 96).foldl (fun n l =>
    if x.grants ((die * 96 + l) * 8) then
      (List.range 8).foldl (fun m p => m + (16 - s.residentBlocks ((die * 96 + l) * 8 + p))) n
    else n) 0

/-- A die reports its free block places (R244). -/
def State.reportPlaces (s : State) (die : Nat) : State :=
  { s with ctxs := s.ctxs.map (fun (c, x) =>
      if x.st = .running then
        (c, if die = 0 then { x with places0 := s.freePlaces x 0 } else { x with places1 := s.freePlaces x 1 })
      else (c, x)) }

/-! ### Kernels -/

/-- The status that joink gives for an ended kernel (R253). -/
def joinStatus (st : Nat) : Nat := st - 3

/-- The handle of a kernel-table entry (R248). -/
def kernelHandle (gen index : Nat) : Nat := gen * 65536 + index

/-- Wakes the joinks of an ended kernel, each an acquire at .pkg; where one waited, the entry becomes FREE (R253). -/
def State.wakeJoins (s : State) (c entry : Nat) : State :=
  let k := Cells.get {} (s.ctxAt c).kernels entry
  if k.st < 3 then s
  else
    let h := kernelHandle k.gen entry
    let waits (w : Wave) : Bool := w.waits.any (fun x => decide (x.obj = .kernel h))
    let there := s.waves.any (fun e => e.2.ctx == c && waits e.2) ||
      (match (s.ctxAt c).image with
       | none => false
       | some im => im.waves.any waits)
    if !there then s
    else
      let cores := (s.waves.filter (fun e => e.2.ctx == c && waits e.2)).map (fun e => e.2.core)
      let s1 : State := cores.foldl State.l0Acquire s
      (s1.releaseWaits c (fun x =>
        if x.obj = .kernel h then some (BitVec.ofNat 64 (joinStatus k.st)) else none)).modCtx c
        (fun x => { x with kernels := Cells.set {} x.kernels entry { gen := k.gen } })

/-- Sets a kernel-table entry's state. -/
def State.setKernel (s : State) (c : Nat) (entry : Option Nat) (st : Nat) : State :=
  match entry with
  | none => s
  | some e => s.modCtx c (fun x => { x with kernels := Cells.modify x.kernels e (fun k => { k with st := st }) })

/-- Every entry of kernels below a root that has ended becomes FREE when the root launch completes (R248). -/
def State.freeUnder (s : State) (c root : Nat) : State :=
  let mine := s.launches.filter (fun (i, l) => l.root == root && i != root)
  let s1 := s.modCtx c (fun x => { x with kernels := mine.foldl (fun m (i, l) => match l.entry with
    | none => m
    | some e =>
      let k := Cells.get {} m e
      if k.launch = i ∧ 3 ≤ k.st then Cells.set {} m e { gen := k.gen } else m) x.kernels })
  { s1 with launches := s1.launches.filter (fun (i, l) => !(l.root == root) && i != root) }

/-- Ends a launch whose work is done, then looks at its parent (R248): the blocks have retired and every child has
ended. A chain of launches is at most 17 long (R249). -/
def State.settleLaunch (s : State) (id : Nat) : Nat → State
  | 0 => s
  | n + 1 =>
    match Cells.find s.launches id with
    | none => s
    | some l =>
      let kids := s.launches.any (fun (_, c) => c.parent == some id && !c.ended)
      let blocksLeft := s.blocks.any (fun (_, b) => b.launch == id && !b.retired)
      let gone := if l.killed.isSome then !blocksLeft
        else l.started && decide (l.retired = l.fields.nblock) && !kids
      if l.ended || !gone then s
      else
        let s1 := { s with launches := Cells.put s.launches id { l with ended := true } }
        let s2 := if l.killed.isSome then s1
          else match l.entry with
            | none => s1
            | some e => (s1.setKernel l.ctx l.entry 3).wakeJoins l.ctx e
        let s3 := match l.hseq with
          | none => s2
          | some _ => (s2.completeLaunch l.ctx l.queue id 0 l.cycles).freeUnder l.ctx id
        match l.parent with
        | none => s3
        | some p => State.settleLaunch s3 p n

/-! ### Blocks -/

/-- The key of a core's accumulator bank. -/
def bankKey (core bank : Nat) : Nat := core * 32 + bank

/-- The banks granted to a block. -/
def State.banksOf (s : State) (core b : Nat) : List Nat :=
  (List.range 32).filter (fun k => decide (Cells.find s.banks (bankKey core k) = some (.granted b)))

/-- An engine operation holds a block: one of its own waves' or an mxap of the other core of its pair (16_matrix.md
R343). -/
def State.opHolds (s : State) (b : Nat) (blk : Block) : Bool :=
  s.ops.any (fun (_, o) => !o.done && (o.block == some b ||
    (match o.kind with
     | .matrix j => j.pair && o.core == Nat.xor blk.core 1 && j.mate == some b
     | _ => false)))

/-- Charges a block's core-cycles to its queue (R231): the deficit saturates at −2^47. -/
def State.chargeQueue (s : State) (c q cycles : Nat) : State :=
  s.modQueue c q (fun y =>
    let d := y.deficit - (cycles : Int)
    { y with deficit := if d < -((2 ^ 47 : Nat) : Int) then -((2 ^ 47 : Nat) : Int) else d })

/-- Looks at the reduction rounds of a cluster again (18_attention.md R404, R409). -/
def State.wakeRounds (s : State) (cluster : Nat) : State :=
  (s.rounds.filter (fun (k, _) => k / 16 == cluster)).foldl (fun t (k, _) => t.post (.credRoundComplete cluster k)) s

/-- The first of the wave numbers that no wave has. -/
def goneWave : Nat := 2 ^ 32

/-- Frees one bank: at once where its core's unit holds no operation, else when those that have arrived are performed
(R348). -/
def State.freeBank (s : State) (core bank : Nat) : State :=
  if s.ops.any (fun (_, o) => o.units.contains core) then
    let (id, s1) := s.fresh
    { s1 with
      banks := Cells.put s1.banks (bankKey core bank) .freeing
      ops := Cells.put s1.ops id { wave := goneWave, block := none, core := core, cls := none, kind := .release bank 1 } }
  else { s with banks := Cells.del s.banks (bankKey core bank) }

/-- Retires a block once its last wave has left (R144, R247): its tiles are unmapped, its handles and banks are freed,
its stash is released (for a cluster launch with the last block of its group), and its cycles are charged. -/
def State.tryRetire (s : State) (b : Nat) : State :=
  match Cells.find s.blocks b with
  | none => s
  | some blk =>
    if blk.retired || !blk.prologue || s.waves.any (fun (_, w) => w.block == some b) || s.opHolds b blk then s
    else
      let cyc := s.cycle - blk.since
      let group := s.groupOfBlock b
      let together := s.clusterLaunch b
      let s0 := blk.tiles.foldl (fun (t : State) (i, _) => t.unmapTile b i)
        ((s.banksOf blk.core b).foldl (fun t k => t.freeBank blk.core k) s)
      let s1 := { s0 with
        blocks := Cells.put s0.blocks b { blk with retired := true, handles := [], tiles := [] }
        launches := Cells.modify s0.launches blk.launch (fun l =>
          { l with retired := l.retired + 1, cycles := l.cycles + cyc }) }
      let mates := s1.blocks.filter (fun (i, _) => s1.groupOfBlock i == group)
      let s2 := if !together then { s1 with blocks := Cells.del s1.blocks b }
        else if mates.all (fun (_, m) => m.retired) then
          { s1 with blocks := s1.blocks.filter (fun (i, _) => !mates.any (fun (j, _) => j == i)) }
        else s1
      let q := match Cells.find s.launches blk.launch with
        | none => 0
        | some l => l.queue
      ((((s2.chargeQueue blk.ctx q cyc).wakeRounds (clusterOf blk.core)).reportPlaces (blk.core / 768)).wakeOps
        (fun o => clusterOf o.core == clusterOf blk.core)).settleLaunch blk.launch 18

/-! ### Waves that leave -/

/-- A pgown (13_page.md R307). -/
def OpKind.ownsFrames : OpKind → Bool
  | .placement j => j.act == .own
  | _ => false

/-- Takes a wave off its core: its lanes leave their cohorts, its producers are cancelled, and what is still in flight no
longer counts for it (R73, R144, R254, R259). -/
def State.dropWave (s : State) (k : Nat) : State :=
  let (id, s0) := s.fresh
  let s1 := (s0.leaveAll k (BitVec.allOnes 32)).cancelFills k
  { s1 with
    waves := Cells.del s1.waves k
    ops := (s1.ops.filter (fun e => !(e.2.wave == k && e.2.kind.ownsFrames))).map (fun e =>
      (e.1, if e.2.wave = k then { e.2 with wave := goneWave + id } else e.2))
    nodes := s1.nodes.map (fun e => (e.1, { e.2 with unacked := e.2.unacked.map (fun p =>
      if p.wave = k then { p with wave := goneWave + id } else p) }))
    shootdowns := s1.shootdowns.map (fun d => if d.wave = some k then { d with wave := some goneWave } else d) }

/-- A wave in ENDING leaves once its counters are 0 and no register is empty (R142, R144). -/
def State.tryLeave (s : State) (k : Nat) : State :=
  match Cells.find s.waves k with
  | none => s
  | some w =>
    if w.life = .ending && w.counters.isEmpty && w.vEmpty.isEmpty && w.sEmpty.isEmpty && w.hold.isNone then
      match w.block with
      | none => s.dropWave k
      | some b => (s.dropWave k).tryRetire b
    else s

/-! ### Kernels that are killed -/

/-- A launch and its descendants, by rising number: a child's number is above its parent's. -/
def State.treeOf (s : State) (id : Nat) : List Nat :=
  s.launches.foldl (fun ids (i, l) => match l.parent with
    | none => ids
    | some p => if ids.contains p then ids ++ [i] else ids) [id]

/-- Marks one kernel as ended with a state: its unplaced blocks and its reduction rounds are dropped (R254). -/
def State.markKilled (s : State) (id st : Nat) : State :=
  match Cells.find s.launches id with
  | none => s
  | some l =>
    let t : State := { s with
      launches := Cells.put s.launches id { l with killed := some st, nextBlock := l.fields.nblock, returned := [] }
      dieLists := s.dieLists.map (fun (d, xs) => (d, xs.filter (fun x => x.1 != id)))
      rounds := s.rounds.filter (fun (_, r) => r.group.1 != id) }
    t.setKernel l.ctx l.entry st

/-- Wakes the joinks of a launch's kernel. -/
def State.wakeJoinsOf (s : State) (id : Nat) : State :=
  match Cells.find s.launches id with
  | none => s
  | some l => match l.entry with
    | none => s
    | some e => s.wakeJoins l.ctx e

/-- Ends a kernel as FAULTED (4) or KILLED (5), and every QUEUED or RUNNING kernel below it as KILLED (R254). -/
def State.markTree (s : State) (id st : Nat) : List Nat × State :=
  let ids := (s.treeOf id).filter (fun i => match Cells.find s.launches i with
    | none => false
    | some l => l.killed.isNone && !l.ended)
  (ids, ids.foldl (fun t i => t.markKilled i (if i = id then st else 5)) s)

/-- Removes what is left of kernels that have been marked as killed (R254). -/
def State.endKilled (s1 : State) (ids : List Nat) : State :=
  let mine (b : Option Nat) : Bool := match b with
    | none => false
    | some n => match Cells.find s1.blocks n with
      | none => false
      | some blk => ids.contains blk.launch
  let gone := (s1.waves.filter (fun (_, w) => mine w.block)).map (·.1)
  let s2 : State := gone.foldl State.dropWave s1
  let bs := (s2.blocks.filter (fun (i, _) => mine (some i))).map (·.1)
  let s3 : State := { s2 with blocks := s2.blocks.map (fun (i, blk) =>
    if mine (some i) then (i, { blk with prologue := true }) else (i, blk)) }
  let s4 := s3.wakeOps (fun o => mine o.block)
  let s5 : State := bs.foldl State.tryRetire s4
  let s6 : State := ids.foldl State.wakeJoinsOf s5
  ids.reverse.foldl (fun t i => t.settleLaunch i 18) s6

/-- Ends a kernel, and every kernel below it (R254). -/
def State.killLaunch (s : State) (id st : Nat) : State :=
  let (ids, t) := s.markTree id st
  t.endKilled ids

/-! ### Contexts that stop -/

/-- Blocks handed out and not placed return to their queue as ready (R245). -/
def State.recallBlocks (s : State) (c : Nat) : State :=
  let back := s.dieLists.flatMap (fun (_, xs) => xs.filter (fun (l, _) => match Cells.find s.launches l with
    | none => false
    | some y => y.ctx == c))
  { s with
    dieLists := s.dieLists.map (fun (d, xs) => (d, xs.filter (fun x => !back.contains x)))
    launches := s.launches.map (fun (i, l) =>
      (i, { l with returned := l.returned ++ (back.filter (fun x => x.1 == i)).map (·.2) })) }

/-- The address of the instruction whose replies hold a wave's issue, where it can be issued anew: none of its accesses may have been
performed with an effect beyond its registers (R217), or it is a pgown (13_page.md R304). -/
def State.reissues (s : State) (fill : Nat) : Option DWord :=
  let asked := s.fabricWaits.filter (fun (_, x) => x.fill == fill && x.getLine.isNone)
  match asked with
  | (_, x) :: _ => if asked.all (fun (_, y) => (!y.write && y.scope == 7) || !y.emitted) then some x.pc else none
  | [] => s.ops.findSome? (fun (_, o) => match o.kind with
      | .placement j => if j.act = .own ∧ j.fill = some fill then some j.pc else none
      | _ => none)

/-- An operation on frames gives the result of a fill. -/
def EngineOp.fills (o : EngineOp) (fill : Nat) : Bool :=
  match o.kind with
  | .placement j => j.fill == some fill
  | _ => false

/-- A wave stops (R217): what it reissues after the restore is given up, a waitsig, a joink, an access to another package that is not
performed, and a pgown. One that a halt has reached is HALTED (R220). -/
def State.stopWave (s : State) (k : Nat) : State :=
  let t := match (s.waveAt k).hold with
    | some (.reply fill _ _ _) => match s.reissues fill with
      | none => s
      | some pc => ({ s with ops := s.ops.filter (fun (_, o) => !o.fills fill) } : State).recede k pc
    | _ => s
  t.modWave k (fun w => if w.halting then { w with life := .halted, halting := false } else
    if w.life = .active ∨ w.life = .pending then { w.giveUp LaneWait.reissued with life := .stopped } else w)

/-- Every ACTIVE or PENDING wave of a context stops (R217). -/
def State.stopWaves (s : State) (c : Nat) : State :=
  ((s.waves.filter (fun (_, w) => w.ctx == c && (w.life == .active || w.life == .pending))).map (·.1)).foldl State.stopWave s

/-- The context enters FAULTED (R202): its waves stop and are saved, which PREEMPT_COMPLETE does once what is in flight
has ended; the queue processors stop (09_queue.md R224). -/
def State.faultContext (s : State) (c code : Nat) : State :=
  ((s.modCtx c (fun x => { x with st := .faulted, lastcode := code })).recallBlocks c).stopWaves c

/-- The launch of a block, where an instruction launch started it. -/
def State.startedBy (s : State) (blk : Block) : Option Nat :=
  match Cells.find s.launches blk.launch with
  | none => none
  | some l => if l.hseq.isNone then some blk.launch else none

/-- A fatal fault of a wave (R202, R254): the record is queued, and the kernel, where launch started it, or else the
context is FAULTED. -/
def State.fatal (s : State) (k : Nat) (r : Record) (code : Nat) : State :=
  let w := s.waveAt k
  let s1 := s.queueRecordC w.ctx r
  match (w.block.bind (Cells.find s.blocks)).bind s.startedBy with
  | some id => s1.killLaunch id 4
  | none => s1.faultContext w.ctx code

/-! ### The saved image -/

/-- The frames of an area of package memory are backed. -/
def State.areaBacked (s : State) (base bytes : Nat) : Bool :=
  let first := base / 65536
  let n := (bytes + 65535) / 65536
  (s.place.filter (fun (f, _) => decide (first ≤ f) && decide (f < first + n))).length == n

/-- The bytes of an area of package memory that are not as unlisted memory reads, by package address. -/
def State.areaBytes (s : State) (base bytes : Nat) : Cells Byte :=
  (s.place.filter (fun (f, _) => decide (base / 65536 ≤ f) && decide (f * 65536 < base + bytes))).flatMap (fun (f, e) =>
    (s.mem.filter (fun (k, _) => k / 65536 == allocKey e.tier e.dframe)).map (fun (k, v) => (f * 65536 + k % 65536, v)))

/-- The base of a context's image area (R209). -/
def Context.imageBase (x : Context) : Nat := bitsOf x.imageReg.toNat 51 16 * 65536

/-- The cores of a context's Bricor grant. -/
def Context.bricorCores (x : Context) : List Nat :=
  ((List.range 192).filter (fun cl => x.grants (cl * 8))).flatMap (fun cl => (List.range 8).map (cl * 8 + ·))

/-- The save area of a core's B-store slice (16_matrix.md R347). -/
def Context.bsaveBase (x : Context) (core : Nat) : Nat :=
  let (d, i) := x.rectIndex (core / 8)
  let perDie := bitsOf x.rect.toNat 11 8 * bitsOf x.rect.toNat 15 12
  bitsOf x.mtxBsave.toNat 51 21 * 2 ^ 21 + 2 ^ 21 * ((d * perDie + i) * 8 + core % 8)

/-- The 64 KiB parts of a context's B-store slices that a save keeps (R347): with EN set, those whose frames are backed; as AGENT × 32 +
part. -/
def State.bstoreParts (s : State) (c : Nat) : List Nat :=
  let x := s.ctxAt c
  if !bitOf x.mtxBsave.toNat 0 then []
  else x.bricorCores.flatMap (fun core => ((List.range 32).filter (fun i => s.backed (x.bsaveBase core + 65536 * i))).map
    (fun i => x.agentOf core * 32 + i))

/-- Saves the B-store slices of a context (R347): whole 64 KiB frames, the unbacked ones left out. -/
def State.saveBstore (s : State) (c : Nat) : State :=
  let x := s.ctxAt c
  if !bitOf x.mtxBsave.toNat 0 then s
  else x.bricorCores.foldl (fun t core =>
    (List.range 32).foldl (fun u i =>
      let a := x.bsaveBase core + 65536 * i
      if u.backed a then u.engineWrite a (Cells.getRun 0 u.bstore (core * 2 ^ 21 + 65536 * i) 65536) else u) t) s

/-- Reads the parts of a context's B-store slices that were saved back (R347); the others read as zero. -/
def State.loadBstore (s : State) (c : Nat) (parts : List Nat) : State :=
  let x := s.ctxAt c
  parts.foldl (fun t p => match x.coreOf (p / 32) with
    | none => t
    | some core =>
      let a := x.bsaveBase core + 65536 * (p % 32)
      if t.backed a then
        let (bs, u) := t.engineRead a 65536
        { u with bstore := Cells.setRun 0 u.bstore (core * 2 ^ 21 + 65536 * (p % 32)) bs }
      else t) s

/-- Moves the entries of a map whose key holds a core (or a cluster) in units of `unit` to another numbering. -/
def rekey {α : Type} (unit : Nat) (f : Nat → Option Nat) (m : Cells α) : Cells α :=
  m.filterMap (fun (k, v) => (f (k / unit)).map (fun a => (a * unit + k % unit, v)))

/-- Enters the entries of one map into another. -/
def merge {α : Type} (m n : Cells α) : Cells α := n.foldl (fun t (k, v) => Cells.put t k v) m

/-- A wave's key when its core is numbered otherwise. -/
def rekeyWave (f : Nat → Option Nat) (k : Nat) : Nat := match f (k / 128) with
  | none => k
  | some a => a * 128 + k % 128

/-- An operation that waits and is saved with the image: a copy command that waits for a tag or a hand-over, a collective at a message
boundary, a contribution to a reduction (R217, 15_copy_and_tiles.md R339, 18_attention.md R409). Every other completes first: the
matrix unit performs what has arrived (16_matrix.md R369), pool, shutter and placement operations and puts end (R217, 13_page.md
R304, 17_block_pool.md R391, 20_link.md R438). -/
def EngineOp.saved (o : EngineOp) : Bool :=
  o.stuck && (match o.kind with
    | .copy _ => o.starves.isNone
    | .coll _ => true
    | .reduce _ => true
    | _ => false)

/-- The image of a context (R217): cores as AGENT codes, so that every route in it is relative (R218). -/
def State.makeImage (s : State) (c : Nat) : Image :=
  let x := s.ctxAt c
  let rel (core : Nat) : Option Nat := if x.grants core then some (x.agentOf core) else none
  let relCluster (cl : Nat) : Option Nat := if cl < 192 && x.grants (cl * 8) then some (x.agentOf (cl * 8) / 8) else none
  let blocks := s.blocks.filter (fun (_, b) => b.ctx == c)
  { waves := (s.waves.filter (fun (_, w) => w.ctx == c)).map (fun (_, w) => { w with core := x.agentOf w.core })
    blocks := blocks.map (fun (i, b) => (i, { b with
      core := x.agentOf b.core
      tiles := b.tiles.map (fun (t, tile) =>
        (t, if tile.st = .unmapped then tile else { tile with st := .mapped, lines := [], pas := [], old := [] })) }))
    fills := (s.fills.filter (fun (_, f) => (s.waveAt f.wave).ctx == c)).map (fun (i, f) =>
      (i, { f with wave := rekeyWave rel f.wave }))
    ops := (s.ops.filter (fun (_, o) => x.grants o.core && o.saved)).map (fun (i, o) =>
      (i, { o with wave := rekeyWave rel o.wave, core := x.agentOf o.core }))
    stash := rekey (2 ^ 19) rel (s.stash.filter (fun (k, _) => blocks.any (fun (_, b) =>
      b.core == k / 2 ^ 19 && decide (b.stashBase ≤ k % 2 ^ 19) && decide (k % 2 ^ 19 < b.stashBase + 1024 * b.stashTiles)
      && decide ((Cells.get {} b.tiles ((k % 2 ^ 19 - b.stashBase) / 1024)).st = .unmapped))))
    acc := rekey 65536 rel (s.acc.filter (fun (k, _) => (Cells.find s.banks (k / 2048)).isSome))
    poison := rekey 65536 rel (s.accPoison.filter (fun (k, _) => (Cells.find s.banks (k / 2048)).isSome))
    parity := rekey 65536 rel (s.accParity.filter (fun (k, _) => (Cells.find s.banks (k / 2048)).isSome))
    banks := rekey 32 rel s.banks
    cohorts := rekey 64 relCluster s.cohorts
    barriers := (rekey 32 relCluster s.barriers).map (fun (k, b) =>
      (k, { b with arrived := b.arrived.map (fun (w, m) => (rekeyWave rel w, m)) }))
    rounds := rekey 16 relCluster s.rounds
    bparts := s.bstoreParts c
    digest := s.areaBytes x.imageBase x.imageSize }

/-- Releases the cores of a context (R204): what stands there is cleared, and its waves and blocks are gone. -/
def State.releaseCores (s : State) (c : Nat) : State :=
  let x := s.ctxAt c
  let held (core : Nat) : Bool := x.grants core
  let cl (n : Nat) : Bool := decide (n < 192) && x.grants (n * 8)
  let gone := (s.waves.filter (fun (_, w) => w.ctx == c)).map (·.1)
  { s with
    fills := s.fills.filter (fun (_, f) => !gone.contains f.wave)
    fabricWaits := s.fabricWaits.filter (fun (_, x) => !gone.contains x.wave || x.getLine.isSome)
    waves := s.waves.filter (fun (_, w) => w.ctx != c)
    blocks := s.blocks.filter (fun (_, b) => b.ctx != c)
    ops := s.ops.filter (fun (_, o) => !held o.core)
    stash := s.stash.filter (fun (k, _) => !held (k / 2 ^ 19))
    acc := s.acc.filter (fun (k, _) => !held (k / 65536))
    accPoison := s.accPoison.filter (fun (k, _) => !held (k / 65536))
    accParity := s.accParity.filter (fun (k, _) => !held (k / 65536))
    banks := s.banks.filter (fun (k, _) => !held (k / 32))
    bstore := s.bstore.filter (fun (k, _) => !held (k / 2 ^ 21))
    l0 := s.l0.filter (fun l => !held l.core)
    icache := s.icache.filter (fun l => l.ctx != c)
    cohorts := s.cohorts.filter (fun (k, _) => !cl (k / 64))
    barriers := s.barriers.filter (fun (k, _) => !cl (k / 32))
    rounds := s.rounds.filter (fun (k, _) => !cl (k / 16))
    tlb := s.tlb.filter (fun e => e.ctx != c || (match e.site with
      | .core n => !held n
      | _ => true)) }

/-- Everything of a context that was in flight has ended or waits in a way that is saved (R217): no operation moves, no
result but those of saved operations and rounds is outstanding, no wave holds an instruction, none is HALTED, and its posted writes
are acknowledged. A FAULTED context does not wait for HALTED waves. -/
def State.drained (s : State) (c : Nat) : Bool :=
  let x := s.ctxAt c
  let mine (k : Nat) : Bool := (s.waveAt k).ctx == c && (Cells.find s.waves k).isSome
  s.waves.all (fun (_, w) => w.ctx != c ||
    (w.hold.isNone && (x.st == .faulted || w.life != .halted))) &&
  s.ops.all (fun (_, o) => !x.grants o.core || o.saved) &&
  s.fills.all (fun (_, f) => !mine f.wave || !f.ready) &&
  s.fabricWaits.all (fun (_, f) => !mine f.wave) &&
  s.nodes.all (fun (_, l) => l.unacked.all (fun p => p.ctx != c))

/-- The state a wave of a context returns to: HALTED while the halt flag is set (R219), else PENDING; a latency core has no
pending set (05_wave.md R119). -/
def Context.wakeLife (x : Context) (core : Nat) : Life :=
  if x.halt then .halted else if 1536 ≤ core then .active else .pending

/-- The members that held collective messages back send them again (20_link.md R440). -/
def State.resumeColls (s : State) (c : Nat) : State :=
  (s.ctxAt c).collDeferred.foldl (fun t (n, tag, round) => t.sendTo n (.collAgain n tag round))
    (s.modCtx c (fun x => { x with collDeferred := [] }))

/-- A saved operation is issued anew: it takes new translations of the pages it touches, where they have one (R217, 13_page.md R288). -/
def OpKind.repage (k : OpKind) (f : Nat → Option Nat) : OpKind :=
  let g (m : Cells Nat) : Cells Nat := m.map (fun (p, n) => (p, (f p).getD n))
  match k with
  | .copy j => .copy { j with pages := g j.pages }
  | .reduce j => .reduce { j with pages := g j.pages }
  | .coll j => .coll { j with pages := g j.pages }
  | x => x

/-- The frame of this package that a virtual page of a context has for a core. -/
def State.frameFor (s : State) (c core page : Nat) : Option Nat :=
  match s.translate c core (65536 * page) 1 with
  | .error _ => none
  | .ok p => if p.remote.isSome then none else some (p.pa / 65536)

/-- Restores the image of a context on its rectangle (R218): STOPPED waves are PENDING, a wave that RESUME released while
it was saved is PENDING, and mapped tiles refill. -/
def State.restoreImage (s : State) (c : Nat) (im : Image) : State :=
  let x := s.ctxAt c
  let abs (a : Nat) : Option Nat := (x.coreOf a).filter x.grants
  let absCluster (a : Nat) : Option Nat := (x.coreOf (a * 8)).map (· / 8)
  let s1 := { s with
    waves := merge s.waves (im.waves.filterMap (fun (w : Wave) => (abs w.core).map (fun core =>
      (waveKey core w.slot, { w with
        core := core
        resumed := false
        life := if w.life = Life.stopped ∨ (w.life = Life.suspended ∧ w.resumed) then x.wakeLife core else w.life }))))
    blocks := merge s.blocks (im.blocks.filterMap (fun ((i, b) : Nat × Block) =>
      (abs b.core).map (fun core => (i, { b with core := core }))))
    fills := merge s.fills (im.fills.map (fun ((i, f) : Nat × Fill) => (i, { f with wave := rekeyWave abs f.wave })))
    ops := merge s.ops (im.ops.filterMap (fun ((i, o) : Nat × EngineOp) => (abs o.core).map (fun core =>
      (i, { o with core := core, wave := rekeyWave abs o.wave, kind := o.kind.repage (s.frameFor c core) }))))
    stash := merge s.stash (rekey (2 ^ 19) abs im.stash)
    acc := merge s.acc (rekey 65536 abs im.acc)
    accPoison := merge s.accPoison (rekey 65536 abs im.poison)
    accParity := merge s.accParity (rekey 65536 abs im.parity)
    banks := merge s.banks (rekey 32 abs im.banks)
    cohorts := merge s.cohorts (rekey 64 absCluster im.cohorts)
    barriers := merge s.barriers ((rekey 32 absCluster im.barriers).map (fun ((k, b) : Nat × BarrierEntry) =>
      (k, { b with arrived := b.arrived.map (fun (w, m) => (rekeyWave abs w, m)) })))
    rounds := merge s.rounds (rekey 16 absCluster im.rounds) }
  let s2 := (((s1.modCtx c (fun y => { y with image := none })).loadBstore c im.bparts).resumeColls c).wakeOps
    (fun o => x.grants o.core)
  { s2 with agenda := s2.agenda ++ (s2.rounds.filter (fun (k, _) => im.rounds.any (fun (a, _) =>
      absCluster (a / 16) == some (k / 16) && a % 16 == k % 16))).map (fun (k, _) => .credRoundComplete (k / 16) k) }

end Sys2Proof.Machine
end

