-- ==== Sys2Proof/Machine/Tensor.lean ====
section
/-! DEFINITION. The addresses that engine commands touch: spans and their pages, boxes of a tensor map (15_copy_and_tiles.md R331,
R332), the data tiles of a copy command, and the order of its accesses among those of its wave (R330). -/

namespace Sys2Proof.Machine

open Sys2Proof

/-! ### Spans -/

/-- The parts of a span that lie in one line each: address and length. -/
def vPieces : Nat → Nat → Nat → List (Nat × Nat)
  | 0, _, _ => []
  | k + 1, va, n =>
    if n = 0 then []
    else
      let m := Nat.min n (128 - va % 128)
      (va % 2 ^ 64, m) :: vPieces k (va + m) (n - m)

/-- The pages of 64 KiB that a span of addresses touches, each by the first address touched in it. -/
def spanPages (va len : Nat) : List Nat :=
  if len = 0 then []
  else
    let n := (va + len - 1) / 65536 - va / 65536
    (va % 2 ^ 64) :: (List.range n).map (fun i => (va / 65536 + i + 1) * 65536 % 2 ^ 64)

/-- The pages of several spans, each page once. -/
def pagesOf (spans : List (Nat × Nat)) : List Nat :=
  spans.foldl (fun ps x => (spanPages x.1 x.2).foldl (fun qs a =>
    if qs.any (fun b => b / 65536 == a / 65536) then qs else qs ++ [a]) ps) []

/-- The parts of a span at package addresses, one line each. -/
def pagedPieces (pages : Cells Nat) (va len : Nat) : List (Nat × Nat) :=
  (vPieces (len / 128 + 2) va len).map (fun (a, n) => ((Cells.get 0 pages (a / 65536)) * 65536 + a % 65536, n))

/-! ### Boxes of a tensor map -/

/-- Bytes of a row of a fill (R331). -/
def TensorMap.rowBytes (m : TensorMap) : Nat := m.box0 * m.esz

/-- The extent of a dimension: 1 at or beyond RANK (R332). -/
def TensorMap.extent (m : TensorMap) (dim : Nat) : Nat :=
  if m.rank ≤ dim then 1
  else match dim with
    | 0 => m.ext0
    | 1 => m.ext1
    | _ => m.ext2

/-- A coordinate lies in its dimension (R332). -/
def TensorMap.valid (m : TensorMap) (c : Int) (dim : Nat) : Bool := decide (0 ≤ c) && decide (c < (m.extent dim : Int))

/-- A coordinate folded by the ring (R332). -/
def TensorMap.fold (m : TensorMap) (c : Int) (dim : Nat) : Nat :=
  (if dim = m.ringDim then c % (m.ring : Int) else c).toNat

/-- A row at an origin and two further coordinates (R332): the zero bytes before its elements, the address of the
first element that is read, and the bytes read; none where its mask bit is 0. -/
def TensorMap.row (m : TensorMap) (c0 y z : Int) : Option (Nat × Nat × Nat) :=
  let lo := if c0 < 0 then (-c0).toNat else 0
  let hi := Nat.min m.box0 (((m.extent 0 : Nat) : Int) - c0).toNat
  if (m.ring = 0 ∧ m.ringDim ≠ 0) ∨ ¬(m.valid y 1 ∧ m.valid z 2) ∨ hi ≤ lo then none
  else some (lo * m.esz,
    (m.base.toNat + (c0 + (lo : Int)).toNat * m.esz + m.fold y 1 * m.stride1.toNat + m.fold z 2 * m.stride2.toNat) % 2 ^ 64,
    (hi - lo) * m.esz)

/-- The coordinates of row `r` of a fill: of its box, or of the lanes of a gath (R332, R336). -/
def CopyJob.rowAt (j : CopyJob) (r : Nat) : Option (Int × Int × Int) :=
  match j.kind with
  | .gatherIn => match j.rows.getD r none with
    | none => none
    | some v => some (0, v, 0)
  | _ =>
    let m := j.tmap
    let c (d : Nat) : Int := if m.rank ≤ d then 0 else j.origin.getD d 0
    if r < m.box1 * m.box2 then some (c 0, c 1 + ((r % m.box1 : Nat) : Int), c 2 + ((r / m.box1 : Nat) : Int)) else none

/-- The rows of a fill. -/
def CopyJob.rowCount (j : CopyJob) : Nat :=
  match j.kind with
  | .gatherIn => 32
  | _ => j.tmap.box1 * j.tmap.box2

/-- A row of a fill, as `TensorMap.row` gives it. -/
def CopyJob.row (j : CopyJob) (r : Nat) : Option (Nat × Nat × Nat) :=
  match j.rowAt r with
  | none => none
  | some (x, y, z) => j.tmap.row x y z

/-- The spans a command reads (or, for cpy.out, writes) in global memory. -/
def CopyJob.spans (j : CopyJob) : List (Nat × Nat) :=
  match j.kind with
  | .boxIn => (List.range j.rowCount).filterMap (fun r => (j.row r).map (fun x => (x.2.1, x.2.2)))
  | .boxBstore => (List.range j.rowCount).filterMap (fun r => (j.row r).map (fun x => (x.2.1, x.2.2)))
  | .gatherIn => (List.range j.rowCount).filterMap (fun r => (j.row r).map (fun x => (x.2.1, x.2.2)))
  | _ => [(j.ga.toNat, 1024 * j.total)]

/-- The rows in a data tile. -/
def CopyJob.rowsPerTile (j : CopyJob) : Nat := 1024 / j.tmap.rowBytes

/-- The package parts that data tile `d` reads. -/
def CopyJob.tilePieces (j : CopyJob) (d : Nat) : List (Nat × Nat) :=
  let rows (_ : Unit) : List (Nat × Nat) := (List.range j.rowsPerTile).flatMap (fun q =>
    match j.row (d * j.rowsPerTile + q) with
    | none => []
    | some (_, va, n) => pagedPieces j.pages va n)
  match j.kind with
  | .boxIn => rows ()
  | .boxBstore => rows ()
  | .gatherIn => rows ()
  | _ => pagedPieces j.pages (j.ga.toNat + 1024 * d) 1024

/-! ### Program order (R330) -/

/-- A copy command has still to access a byte of a package range. -/
def CopyJob.ahead (j : CopyJob) (pa n : Nat) : Bool :=
  (List.range (j.total - j.next)).any (fun i => (j.tilePieces (j.next + i)).any (fun p =>
    decide (p.1 < pa + n) && decide (pa < p.1 + p.2)))

/-- A wave is about to write a package range: a copy command of the wave that has still to read bytes of it reads them as they are
now, and one that has still to write them writes them no more, since its accesses come first in program order (R330). -/
def State.keepPast (s : State) (k pa n : Nat) : State :=
  let keep (j : CopyJob) : CopyJob := if j.ahead pa n then
      { j with past := (List.range n).foldl (fun m i => if (Cells.find m (pa + i)).isSome then m
          else Cells.put m (pa + i) (s.peekByte (pa + i))) j.past }
    else j
  { s with ops := s.ops.map (fun (i, o) => match o.kind with
      | .copy j => if o.wave = k ∧ !o.done then (i, { o with kind := .copy (keep j) }) else (i, o)
      | _ => (i, o)) }

/-- A copy command of a wave has still to write a byte of a package range, which a later read of the wave has to wait for (R330). -/
def State.outAhead (s : State) (k pa n : Nat) : Bool :=
  s.ops.any (fun (_, o) => o.wave == k && !o.done && (match o.kind with
    | .copy j => j.kind == .tileOut && j.ahead pa n
    | _ => false))

end Sys2Proof.Machine
end

