-- ==== Sys2Proof/Machine/Ops.lean ====
section
/-! DEFINITION. The operations every instruction shares: commits and region boundaries (05_wave.md R132 to R136), fault
records (08_context.md R213, R214), taking a trap and returning from one (R215, R216), and the frame in which a word
issues: the encoding checks and full/empty waits of 03_encoding.md R78, the effect, and the advance of the lanes. -/

namespace Sys2Proof.Machine

open Sys2Proof

/-! ### Traps and records -/

/-- A trap or fault with the fields of its record (R213, R214). -/
structure Trap where
  code : Nat
  lane : Nat := 0
  detail : Nat := 0
  addr : Nat := 0
  aux : Nat := 0
  stash : Bool := false
  guard : Bool := false
  write : Bool := false
  unbacked : Bool := false
  step : Nat := 0
  /-- The region runs again from its entries, without a record; what is behind the trap then raises it where it stands. -/
  restart : Bool := false
  /-- It is no fault: the access stalls for the ownership of this frame (13_page.md R286, R301). -/
  stall : Option Nat := none
  deriving DecidableEq, Repr

/-- Class H: a precise trap (R213). -/
def Trap.precise (t : Trap) : Bool := decide (t.code < 0x20)

/-- The trap of an address that does not resolve (R172, steps 3 and 4). -/
def AddrFault.trap (f : AddrFault) (lane addr : Nat) (write : Bool) : Trap :=
  match f with
  | .xlate u => { code := 0x22, lane := lane, addr := addr, write := write, unbacked := u, step := 3 }
  | .perm g => { code := 0x23, lane := lane, addr := addr, write := write, guard := g, step := 4 }
  | .unowned frame => { code := 0x22, lane := lane, addr := addr, write := write, step := 3, stall := some frame }

/-- The record of a trap of a wave at an instruction (R214). -/
def State.recordOf (s : State) (k : Nat) (pc word : DWord) (ext : Option DWord) (t : Trap) : Record :=
  let w := s.waveAt k
  let w0 := w.slot * 2 ^ 41 + t.code * 2 ^ 32 + t.lane * 2 ^ 27 + b2n t.stash * 2 ^ 26 + b2n t.guard * 2 ^ 25 +
    b2n t.write * 2 ^ 24 + b2n t.unbacked * 2 ^ 23 + b2n w.trapMode * 2 ^ 22 + t.step * 2 ^ 18 + t.detail % 65536
  [BitVec.ofNat 64 w0, pc, BitVec.ofNat 64 t.addr, BitVec.ofNat 64 t.aux,
   BitVec.ofNat 64 ((s.ctxAt w.ctx).agentOf w.core * 2 ^ 32 + w.regionCount.toNat), word, ext.getD 0,
   BitVec.ofNat 64 (if w.latency then s.latencyCycle else s.cycle)]

/-! ### Commits -/

/-- Splits the bytes of a held line into runs of successive offsets. -/
def byteRuns : List (Nat × Byte) → List (Nat × List Byte)
  | [] => []
  | (k, b) :: rest =>
    match byteRuns rest with
    | (j, bs) :: more => if j = k + 1 then (k, b :: bs) :: more else (k, [b]) :: (j, bs) :: more
    | [] => [(k, [b])]

/-- The byte at an offset of a held line was stored by a `st.rel`. -/
def HeldLine.released (h : HeldLine) (i : Nat) : Bool := h.sync.any (fun (o, n, _) => decide (o ≤ i) && decide (i < o + n))

/-- What stops the commit of a held line: its frame is no longer backed (01_package.md R22); or a synchronising access of another
party has come first, and its `st.rel`, when the region runs again, raises SCOPE_MISMATCH (07_consistency.md R184, R185). -/
def State.lineTrap (s : State) (k : Nat) (h : HeldLine) : Option Trap :=
  let w := s.waveAt k
  if h.remote.isSome then none
  else if !s.backed h.pa then
    some { code := 0x22, lane := h.lane, addr := h.va, write := true, unbacked := true, step := 3 }
  else match h.sync.head? with
    | none => none
    | some (_, _, sc) =>
      if (s.lineMetaAt h.pa).syncOk sc (s.node, (s.ctxAt w.ctx).agentOf w.core) then none
      else some { code := 7, lane := h.lane, addr := h.va, write := true, step := 5, restart := true }

/-- Performs bytes of a held line at its home (R135); SHADOW_FULL where its shutter refuses (19_shutter.md R417). -/
def State.writeRuns (s : State) (core : Nat) (h : HeldLine) (bytes : Cells Byte) : Except Trap State :=
  (byteRuns bytes).foldl (fun t r => match t with
    | .error e => .error e
    | .ok u => match u.coreStore core (h.pa + r.1) r.2 with
      | .error x => .error { code := 0x24, lane := h.lane, addr := h.va, aux := x % 2 ^ 24, write := true }
      | .ok v => .ok v) (.ok s)

/-- Posts a held line to its node (20_link.md R434). -/
def State.postLine (s : State) (k node : Nat) (h : HeldLine) : State :=
  let w := s.waveAt k
  let (s1, lost) := s.postWrite node w.ctx k 0 h.pa (.store h.bytes)
    (h.sync.getLast?.map (fun (_, _, sc) => (sc, (s.ctxAt w.ctx).agentOf w.core))) none h.lanes
  if lost then s1.noteLost k h.lanes else s1

/-- The plain part of a held line: the bytes that no `st.rel` stored. A remote line with a `st.rel` has none. -/
def State.commitPlain (s : State) (k : Nat) (h : HeldLine) : Except Trap State :=
  match s.lineTrap k h with
  | some t => .error t
  | none => match h.remote with
    | some node => .ok (if h.sync.isEmpty then s.postLine k node h else s)
    | none => (s.keepPast k h.pa 128).writeRuns (s.waveAt k).core h (h.bytes.filter (fun (i, _) => !h.released i))

/-- The bytes that a `st.rel` stored to a held line, and its record (07_consistency.md R183). -/
def State.commitReleased (s : State) (k : Nat) (h : HeldLine) : Except Trap State :=
  match h.sync.getLast? with
  | none => .ok s
  | some (_, _, sc) => match h.remote with
    | some node => .ok (s.postLine k node h)
    | none =>
      let w := s.waveAt k
      match (s.keepPast k h.pa 128).writeRuns w.core h (h.bytes.filter (fun (i, _) => h.released i)) with
      | .error t => .error t
      | .ok u => .ok (u.syncUpdate h.pa sc (u.node, (u.ctxAt w.ctx).agentOf w.core))

/-- Performs a part of held lines in order; stops at the first that cannot be. -/
def State.commitLines (s : State) (act : State → HeldLine → Except Trap State) : List HeldLine → State × Option Trap
  | [] => (s, none)
  | h :: hs =>
    match act s h with
    | .error t => (s, some t)
    | .ok t => State.commitLines t act hs

/-- commit_pending_lines (R135): a wave's held lines, in the order in which they were first held; the bytes of a `st.rel` come
after every other (07_consistency.md R194). -/
def State.commit (s : State) (k : Nat) : State × Option Trap :=
  let held := (s.waveAt k).held
  if held.isEmpty then (s, none)
  else match (s.modWave k (fun w => { w with held := [] })).commitLines (fun t h => t.commitPlain k h) held with
    | (t, some f) => (t, some f)
    | (t, none) => t.commitLines (fun u h => u.commitReleased k h) held

/-! ### Taking traps and faults -/

/-- The keys of the producers that ended waits leave full (R215, R273). -/
def Wave.endWaits (w : Wave) : Wave :=
  let keys := w.waits.filterMap (fun x => match x.obj with
    | .mask _ => none
    | _ => some x.sd)
  { (w.mark [] keys false) with waits := [] }

/-- The arrivals that a trap entry leaves standing (R215): of a barw its token with the arrival's status, of an sstep its
step. -/
def LaneWait.kept (x : LaneWait) : Option Kept :=
  match x.obj with
  | .barrier e g phase true st => some { pc := x.pc, token := some (st * 2 ^ 56 + phase * 65536 + barrierRef g e) }
  | .superstep g k true => some { pc := x.pc, token := none, group := g, stepNo := k }
  | _ => none

/-- A fetch or access of context 0 that nothing maps while CTX_TRAP_PC is 0: a fatal fault (22_platform.md R453, log 75). -/
def State.bootFault (s : State) (k : Nat) (r : Record) : Bool :=
  let c := (s.waveAt k).ctx
  let code := bitsOf (r.headD 0).toNat 39 32
  c == 0 && (s.ctxAt c).trapPc.toNat / 8 == 0 && (code == 0x20 || code == 0x22)

/-- abort_region of R136 and the record of its fault: the wave is SUSPENDED, or stays HALTED with the record pending
(R220). In trap mode no region is aborted and the faulting instruction is the resume point (R215); on a latency core the
thread restarts at the faulting instruction (R119), and the producers before it that are in flight are cancelled with those of a
region (R73, log 76). -/
def State.abortRegion (s : State) (k : Nat) (r : Record) : State :=
  if s.bootFault k r then s.fatal k r (bitsOf (r.headD 0).toNat 39 32) else
  let w0 := s.waveAt k
  let s1 := if w0.trapMode then s else s.cancelFills k
  let s2 := s1.modWave k (fun w =>
    let u := if w.trapMode then w
      else if w.latency then { w.endWaits with held := [], starve := [] }
      else
        let v := w.endWaits.setPcs (laneList w.m0) (fun l => Cells.get 0 w.entries l)
        { v with held := [], starve := [] }
    { u with life := if u.life = .halted then .halted else .suspended
             hold := none
             faultCode := bitsOf (r.headD 0).toNat 39 32
             pendingTrap := none
             pendingRec := if u.life = .halted then some r else u.pendingRec })
  if w0.life = .halted then s2 else s2.queueRecord w0.ctx r

/-- The region of a wave runs again from its entries (R136) without a record; the wave is ready at once. -/
def State.restartRegion (s : State) (k : Nat) : State :=
  (s.cancelFills k).modWave k (fun w =>
    let v := w.endWaits.setPcs (laneList w.m0) (fun l => Cells.get 0 w.entries l)
    { v with held := [], starve := [], blocked := none, reasons := [] })

/-- take_trap of R215: commits, records, and enters the handler in trap mode; without a handler, or in trap mode, the
trap is fatal (R202). -/
def State.enterTrap (s : State) (k : Nat) (h : HeldTrap) (r : Record) : State :=
  let w := s.waveAt k
  let x := s.ctxAt w.ctx
  if w.trapMode || x.trapPc.toNat / 8 == 0 then s.fatal k r h.code
  else match s.commit k with
    | (s1, some f) => if f.restart then s1.restartRegion k else s1.abortRegion k (s1.recordOf k h.pc h.word h.ext f)
    | (s1, none) =>
      s1.modWave k (fun u =>
        let waitPc (l : Nat) : Option DWord := (u.waits.find? (fun y => y.lanes.getLsbD l)).map (·.pc)
        let back (l : Nat) : DWord := if h.lanes.getLsbD l then h.resume else (waitPc l).getD (u.pcOf l)
        let live := laneList u.m0
        let v := u.endWaits
        let v1 := { v with resumes := live.foldl (fun m l => Cells.set 0 m l (back l)) v.resumes
                           kept := v.kept ++ u.waits.filterMap LaneWait.kept
                           trapRec := r, trapMode := true, regionCount := v.regionCount + 1, starve := [] }
        v1.setPcs live (fun _ => BitVec.ofNat 64 (x.trapPc.toNat / 8 * 8)))

/-- A trap of class H: it is taken, or, on a wave that a halt has reached, it stands with its record until the wave is released
(R220). `lanes` is the trapping group and `resume` its resume address. -/
def State.takeTrap (s : State) (k : Nat) (lanes : Word) (resume pc word : DWord) (ext : Option DWord) (t : Trap) : State :=
  let r := s.recordOf k pc word ext t
  let h : HeldTrap := { lanes := lanes, resume := resume, pc := pc, word := word, ext := ext, code := t.code }
  if (s.waveAt k).life = .halted then s.modWave k (fun u => { u with pendingRec := some r, pendingTrap := some h })
  else s.enterTrap k h r

/-- The return of tret (R138, R216): every live lane resumes at its resume address, which becomes its entry. -/
def State.returnFromTrap (s : State) (k : Nat) : State :=
  s.modWave k (fun u =>
    let w := u.endWaits
    let live := laneList w.m0
    let f (l : Nat) : DWord := Cells.get 0 w.resumes l
    { ((w.setPcs live f).setEntries live f) with trapMode := false })

/-- The words of the instruction in issue. -/
def State.issueWords (s : State) : DWord × Option DWord :=
  match s.cur with
  | none => (0, none)
  | some i => (i.word, i.ext)

/-- The words of the instruction at an address, as a record names them. -/
def State.wordsAt (s : State) (k : Nat) (pc : DWord) : DWord × Option DWord :=
  let w := s.waveAt k
  let at' (va : DWord) : Option DWord := match s.fetchPlace w.ctx w.core va.toNat with
    | .ok pa => some (BitVec.ofNat 64 (s.peekNat pa 8))
    | .error _ => none
  match at' pc with
  | none => (0, none)
  | some a => (a, if wordSize a = 8 then none else at' (pc + 8))

/-- A restartable fault that reaches a wave while it issues nothing. -/
def State.asyncFault (s : State) (k : Nat) (pc : DWord) (t : Trap) : State :=
  let (word, ext) := s.wordsAt k pc
  s.abortRegion k (s.recordOf k pc word ext t)

/-- Raises a trap or fault at the issuing instruction. -/
def State.raise (s : State) (e : Env) (t : Trap) : State :=
  let (word, ext) := s.issueWords
  let s1 := { s with last := .trapped }
  if t.restart then s1.restartRegion e.key
  else if t.precise then
    let resume := if t.code = 0x0E ∨ t.code = 0x0F then e.pc + BitVec.ofNat 64 e.size else e.pc
    s1.takeTrap e.key e.lanes resume e.pc word ext t
  else s1.abortRegion e.key (s1.recordOf e.key e.pc word ext t)

/-! ### Issuing, waiting, advancing -/

/-- The instruction waits: nothing of it is performed (R72, R140). -/
def State.block (s : State) (e : Env) (r : BlockReason) : State :=
  ({ s with last := .blocked } : State).modWave e.key (fun w => { w with blocked := some r })

/-- The instruction has issued: lanes of the group that wait on nothing go to the next instruction, the starvation counts
of the group return to 0 (R122), and the waits at masks are looked at again (R128). -/
def State.advance (s : State) (e : Env) : State :=
  ({ s with last := .issued } : State).modWave e.key (fun w =>
    let go := laneList (e.lanes &&& ~~~ w.waiting)
    let v := w.setPcs go (fun _ => e.pc + BitVec.ofNat 64 e.size)
    { v with starve := (laneList e.lanes).foldl (fun m l => Cells.del m l) v.starve, blocked := none }.settleMasks)

/-- An access that stalls for the ownership of a frame (06_memory_access.md R147). -/
structure Stall where
  frame : Nat
  lane : Nat := 0
  addr : Nat := 0
  write : Bool := false
  stash : Bool := false
  deriving DecidableEq, Repr

/-- What the checks of an instruction find. -/
inductive Check where
  | ok
  /-- It waits; shared frames that it needs are asked for (13_page.md R301). -/
  | wait (r : BlockReason) (stalls : List Stall)
  | trap (t : Trap)
  deriving DecidableEq, Repr

/-- A trap that is a stall is a wait for its frame. -/
def Check.ofTrap (t : Trap) : Check :=
  match t.stall with
  | none => .trap t
  | some f => .wait .ownership [{ frame := f, lane := t.lane, addr := t.addr, write := t.write, stash := t.stash }]

/-- Asks for the ownership of frames. -/
def State.requestFrames (s : State) (fs : List Stall) : State :=
  fs.foldl (fun t x => t.requestOwnership x.frame) s

/-- The accesses to a wave's held lines whose frames another package owns. -/
def State.heldUnowned (s : State) (k : Nat) : List Stall :=
  ((s.waveAt k).held.filter (fun h => h.remote.isNone && s.unowned h.pa)).map (fun h =>
    { frame := h.pa / 65536, lane := h.lane, addr := h.va, write := true })

/-- The hand-over that an access stalls for has run out of its time (13_page.md R302). -/
def State.stallOver (s : State) (x : Stall) : Bool :=
  match Cells.find s.place x.frame with
  | none => false
  | some e => e.timedOut

/-- OWN_TIMEOUT at an access: AUX is the owning node (08_context.md R213). -/
def State.stallTrap (s : State) (x : Stall) : Trap :=
  let owner := match Cells.find s.place x.frame with
    | none => 0
    | some e => (Cells.get {} s.ownTable e.dframe).owner
  { code := 0x25, lane := x.lane, addr := x.addr, aux := owner, write := x.write, stash := x.stash, step := 6 }

/-- The access that has raised OWN_TIMEOUT no longer stalls; one that stalls later has 2 ms of its own (R302). -/
def State.endStall (s : State) (x : Stall) : State :=
  { s with place := Cells.modify s.place x.frame (fun e => { e with timedOut := false }) }

/-- The first stalled access whose time has run out. -/
def State.overdue (s : State) (xs : List Stall) : Option Stall := xs.find? s.stallOver

/-- The instruction waits; the frames it stalls for are asked for, and one whose time has run out raises OWN_TIMEOUT. -/
def State.hold (s : State) (e : Env) (r : BlockReason) (xs : List Stall) : State :=
  match s.overdue xs with
  | some x => (s.endStall x).raise e (s.stallTrap x)
  | none => (s.requestFrames xs).block e r

/-- The beginning of a region boundary (R132): the commit, the region-entry counter, and, in normal mode, the entries of
the active lanes at the instruction itself. -/
def State.openBoundary (s : State) (e : Env) : State × Option Trap :=
  match s.commit e.key with
  | (s1, some f) => (s1, some f)
  | (s1, none) =>
    (s1.modWave e.key (fun w =>
      let u := { w with regionCount := w.regionCount + 1 }
      if w.trapMode then u else u.setEntries (laneList e.act) (fun _ => e.pc)), none)

/-- The end of a region boundary: the entries of the active lanes move behind the instruction. -/
def State.closeBoundary (s : State) (e : Env) : State :=
  s.modWave e.key (fun w =>
    if w.trapMode then w else w.setEntries (laneList e.act) (fun _ => e.pc + BitVec.ofNat 64 e.size))

/-- The instruction in issue still waits for a reply of another package or for a signal: a restartable fault restarts it. -/
def Wave.restartsAt (w : Wave) : Bool :=
  w.waits.any LaneWait.wholeWave || (match w.hold with
    | some (.reply _ _ _ b) => b
    | _ => false)

/-- Where a boundary instruction has issued and may still fault, the entries of its lanes stand at itself. -/
def State.reopen (s : State) (e : Env) : State :=
  s.modWave e.key (fun w =>
    if s.last = .issued ∧ !w.trapMode ∧ w.restartsAt then w.setEntries (laneList e.act) (fun _ => e.pc) else w)

/-- Performs an instruction that is an implicit region boundary (R132). Its own checks are made on the state behind the
commit. A precise trap or a wait leaves the boundary undone (the trap entry commits in its turn, R138); a restartable
fault restarts at the instruction itself. -/
def State.atBoundary (s : State) (e : Env) (check : State → Check) (act : State → State) : State :=
  let missing := s.heldUnowned e.key
  if !missing.isEmpty then s.hold e .ownership missing
  else match s.openBoundary e with
    | (s1, some f) => s1.raise e f
    | (s1, none) =>
      match check s1 with
      | .wait r xs => match s1.overdue xs with
        | some _ => s1.hold e r xs
        | none => s.hold e r xs
      | .trap t => if t.precise then s.raise e t else s1.raise e t
      | .ok => ((act s1).closeBoundary e).advance e

/-- Performs an instruction that is no region boundary, after its own checks. -/
def State.checked (s : State) (e : Env) (check : Check) (act : State → State) : State :=
  match check with
  | .wait r xs => s.hold e r xs
  | .trap t => s.raise e t
  | .ok => (act s).advance e

/-- The first check that does not pass decides. -/
def Check.both (a : Check) (b : Unit → Check) : Check :=
  match a with
  | .ok => b ()
  | _ => a

/-- A trap where a condition holds. -/
def Check.trapIf (p : Bool) (t : Trap) : Check := if p then .trap t else .ok

/-- A wait where a condition holds. -/
def Check.waitIf (p : Bool) (r : BlockReason) : Check := if p then .wait r [] else .ok

/-- The group in issue, with the active lanes of a guard (R50). -/
def State.envOf (s : State) (f : FWord) : Option Env :=
  match s.cur with
  | none => none
  | some i =>
    match Cells.find s.waves i.wave with
    | none => none
    | some w =>
      let e : Env := { key := i.wave, pc := i.pc, size := if f.ext.isSome then 16 else 8, lanes := i.lanes, act := 0, f := f }
      let act := (laneList (i.lanes &&& w.m0)).filter (fun l => s.pred e f.g.toNat l != f.gn)
      some { e with act := maskOf act }

/-- What the encoding checks read of the issuing wave. -/
def State.encEnv (s : State) (k : Nat) : EncEnv :=
  let w := s.waveAt k
  { latency := w.latency, system := (s.ctxAt w.ctx).sys, nv := w.nv }

/-- The fields of a word with their operands: number, operand, field, trapping mode. -/
def OpSpec.fields (p : OpSpec) (f : FWord) : List (Nat × Operand × Field × Bool) :=
  [(0, p.fa, f.fa, f.ea), (1, p.fb, f.fb, f.eb), (2, p.fc, f.fc, f.ec), (3, p.fd, f.fd, false)]

/-- Step 6 of R78: a trapping source that is empty in an active lane raises REG_EMPTY; any other empty source or
destination makes the instruction wait. A register named in two fields is read in trapping mode if either selects it,
and the field that selects it is the one reported. -/
def State.emptyCheck (s : State) (p : OpSpec) (e : Env) : Check :=
  let w := s.turnWave e
  match (p.fields e.f).find? (fun (_, o, fld, t) => t && w.anyEmpty (o.regs fld) e.act) with
  | some (n, o, fld, _) =>
    .trap { code := 3, lane := w.emptyLane (o.regs fld) e.act, detail := n, aux := fld.toNat }
  | none =>
    if (p.fields e.f).any (fun (_, o, fld, _) => w.anyEmpty (o.regs fld) e.act) then .wait .register [] else .ok

/-- Issues a word of form F or X: the encoding checks of steps 3 to 5 of R78, step 6 as `empty` says, and, where some lane
is active, the body. With no active lane the word has no effect (R50). -/
def runWordWith (p : OpSpec) (empty : Env → State → Check) (f : FWord) (s : State) (body : Env → State → State) :
    Host.Outcome State Fault Refusal :=
  match s.envOf f with
  | none => .fault .noIssuingWave
  | some e =>
    match p.trap (s.encEnv e.key) f with
    | some code => .next (s.raise e { code := code })
    | none =>
      match if e.act = 0 then .ok else empty e s with
      | .trap t => .next (s.raise e t)
      | .wait r _ => .next (s.block e r)
      | .ok => .next (if e.act = 0 then s.advance e else body e s)

/-- As `runWordWith`, where every register operand is read and written in the active lanes (R71). -/
def runWord (p : OpSpec) (f : FWord) (s : State) (body : Env → State → State) :
    Host.Outcome State Fault Refusal :=
  runWordWith p (fun e t => t.emptyCheck p e) f s body

/-- As `runWord`, for an instruction whose body only changes the state and whose lanes then go on. -/
def runPlain (p : OpSpec) (f : FWord) (s : State) (body : Env → State → State) :
    Host.Outcome State Fault Refusal :=
  runWord p f s (fun e t => (body e t).advance e)

/-! ### Counters of engine classes -/

/-- The counter of an engine class (07_consistency.md R190). -/
def Wave.counter (w : Wave) (cls : Nat) : Nat := Cells.get 0 w.counters cls

/-- Issues an engine operation: its counter rises (R190), and its event is owed. -/
def State.issueOp (s : State) (e : Env) (cls : Option Nat) (kind : OpKind) : State :=
  let (id, s1) := s.fresh
  let w := s1.waveAt e.key
  let o : EngineOp := { wave := e.key, block := w.block, core := w.core, cls := cls, kind := kind, arrival := some id }
  let s2 : State := { s1 with ops := Cells.put s1.ops id o }
  let s3 := match cls with
    | none => s2
    | some c => s2.modWave e.key (fun u => { u with counters := Cells.set 0 u.counters c (u.counter c + 1) })
  match o.event id with
  | none => s3
  | some i => s3.post i

/-- A counted instruction that finds its counter at 63 waits (R190). -/
def State.counterFull (s : State) (e : Env) (cls : Nat) : Check :=
  .waitIf (decide (63 ≤ (s.waveAt e.key).counter cls)) .counter

/-- An operation has ended: each class of a wave retires in issue order, so it retires with the ended operations that
stand before it (R190). -/
def State.endOp (s : State) (id : Nat) : State :=
  ({ s with ops := Cells.modify s.ops id (fun o => { o with done := true, stuck := false, starves := none }) } : State).post
    (.engineOpRetire id)

end Sys2Proof.Machine
end

