-- ==== Sys2Proof/Machine/Flags.lean ====
section
/-! DEFINITION. What an instruction computes beside its result and how a result is narrowed: the machine keeps its
conditions in predicates, so the flag computations are the comparison conditions (04_compute_instructions.md R96), carry
and borrow (R92), saturation (R89), and the rounding mode of a word (02_numbers.md R33). -/

namespace Sys2Proof.Machine

open Sys2Proof

/-! ### Integer results -/

/-- The number that a value of an integer type stands for: signed for I, natural otherwise. -/
def intOf (ty x : Nat) : Int := if typeSigned ty then signedOf (typeWidth ty) x else ((x % 2 ^ typeWidth ty : Nat) : Int)

/-- The smallest number of an integer type. -/
def typeMin (ty : Nat) : Int := if typeSigned ty then -((2 ^ (typeWidth ty - 1) : Nat) : Int) else 0

/-- The largest number of an integer type. -/
def typeMax (ty : Nat) : Int :=
  if typeSigned ty then ((2 ^ (typeWidth ty - 1) : Nat) : Int) - 1 else ((2 ^ typeWidth ty : Nat) : Int) - 1

/-- sat(x) of R89, as bits of the type. -/
def saturate (ty : Nat) (x : Int) : Nat :=
  wrapI (typeWidth ty) (if x < typeMin ty then typeMin ty else if typeMax ty < x then typeMax ty else x)

/-- The result of R89: saturated under .sat, else wrapped. -/
def narrow (ty : Nat) (sat : Bool) (x : Int) : Nat := if sat then saturate ty x else wrapI (typeWidth ty) x

/-! ### Conditions -/

/-- The conditions of cmp (R96). -/
def cmpTrue (cond : Nat) (x y : Int) : Bool :=
  match cond with
  | 0 => decide (x = y)
  | 1 => decide (x ≠ y)
  | 2 => decide (x < y)
  | 3 => decide (x ≤ y)
  | 4 => decide (y < x)
  | _ => decide (y ≤ x)

/-- The carry out of addc (R92). -/
def carryOut (w : Nat) (x : Int) : Bool := decide (((2 ^ w : Nat) : Int) ≤ x)

/-- The borrow out of subb (R92). -/
def borrowOut (x : Int) : Bool := decide (x < 0)

/-! ### Floating-point controls -/

/-- The context of the issuing wave. -/
def State.ctxOf (s : State) (e : Env) : Context := s.ctxAt (s.waveAt e.key).ctx

/-- FTZ of the issuing wave's context (R35). -/
def State.ftz (s : State) (e : Env) : Bool := bitOf (s.ctxOf e).fpCtl.toNat 0

/-- The mode of a rounding code (R33); `draw` is the value that code 0b100 draws. -/
def rndOf (rmode code draw : Nat) : Rnd :=
  match code with
  | 0 => .rne
  | 1 => .rtz
  | 2 => .rup
  | 3 => .rdn
  | 4 => .sr draw
  | _ => match rmode with
    | 0 => .rne
    | 1 => .rtz
    | 2 => .rup
    | _ => .rdn

/-- The mode of a rounding code in the context of the issuing wave. -/
def State.roundMode (s : State) (e : Env) (code draw : Nat) : Rnd :=
  rndOf (bitsOf (s.ctxOf e).fpCtl.toNat 2 1) code draw

/-- The key of a lane's stochastic generator (R42). -/
def State.srKeyOf (s : State) (k lane : Nat) : Nat :=
  let w := s.waveAt k
  let index := match w.block with
    | none => 0
    | some b => match Cells.find s.blocks b with
      | none => 0
      | some blk => blk.index
  srKey (s.ctxAt w.ctx).srSeed.toNat index w.wib (if w.latency then 0 else lane)

/-- A lane's conversion counter (R42). -/
def State.convOf (s : State) (k lane : Nat) : Nat := (Cells.get 0 (s.waveAt k).conv lane).toNat

/-- Raises a lane's conversion counter, which wraps (R42). -/
def State.convAdd (s : State) (k lane n : Nat) : State :=
  s.modWave k (fun w => { w with conv := Cells.set 0 w.conv lane (Cells.get 0 w.conv lane + BitVec.ofNat 32 n) })

/-! ### Words that compute a value per lane -/

/-- Writes a value to the destination of every result lane (R51). -/
def State.writeLanes (s : State) (e : Env) (ty : Nat) (val : Nat → Nat) : State :=
  e.resultLanes.foldl (fun t l => t.write e ty e.f.fd l (val l)) s

/-- A word whose effect is a value of a type in each result lane. -/
def runLanes (p : OpSpec) (f : FWord) (s : State) (ty : Nat) (val : State → Env → Nat → Nat) :
    Host.Outcome State Fault Refusal :=
  runPlain p f s (fun e t => t.writeLanes e ty (val t e))

/-- A word whose effect is a predicate in each active lane. -/
def runPreds (p : OpSpec) (f : FWord) (s : State) (val : State → Env → Nat → Bool) :
    Host.Outcome State Fault Refusal :=
  runPlain p f s (fun e t => (laneList e.act).foldl (fun u l => u.setPred e f.fd.toNat l (val t e l)) t)

end Sys2Proof.Machine
end

