-- ==== Sys2Proof/Machine/Access.lean ====
section
/-! DEFINITION. Data accesses: the checks of 06_memory_access.md R172, what a load finds (R159, 14_coherence.md R311), held
and performed stores (05_wave.md R133 to R135), stash addresses and mapped tiles (R148 to R152), and accesses to other
packages (20_link.md R434, R436). -/

namespace Sys2Proof.Machine

open Sys2Proof

/-! ### Checks over lanes -/

/-- A step of R172: the lowest lane that fails it decides. -/
def Check.lanes (ls : List Nat) (f : Nat → Option Trap) : Check :=
  match ls.findSome? f with
  | some t => .ofTrap t
  | none => .ok

/-- The core and context of a wave. -/
def State.seat (s : State) (k : Nat) : Nat × Nat := ((s.waveAt k).ctx, (s.waveAt k).core)

/-- The place of a global address for a wave. -/
def State.placeOf (s : State) (k va len : Nat) : Except AddrFault Place :=
  let (c, core) := s.seat k
  s.translate c core va len

/-- The state of the node link of a remote place. -/
def State.linkOf (s : State) (p : Place) : Option NodeState := p.remote.map (fun n => (s.nodeAt n).st)

/-- What a global access of an instruction is. -/
structure AccessKind where
  need : Need
  /-- Bytes of each lane's access; its address is a multiple of `align`. -/
  len : Nat
  align : Nat
  /-- The scope of a synchronising access. -/
  sync : Option Nat := none
  /-- It returns a value to the issuer (20_link.md R436). -/
  replies : Bool := true
  deriving DecidableEq, Repr

/-- Steps 1 and 3 to 6 of R172 for the active lanes of a global access. -/
def State.globalCheck (s : State) (k : Nat) (lanes : List Nat) (ea : Nat → Nat) (a : AccessKind) : Check :=
  let w := s.waveAt k
  let place (l : Nat) : Except AddrFault Place := s.placeOf k (ea l) a.len
  let party : Nat × Nat := (s.node, (s.ctxAt w.ctx).agentOf w.core)
  (Check.lanes lanes (fun l =>
    if ea l % a.align ≠ 0 then some { code := 4, lane := l, addr := ea l, write := a.need.write, step := 1 } else none)).both
  fun _ => (Check.lanes lanes (fun l => match place l with
    | .error f => some (f.trap l (ea l) a.need.write)
    | .ok p => match s.linkOf p with
      | some .down => if a.replies then some ((AddrFault.xlate false).trap l (ea l) a.need.write) else none
      | some .fenced => if a.replies then some ((AddrFault.xlate false).trap l (ea l) a.need.write) else none
      | _ => none)).both
  fun _ => (Check.lanes lanes (fun l => match place l with
    | .error _ => none
    | .ok p => match s.permitted w.ctx a.need p with
      | .error f => some (f.trap l (ea l) a.need.write)
      | .ok _ => match p.remote with
        | some n => if a.replies && s.sessionRefused w.ctx n then
            some ((AddrFault.perm true).trap l (ea l) a.need.write) else none
        | none => none)).both
  fun _ => (Check.lanes lanes (fun l => match place l, a.sync with
    | .ok p, some sc =>
      let m := s.lineMetaAt p.pa
      if p.remote.isNone && !m.syncOk sc party then
        some { code := 7, lane := l, detail := sc, addr := ea l, aux := m.record, write := a.need.write, step := 5 }
      else none
    | _, _ => none)).both
  fun _ =>
    let places := lanes.filterMap (fun l => (place l).toOption)
    let missing : List Stall := lanes.filterMap (fun l => match place l with
      | .error _ => none
      | .ok p => if p.remote.isNone && s.unowned p.pa then
          some { frame := p.pa / 65536, lane := l, addr := ea l, write := a.need.write } else none)
    let waits (p : Place) : Bool := match s.linkOf p with
      | some .training => a.replies
      | some .retraining => a.replies
      | _ => false
    if !missing.isEmpty then .wait .ownership missing
    else if places.any waits then .wait .link []
    else .waitIf (a.need.read && places.any (fun p => p.remote.isNone && s.outAhead k p.pa a.len)) .engine

/-- The translations of the lanes enter the TLBs. -/
def State.touch (s : State) (k : Nat) (lanes : List Nat) (ea : Nat → Nat) : State :=
  let (c, core) := s.seat k
  lanes.foldl (fun t l => t.tlbFill c core (ea l)) s

/-- The place of a lane whose access has passed its checks. -/
def State.place! (s : State) (k va len : Nat) : Place :=
  match s.placeOf k va len with
  | .ok p => p
  | .error _ => ⟨0, none, 0⟩

/-! ### What a load finds -/

/-- The bytes a wave holds over a line. -/
def Wave.heldOver (w : Wave) (remote : Option Nat) (pa : Nat) : Cells Byte :=
  match w.held.find? (fun h => h.pa == pa / 128 * 128 && h.remote == remote) with
  | none => []
  | some h => h.bytes

/-- Lays held bytes over bytes that begin at an offset of their line. -/
def overlay (held : Cells Byte) (off : Nat) (bs : List Byte) : List Byte :=
  bs.zipIdx.map (fun (b, i) => (Cells.find held (off + i)).getD b)

/-- The bytes a core's load finds at its L0 or beyond it: an L0 copy, a copy of its cluster that a No Snoop write left
behind, or the coherent value (R311, R166). -/
def State.coreRead (s : State) (core pa len : Nat) : List Byte :=
  let off := pa % 128
  match s.l0Find core (pa / 128) with
  | some x => (x.bytes.drop off).take len
  | none => match s.stale.find? (fun x => x.agent == clusterOf core && x.line == pa / 128) with
    | some x => (x.bytes.drop off).take len
    | none => s.peek pa len

/-- A load's line enters L0 and the cluster's cache, where it misses (R311, R312). -/
def State.loadLine (s : State) (core pa : Nat) (ro : Option Nat) (stream : Bool) : State :=
  if (s.l0Find core (pa / 128)).isSome then s
  else
    let s1 := (s.restoreLine pa).cacheLoad (clusterOf core) pa stream
    let s2 := s1.l0Fill core (pa / 128) ro stream
    match s1.stale.find? (fun x => x.agent == clusterOf core && x.line == pa / 128) with
    | none => s2
    | some x => { s2 with l0 := s2.l0.map (fun y =>
        if y.core == core && y.line == x.line then { y with bytes := x.bytes } else y) }

/-- Enters a performed synchronising access of a wave into the record of its line (07_consistency.md R184). -/
def State.synced (s : State) (k pa : Nat) (sync : Option Nat) : State :=
  match sync with
  | none => s
  | some sc =>
    let w := s.waveAt k
    s.syncUpdate pa sc (s.node, (s.ctxAt w.ctx).agentOf w.core)

/-- An acquire, as the issuing core's L0 sees it. R311 names the scopes from .cluster on; at .core the lines leave as well, which a
cache may do at any time, so that causality holds whatever the scopes of a chain are (07_consistency.md R176, R179, log 67). -/
def State.acquire (s : State) (core _scope : Nat) : State := s.l0Acquire core

/-! ### Results in registers -/

/-- The words that an element's bits give a v register group: extended under R27, a 64-bit one as two words. -/
def elementWords (ty x : Nat) : List Word :=
  if typeWidth ty = 64 then [BitVec.ofNat 32 x, BitVec.ofNat 32 (x / 2 ^ 32)] else [extend32 ty x]

/-- The values of `n` elements of a type in bytes. -/
def elementsOf (ty : Nat) : Nat → List Byte → List Nat
  | 0, _ => []
  | n + 1, bs => ofBytes (bs.take (typeWidth ty / 8)) :: elementsOf ty n (bs.drop (typeWidth ty / 8))

/-- What a lane's bytes write: v keys with words, or an s place with its value. -/
def destValues (e : Env) (trap : Bool) (ty cnt lane : Nat) (bs : List Byte) : List (Nat × Word) × List (Nat × DWord) :=
  match srcOf e.f.fd with
  | .v n => ((((elementsOf ty cnt bs).flatMap (elementWords ty)).zipIdx.map (fun (x, i) => ((n + i) * 32 + lane, x))), [])
  | .s n => ([], [(sIndex trap n, extend64 ty (ofBytes bs))])
  | _ => ([], [])

/-- Writes values at fixed latency. -/
def State.writeNow (s : State) (k : Nat) (vs : List (Nat × Word)) (ss : List (Nat × DWord)) : State :=
  s.modWave k (fun w =>
    let w1 := vs.foldl (fun (u : Wave) (i, x) => u.setV (i / 32) (i % 32) x) w
    ss.foldl (fun (u : Wave) (i, x) => u.setSAt i x) w1)

/-- The v keys, low register first, or the place of the s register that a lane's result of `cnt` elements goes to. -/
def Env.readKeys (e : Env) (trap : Bool) (ty cnt lane : Nat) : List Nat × Option Nat :=
  match srcOf e.f.fd with
  | .v n => ((List.range (cnt * (if typeWidth ty = 64 then 2 else 1))).map (fun i => (n + i) * 32 + lane), none)
  | .s n => ([], some (sIndex trap n))
  | _ => ([], none)

/-- A request to another package for a lane (20_link.md R436), whose reply fills `fill`. -/
def State.requestRemote (s : State) (e : Env) (fill lane va ty cnt : Nat) (p : Place) (op : FabricOp)
    (sync : Option Nat) (kept : Cells Byte) : State :=
  let (id, s1) := s.fresh
  let w := s1.waveAt e.key
  let x := s1.ctxAt w.ctx
  let node := p.remote.getD 0
  let keys := e.readKeys w.trapMode ty cnt lane
  let wait : FabricWait :=
    { node := node, addr := p.pa, wave := e.key, fill := fill, lane := lane, pc := e.pc, vs := keys.1, ss := keys.2,
      ty := ty, scope := sync.getD 7, heldBytes := kept, getLine := none, va := va,
      write := match op with
        | .load _ => false
        | _ => true }
  { s1 with fabricWaits := Cells.put s1.fabricWaits id wait }.transmit node
    (.fabricRequest node id x.tag p.pa op (sync.map (fun sc => (sc, x.agentOf w.core))))

/-! ### Stores -/

/-- Holds bytes of a line as region-pending (R133). -/
def State.holdBytes (s : State) (k lane va : Nat) (p : Place) (bs : List Byte) (sync : Option (Nat × Nat × Nat)) : State :=
  let line := p.pa / 128 * 128
  let cells := bs.zipIdx.foldl (fun (m : Cells Byte) (b, i) => Cells.put m (p.pa % 128 + i) b)
  s.modWave k (fun w =>
    if w.held.any (fun h => h.pa == line && h.remote == p.remote) then
      { w with held := w.held.map (fun h =>
          if h.pa == line && h.remote == p.remote then
            { h with bytes := cells h.bytes
                     lane := Nat.min h.lane lane
                     lanes := h.lanes ||| maskOf [lane]
                     va := if lane < h.lane then va else h.va
                     sync := h.sync ++ sync.toList }
          else h) }
    else { w with held := w.held ++ [{ va := va, pa := line, remote := p.remote, bytes := cells [], lane := lane,
                                       lanes := maskOf [lane], sync := sync.toList }] })

/-- Lines that a wave would newly hold, in the order in which its lanes bring them: lane, address, line, node (R134). -/
def State.newLines (s : State) (k : Nat) (lanes : List Nat) (ea : Nat → Nat) (len : Nat) :
    List (Nat × Nat × Nat × Option Nat) :=
  let w := s.waveAt k
  lanes.foldl (fun acc l =>
    let p := s.place! k (ea l) len
    let line := p.pa / 128 * 128
    if w.held.any (fun h => h.pa == line && h.remote == p.remote) ||
        acc.any (fun x => x.2.2.1 == line && x.2.2.2 == p.remote) then acc
    else acc ++ [(l, ea l, line, p.remote)]) []

/-- The pending lines of a core's L0. -/
def State.pendingLines (s : State) (core : Nat) : Nat :=
  s.waves.foldl (fun n (_, w) => if w.core = core then n + w.held.length else n) 0

/-- A store is held: in normal mode on a Bricor core (R119, R133). -/
def Wave.holds (w : Wave) : Bool := !w.latency && !w.trapMode

/-- The limits of R134: at most 16 lines a wave, at most 384 a core. -/
def State.holdCheck (s : State) (k : Nat) (lanes : List Nat) (ea : Nat → Nat) (len : Nat) : Check :=
  let w := s.waveAt k
  if !w.holds then .ok
  else
    let new := s.newLines k lanes ea len
    match new[16 - w.held.length]? with
    | some (l, a, _, _) => .trap { code := 6, lane := l, addr := a / 128 * 128, write := true }
    | none => .waitIf (decide (0 < new.length) && decide (384 < s.pendingLines w.core + new.length)) .shadowOrLine

/-- Performs a store of a wave at once, or posts it to its node (R135, R434); or the reference of the shutter that
refuses it. -/
def State.storeNow (s : State) (k lane : Nat) (p : Place) (bs : List Byte) (sync : Option Nat) : Except Nat State :=
  let w := s.waveAt k
  match p.remote with
  | some node =>
    let (s1, lost) := s.postWrite node w.ctx k 0 (p.pa / 128 * 128)
      (.store (bs.zipIdx.map (fun (b, i) => (p.pa % 128 + i, b))))
      (sync.map (fun sc => (sc, (s.ctxAt w.ctx).agentOf w.core))) none (maskOf [lane])
    .ok (if lost then s1.noteLost k (maskOf [lane]) else s1)
  | none => match (s.keepPast k p.pa bs.length).coreStore w.core p.pa bs with
    | .error r => .error r
    | .ok u => .ok (u.synced k p.pa sync)

/-- The stores of lanes to their places, in rising lane order: held, or performed at once. -/
def State.storeLanes (s : State) (k len : Nat) (ea : Nat → Nat) (place : Nat → Place) (data : Nat → List Byte) (sync : Option Nat) :
    List Nat → State × Option Trap
  | [] => (s, none)
  | l :: ls =>
    let p := place l
    if (s.waveAt k).holds then
      State.storeLanes (s.holdBytes k l (ea l) p (data l) (sync.map (fun sc => (p.pa % 128, len, sc)))) k len ea place data sync ls
    else match s.storeNow k l p (data l) sync with
      | .error r => (s, some { code := 0x24, lane := l, addr := ea l, aux := r % 2 ^ 24, write := true })
      | .ok t => State.storeLanes t k len ea place data sync ls

/-! ### Stash addresses -/

/-- A span of a block's stash allocation: the block, the byte offset, and whether it lies on another core. -/
structure StashSpot where
  block : Nat
  off : Nat
  far : Bool
  deriving DecidableEq, Repr

/-- The block whose allocation a HOP names (R148). -/
def State.hopBlock (s : State) (b hop : Nat) : Option Nat :=
  if hop = 0 then some b
  else if !s.clusterLaunch b then none
  else match Cells.find s.blocks b with
    | none => none
    | some blk =>
      let core := blk.core / 8 * 8 + (blk.core + hop) % 8
      let group := s.groupOfBlock b
      (s.blocks.find? (fun (i, x) => x.core == core && s.groupOfBlock i == group)).map (·.1)

/-- The span that a 32-bit stash address names for a wave (R148, R149); none breaks the stash bound. -/
def State.stashSpot (s : State) (w : Wave) (addr len : Nat) : Option StashSpot :=
  match w.block with
  | none => none
  | some b =>
    if bitsOf addr 31 22 ≠ 0 then none
    else match s.hopBlock b (bitsOf addr 21 19) with
      | none => none
      | some t => match Cells.find s.blocks t with
        | none => none
        | some blk =>
          let off := addr % 2 ^ 19
          if off + len ≤ 1024 * blk.stashTiles then some ⟨t, off, decide (bitsOf addr 21 19 ≠ 0)⟩ else none

/-- Translates a line of a mapped tile for a fill or a first store (R146): read or write, never REMOTE. -/
def State.tilePlace (s : State) (b t line : Nat) (write : Bool) : Except AddrFault Place :=
  match Cells.find s.blocks b with
  | none => .error (.xlate false)
  | some blk =>
    s.resolve blk.ctx blk.core (((Cells.get {} blk.tiles t).va.toNat + 128 * line) % 2 ^ 64) 128
      { read := !write, write := write, here := true }

/-- What an access to one line of a block's stash needs before it is performed: a tile that is not FILLING (R151), a fill and a
first store that translate, and frames that this package owns. -/
def State.tileCheck (s : State) (b off lane addr : Nat) (write : Bool) : Check :=
  let tile := s.tileAt b (off / 1024)
  let line := off % 1024 / 128
  let look (wr : Bool) : Check := match s.tilePlace b (off / 1024) line wr with
    | .error f => .ofTrap { f.trap lane addr write with stash := true }
    | .ok p => if s.unowned p.pa then .wait .ownership [⟨p.pa / 65536, lane, addr, write, true⟩] else .ok
  (Check.waitIf (decide (tile.st = .filling)) .cache).both fun _ =>
  (if tile.unfilled line then look false else .ok).both fun _ =>
    if write && decide (tile.st ≠ .unmapped) && decide (Cells.get .invalid tile.lines line ≠ .dirty) then look true else .ok

/-- The bytes of a line as the cache of a cluster holds them: a copy that a No Snoop write left behind, or the newest. -/
def State.copyAt (s : State) (agent line : Nat) : List Byte :=
  match s.stale.find? (fun x => x.agent == agent && x.line == line) with
  | some x => x.bytes
  | none => s.peek (line * 128) 128

/-- A line of a mapped tile is filled from the cluster's cache, or on its way to it (R151, R152). -/
def State.fillFrom (s : State) (b t line agent n : Nat) (here : Bool) : State :=
  (if here then s.stashPut b (1024 * t + 128 * line) (s.copyAt agent n) else s).modTile b t (fun x =>
    { x with lines := Cells.put x.lines line (if here then .clean else .filling), pas := Cells.put x.pas line n }.settled)

/-- Fetches one line of a mapped tile (R151, R152): it is filled at once where the cluster's cache holds it, else when it comes. -/
def State.fetchLine (s : State) (b t line : Nat) : State :=
  match s.tilePlace b t line false, Cells.find s.blocks b with
  | .ok p, some blk =>
    let agent := clusterOf blk.core
    let n := p.pa / 128
    let s1 := ((s.tlbFill blk.ctx blk.core ((s.tileAt b t).va.toNat + 128 * line)).restoreLine p.pa).cacheLoad agent p.pa
    s1.fillFrom b t line agent n (match s1.cacheAt agent n with
      | none => false
      | some c => c.st == .shared || c.st == .smWait || c.st == .modified)
  | _, _ => s

/-- A touch of a line of a mapped tile: the first touch of the tile fetches its 8 lines, a later one the invalid line
alone (R151). -/
def State.touchTile (s : State) (b off : Nat) : State :=
  let t := off / 1024
  let line := off % 1024 / 128
  let tile := s.tileAt b t
  if !tile.unfilled line || decide (tile.st = .filling) then s
  else if tile.st = .resident then s.fetchLine b t line
  else (List.range 8).foldl (fun u i => u.fetchLine b t i) s

/-- Stores bytes inside one stash line: through the mapping where the tile is mapped (R152), to the line it was filled from, or the
reference of the shutter that refuses the store. -/
def State.stashWrite (s : State) (b off : Nat) (bs : List Byte) : Except Nat State :=
  let t := off / 1024
  let line := off % 1024 / 128
  let tile := s.tileAt b t
  if tile.st = .unmapped then .ok (s.stashPut b off bs)
  else match Cells.find tile.pas line, Cells.find s.blocks b with
    | some n, some blk =>
      match s.coreStore blk.core (n * 128 + off % 128) bs (some (b, t)) with
      | .error r => .error r
      | .ok u => .ok ((u.stashPut b off bs).modTile b t (fun x => { x with
          lines := Cells.set .invalid x.lines line .dirty
          old := if Cells.get .invalid tile.lines line = .dirty then x.old else Cells.put x.old line (s.peek (n * 128) 128) }))
    | _, _ => .ok s

/-- The values that bytes read give the v keys or the s register they are for. -/
def readValues (vs : List Nat) (ss : Option Nat) (ty : Nat) (data : List Byte) : List (Nat × Word) × List (Nat × DWord) :=
  match ss with
  | some i => ([], [(i, extend64 ty (ofBytes data))])
  | none => (vs.zip ((elementsOf ty (data.length / (typeWidth ty / 8)) data).flatMap (elementWords ty)), [])

/-- A read of a result in flight that waits for its tile (R151): served once the tile is RESIDENT; a line that was taken again
is fetched again, and one that does not translate any more aborts the region, the tile then being MAPPED. -/
def State.serveRead (s : State) (id wave : Nat) (r : StashRead) : State :=
  let t := r.off / 1024
  let tile := s.tileAt r.block t
  if tile.st = .filling then s
  else if tile.unfilled (r.off % 1024 / 128) then
    match s.tileCheck r.block r.off r.lane r.va false with
    | .ok => s.touchTile r.block r.off
    | .wait _ xs => match s.overdue xs with
      | some x => (s.endStall x).asyncFault wave r.pc (s.stallTrap x)
      | none => s.requestFrames xs
    | .trap f => (s.asyncFault wave r.pc f).modTile r.block t (fun x => { x with st := .mapped, lines := [], pas := [] })
  else
    let (vs, ss) := readValues r.vs r.ss r.ty (s.stashRaw r.block r.off r.len)
    let u : State := { s with fills := Cells.modify s.fills id (fun x =>
      { x with vs := x.vs ++ vs, ss := x.ss ++ ss, awaits := x.awaits.erase r }) }
    match Cells.find u.fills id with
    | none => u
    | some x => if x.awaits.isEmpty then u.endFill id [] [] else u

/-- Serves the reads that wait for tiles. -/
def State.serveReads (s : State) : State :=
  s.fills.foldl (fun (t : State) (id, x) => x.awaits.foldl (fun u r =>
    if (Cells.find u.fills id).isSome then u.serveRead id x.wave r else u) t) s

/-- Steps 1 to 6 of R172 for the active lanes of a stash access. -/
def State.stashCheck (s : State) (k : Nat) (lanes : List Nat) (ea : Nat → Nat) (len align : Nat) (write : Bool) : Check :=
  let w := s.waveAt k
  (Check.lanes lanes (fun l =>
    if ea l % align ≠ 0 then some { code := 4, lane := l, addr := ea l, stash := true, write := write, step := 1 } else none)).both
  fun _ => (Check.lanes lanes (fun l => match s.stashSpot w (ea l) len with
    | none => some { code := 0x23, lane := l, addr := ea l, stash := true, write := write, step := 2 }
    | some _ => none)).both
  fun _ =>
    let checks := lanes.map (fun l => match s.stashSpot w (ea l) len with
      | none => Check.ok
      | some p => s.tileCheck p.block p.off l (ea l) write)
    let trapAt (n : Nat) : Option Check := checks.find? (fun c => match c with
      | .trap t => t.step == n
      | _ => false)
    match trapAt 3, trapAt 4 with
    | some c, _ => c
    | none, some c => c
    | none, none => checks.foldl (fun a c => match a, c with
      | .wait r fs, .wait _ gs => .wait r (fs ++ gs)
      | .ok, c => c
      | a, _ => a) .ok

/-- The package line behind a stash address of a mapped tile. -/
def State.tileLine (s : State) (b off : Nat) : Option Nat :=
  let tile := s.tileAt b (off / 1024)
  if tile.st = .unmapped then none else Cells.find tile.pas (off % 1024 / 128)

/-- The stash stores of lanes, in rising lane order. -/
def State.stashLanes (s : State) (k len : Nat) (ea : Nat → Nat) (data : Nat → List Byte) : List Nat → State × Option Trap
  | [] => (s, none)
  | l :: ls =>
    match s.stashSpot (s.waveAt k) (ea l) len with
    | none => State.stashLanes s k len ea data ls
    | some p => match (match s.tileLine p.block p.off with
        | none => s
        | some n => s.keepPast k (128 * n + p.off % 128) len).stashWrite p.block p.off (data l) with
      | .error r => (s, some { code := 0x24, lane := l, addr := ea l, aux := r % 2 ^ 24, write := true, stash := true })
      | .ok t => State.stashLanes t k len ea data ls

end Sys2Proof.Machine
end

