-- ==== Sys2Proof/Machine/MemoryInstr.lean ====
section
/-! DEFINITION. Loads, stores, gather and scatter, prefetch and cache maintenance (06_memory_access.md R156 to R165). -/

namespace Sys2Proof.Machine

open Sys2Proof

/-! ### Operands (R156 to R158, R162) -/

/-- The issuing wave is a thread of a latency core. -/
def State.onLatency (s : State) : Bool :=
  match s.cur with
  | none => false
  | some i => (s.waveAt i.wave).latency

/-- How many elements a word moves per lane (R157). -/
def elementCount (f : FWord) : Nat := if f.mod = 0 then 1 else if f.mod = 1 then 2 else 4

/-- The register group that holds a lane's elements: v registers aligned to their number, or one s register (R157). -/
def groupGen (f : FWord) : Gen :=
  let g := elementCount f * ((typeWidth f.tcode + 31) / 32)
  { ty := f.tcode, regs := g, align := g, iconst := false, fconst := false, special := false, lits := [] }

/-- FD names an s register. -/
def namesS (x : Field) : Bool :=
  match srcOf x with
  | .s _ => true
  | _ => false

/-- A field names a v register or a per-lane special value. -/
def perLaneField (x : Field) : Bool :=
  match srcOf x with
  | .v _ => true
  | .special k => specialPerLane k
  | _ => false

/-- The register and type rules of R157 that are breached. -/
def groupIllegal (f : FWord) : Bool :=
  (decide (f.mod ≠ 0) && f.tcode != 10 && f.tcode != 11) ||
  (namesS f.fd && (decide (f.mod ≠ 0) || perLaneField f.fa || perLaneField f.fb))

/-- The base of an address (R158). -/
def baseGen (stash : Bool) : Gen :=
  if stash then { ty := 10, fconst := false, lits := [1] }
  else { ty := 11, iconst := false, fconst := false, special := false, lits := [0] }

/-- The offset of an address (R158). -/
def offsetGen : Gen := { ty := 3, regs := 1, align := 1, fconst := false }

/-- The offset of a lane: a v register is signed, a special value zero-extended (R158). -/
def State.offsetOf (s : State) (e : Env) (f : FWord) (l : Nat) : Int :=
  match srcOf f.fb with
  | .v n => signedOf 32 (s.vreg e n l).toNat
  | .special x => s.specialValue e x l
  | _ => s.value e 3 f.fb l

/-- The effective address of a lane (R158). -/
def State.address (s : State) (e : Env) (f : FWord) (stash : Bool) (l : Nat) : Nat :=
  if stash then wrapI 32 (s.value e 10 f.fa l + s.offsetOf e f l)
  else wrapI 64 (s.value e 11 f.fa l + s.offsetOf e f l)

/-- The type code of the index of ldx and stx: Q[8:7] and Q[6] (R162). -/
def indexType (f : FWord) : Nat := (if bitOf f.q 6 then 0 else 4) + bitsOf f.q 8 7

/-- The effective address of a lane of ldx or stx (R163). -/
def State.indexed (s : State) (e : Env) (f : FWord) (stash : Bool) (l : Nat) : Nat :=
  let ty := indexType f
  let scale := if bitsOf f.q 5 3 = 5 then typeWidth f.tcode / 8 * elementCount f else 2 ^ bitsOf f.q 5 3
  let off := intOf ty (s.value e ty f.fb l) * (scale : Int)
  if stash then wrapI 32 (s.value e 10 f.fa l + off) else wrapI 64 (s.value e 11 f.fa l + off)

/-- The encoding of ld and st. -/
def ldStSpec (f : FWord) (latencyCore isStore : Bool) : OpSpec :=
  let stash := bitOf f.q 0
  let order := bitsOf f.q 8 7
  let scope := bitsOf f.q 6 4
  let hint := bitsOf f.q 3 2
  { fd := if isStore then .data (groupGen f) else .dest (groupGen f)
    fa := .source (baseGen stash), fb := .source offsetGen, fc := .quals, qBits := 0x1FD, modBits := 3,
    typing := .codes (List.range 12)
    reserved := decide (2 ≤ order) || decide (5 ≤ scope) || (decide (scope ≠ 0) && order == 0) || hint == 3 || f.mod == 3
    illegal := groupIllegal f || (isStore && hint == 1) || (stash && (decide (order ≠ 0) || decide (hint ≠ 0))) ||
      (stash && latencyCore) }

/-- The encoding of ldx and stx. -/
def ldxStxSpec (f : FWord) (latencyCore isStore : Bool) : OpSpec :=
  let stash := bitOf f.q 0
  let hint := bitsOf f.q 2 1
  { fd := if isStore then .data (groupGen f) else .dest (groupGen f)
    fa := .source (if stash then Gen.sLit 10 1 else Gen.sLit 11 0), fb := .source (Gen.vOnly (indexType f) 0 0),
    fc := .quals, qBits := 0x1FF, modBits := 3, typing := .codes (List.range 12)
    reserved := decide (6 ≤ bitsOf f.q 5 3) || hint == 3 || f.mod == 3
    illegal := groupIllegal f || (isStore && hint == 1) || (stash && decide (hint ≠ 0)) || (stash && latencyCore) }

/-! ### Loads -/

/-- The launch whose block a wave belongs to, for the lines it loads with .ro (R160). -/
def State.launchOf (s : State) (k : Nat) : Option Nat :=
  match (s.waveAt k).block with
  | none => none
  | some b => (Cells.find s.blocks b).map (·.launch)

/-- How a load moves its bytes. -/
structure LoadKind where
  ty : Nat
  cnt : Nat
  /-- The scope of an acquire. -/
  sync : Option Nat := none
  ro : Bool := false
  stream : Bool := false
  /-- Always a long-latency producer (ldx). -/
  long : Bool := false
  deriving DecidableEq, Repr

/-- Bytes per lane. -/
def LoadKind.len (m : LoadKind) : Nat := typeWidth m.ty / 8 * m.cnt

/-- A global load of lanes whose checks have passed (R159): at fixed latency where every line hits in L0. -/
def State.loadGlobal (s0 : State) (e : Env) (lanes : List Nat) (ea : Nat → Nat) (m : LoadKind) : State :=
  let w := s0.waveAt e.key
  let s := match m.sync with
    | none => s0
    | some sc => s0.acquire w.core sc
  let place (l : Nat) : Place := s.place! e.key (ea l) m.len
  let here := lanes.filter (fun l => (place l).remote.isNone)
  let there := lanes.filter (fun l => (place l).remote.isSome)
  let kept (l : Nat) : Cells Byte := w.heldOver (place l).remote (place l).pa
  let value (l : Nat) : List Byte := overlay (kept l) ((place l).pa % 128) (s.coreRead w.core (place l).pa m.len)
  let out := here.map (fun l => destValues e w.trapMode m.ty m.cnt l (value l))
  let vs := out.flatMap (·.1)
  let ss := out.flatMap (·.2)
  let hit := there.isEmpty && here.all (fun l => (s.l0Find w.core ((place l).pa / 128)).isSome)
  let ro := if m.ro then s.launchOf e.key else none
  let s1 := here.foldl (fun t l => (t.loadLine w.core (place l).pa ro m.stream).synced e.key (place l).pa m.sync)
    (s.touch e.key lanes ea)
  if hit && !m.long then s1.writeNow e.key vs ss
  else
    let keys := s1.destKeys e (groupGen e.f).count e.f.fd (maskOf lanes)
    let (id, s2) := s1.startFill e.key keys
    if there.isEmpty then s2.endFill id vs ss
    else
      let s3 : State := { s2 with fills := Cells.modify s2.fills id (fun x => { x with vs := vs, ss := ss }) }
      let s4 := there.foldl (fun (t : State) l =>
        let p := place l
        t.requestRemote e id l (ea l) m.ty m.cnt p (.load m.len) m.sync
          ((kept l).filterMap (fun (i, b) => if p.pa % 128 ≤ i ∧ i < p.pa % 128 + m.len then some (i - p.pa % 128, b) else none))) s3
      s4.modWave e.key (fun w => { w with hold := some (.reply id e.act 0 false) })

/-- A stash load of lanes whose checks have passed (R150, R159): at fixed latency unless a lane reads another core's stash or touches
an unfilled line; a lane whose tile is then FILLING gets its value when the lines have come (R151). -/
def State.loadStash (s : State) (e : Env) (lanes : List Nat) (ea : Nat → Nat) (m : LoadKind) : State :=
  let w := s.waveAt e.key
  let spots := lanes.filterMap (fun l => (s.stashSpot w (ea l) m.len).map (fun p => (l, p)))
  let far := spots.any (fun (_, p) => p.far || (s.tileAt p.block (p.off / 1024)).unfilled (p.off % 1024 / 128))
  let s1 := spots.foldl (fun (t : State) (_, p) => t.touchTile p.block p.off) s
  let late (p : StashSpot) : Bool := (s1.tileAt p.block (p.off / 1024)).st == .filling
  let out := (spots.filter (fun (_, p) => !late p)).map (fun (l, p) =>
    destValues e w.trapMode m.ty m.cnt l (s1.stashRaw p.block p.off m.len))
  let vs := out.flatMap (·.1)
  let ss := out.flatMap (·.2)
  if far || m.long then
    let (id, s2) := s1.startFill e.key (s1.destKeys e (groupGen e.f).count e.f.fd (maskOf lanes))
    let awaits : List StashRead := (spots.filter (fun (_, p) => late p)).map (fun (l, p) =>
      let keys := e.readKeys w.trapMode m.ty m.cnt l
      { block := p.block, off := p.off, len := m.len, vs := keys.1, ss := keys.2, ty := m.ty, lane := l, pc := e.pc, va := ea l })
    if awaits.isEmpty then s2.endFill id vs ss
    else { s2 with fills := Cells.modify s2.fills id (fun x => { x with vs := vs, ss := ss, awaits := awaits }) }
  else s1.writeNow e.key vs ss

/-- The lanes a load or store performs: one for a load into an s register (R51). -/
def loadLanes (e : Env) : List Nat := if namesS e.f.fd then [lowestLane e.act] else laneList e.act

/-- ld and ldx, once decoded. -/
def runLoad (p : OpSpec) (f : FWord) (s : State) (stash : Bool) (ea : State → Env → Nat → Nat) (m : LoadKind) :
    Host.Outcome State Fault Refusal :=
  runWord p f s (fun e t =>
    let lanes := loadLanes e
    let at' (l : Nat) : Nat := ea t e l
    if stash then
      t.checked e (t.stashCheck e.key lanes at' m.len m.len false) (fun u => u.loadStash e lanes at' m)
    else
      t.checked e (t.globalCheck e.key lanes at' { need := { read := true }, len := m.len, align := m.len, sync := m.sync })
        (fun u => u.loadGlobal e lanes at' m))

/-! ### Stores -/

/-- The bytes of a lane's data operand. -/
def State.dataBytes (s : State) (e : Env) (ty cnt l : Nat) : List Byte :=
  let sz := typeWidth ty / 8
  match srcOf e.f.fd with
  | .v n => (List.range cnt).flatMap (fun i =>
      if sz = 8 then toBytes 8 ((s.vreg e (n + 2 * i) l).toNat + 2 ^ 32 * (s.vreg e (n + 2 * i + 1) l).toNat)
      else toBytes sz (s.vreg e (n + i) l).toNat)
  | .s n => toBytes sz (s.sreg e n).toNat
  | _ => []

/-- What ends a store: it has been performed or held, or it traps with nothing performed. -/
def State.endStore (s : State) (e : Env) (r : State × Option Trap) : State :=
  match r with
  | (_, some t) => s.raise e t
  | (u, none) => u.advance e

/-- A lane's stash span lies in a line of a mapped tile that is not filled. -/
def State.tilesMissing (s : State) (k : Nat) (lanes : List Nat) (ea : Nat → Nat) (len : Nat) : Bool :=
  lanes.any (fun l => match s.stashSpot (s.waveAt k) (ea l) len with
    | none => false
    | some p => (s.tileAt p.block (p.off / 1024)).unfilled (p.off % 1024 / 128))

/-- The lanes touch the tiles of their stash spans (R151). -/
def State.touchLanes (s : State) (k : Nat) (lanes : List Nat) (ea : Nat → Nat) (len : Nat) : State :=
  lanes.foldl (fun t l => match t.stashSpot (t.waveAt k) (ea l) len with
    | none => t
    | some p => t.touchTile p.block p.off) s

/-- st and stx, once decoded. A store to a line of a mapped tile that is not filled waits for the line (R151, R152). -/
def runStore (p : OpSpec) (f : FWord) (s : State) (stash : Bool) (ea : State → Env → Nat → Nat) (sync : Option Nat) :
    Host.Outcome State Fault Refusal :=
  runWord p f s (fun e t =>
    let lanes := laneList e.act
    let at' (l : Nat) : Nat := ea t e l
    let len := typeWidth f.tcode / 8 * elementCount f
    let data (l : Nat) : List Byte := t.dataBytes e f.tcode (elementCount f) l
    let check := if stash then t.stashCheck e.key lanes at' len len true
      else (t.globalCheck e.key lanes at'
        { need := { write := true }, len := len, align := len, sync := sync, replies := false }).both
        fun _ => t.holdCheck e.key lanes at' len
    match check with
    | .wait r xs => t.hold e r xs
    | .trap tr => t.raise e tr
    | .ok => if stash && t.tilesMissing e.key lanes at' len then (t.touchLanes e.key lanes at' len).block e .cache
      else t.endStore e (if stash then t.stashLanes e.key len at' data lanes
        else (t.touch e.key lanes at').storeLanes e.key len at' (fun l => t.place! e.key (at' l) len) data sync lanes))

/-! ### Regions of cache maintenance (R165) -/

/-- The bytes of a region, by Q[3:1]. -/
def regionSize (q : Nat) : Nat :=
  match bitsOf q 3 1 with
  | 0 => 128
  | 1 => 4096
  | 2 => 65536
  | _ => 2 ^ 21

/-- The 64 KiB parts of the region that holds an address: virtual address and length. -/
def regionParts (ea size : Nat) : List (Nat × Nat) :=
  let base := ea / size * size
  if size ≤ 65536 then [(base, size)] else (List.range (size / 65536)).map (fun i => (base + 65536 * i, 65536))

/-- The parts of a region that translate to this package: package address, length and PTE. -/
def State.partsHere (s : State) (k ea size : Nat) : List (Place × Nat) :=
  (regionParts ea size).filterMap (fun (va, n) => match s.placeOf k va n with
    | .ok p => if p.remote.isSome then none else some (p, n)
    | .error _ => none)

/-- The walks of a region's parts wait for the hand-over of a page-table frame; a part whose hand-over has run out of its time does not
translate (13_page.md R286, R302). -/
def State.partsCheck (s : State) (e : Env) (ea size : Nat) : Check :=
  let parts := regionParts ea size
  Check.lanes (List.range parts.length) (fun i =>
    let va := (parts.getD i (0, 0)).1
    match s.placeOf e.key va 1 with
    | .error (.unowned f) => if s.stallOver { frame := f } then none else some ((AddrFault.unowned f).trap (lowestLane e.act) va false)
    | _ => none)

/-- The translations of a region's parts enter the TLBs. -/
def State.touchParts (s : State) (k ea size : Nat) : State :=
  let (c, core) := s.seat k
  (regionParts ea size).foldl (fun t p => t.tlbFill c core p.1) s

/-- A line number lies in some part. -/
def inParts (ps : List (Place × Nat)) (line : Nat) : Bool :=
  ps.any (fun (p, n) => decide (p.pa ≤ line * 128) && decide (line * 128 < p.pa + n))

/-- The lines of a region that a cluster's cache holds. -/
def State.cachedIn (s : State) (agent : Nat) (ps : List (Place × Nat)) : List (Nat × CacheLine) :=
  s.cache.filterMap (fun (k, c) => if k / 2 ^ 46 = agent ∧ inParts ps (k % 2 ^ 46) then some (k % 2 ^ 46, c) else none)

/-- The stash copies of a cluster leave the lines of a region. -/
def State.dropTiles (s : State) (cluster : Nat) (ps : List (Place × Nat)) : State :=
  { s with blocks := s.blocks.map (fun (b, blk) =>
      if clusterOf blk.core ≠ cluster then (b, blk)
      else (b, { blk with tiles := blk.tiles.map (fun (t, tile) => (t, tile.dropLines (inParts ps))) })) }

/-- A line of a region that an earlier access of the cluster still waits for, or, where `loads` is false, an earlier store (R165). -/
def State.regionBusy (s : State) (agent : Nat) (ps : List (Place × Nat)) (loads : Bool) : Bool :=
  (s.cachedIn agent ps).any (fun (_, c) => c.wantStore || c.st == .smWait || c.st == .imWait ||
    (loads && (c.wantLoad || c.st == .isWait))) ||
  s.cacheWait.any (fun (a, l, st) => a == agent && (st || loads) && inParts ps l)

/-- The wave issues nothing more until the write-backs of these lines are taken. -/
def State.holdWriteback (s : State) (k agent : Nat) (lines : List Nat) : State :=
  if lines.isEmpty then s else s.modWave k (fun w => { w with hold := some (.writeback agent lines) })

/-- cinv.l1 of a region (R165): its lines leave the cluster's cache, its L0s (on a latency core the issuing core's
private cache) and its stashes. -/
def State.invalidateL1 (s : State) (k : Nat) (ps : List (Place × Nat)) : State :=
  let w := s.waveAt k
  let agent := clusterOf w.core
  let lines := s.cachedIn agent ps
  let out := (lines.filter (fun (_, c) => c.st == .modified)).map (·.1)
  let s1 := lines.foldl (fun t (l, _) => t.evictLine agent l) s
  let s2 : State := { s1 with
    l0 := s1.l0.filter (fun x => !(inParts ps x.line && (if w.latency then x.core == w.core else clusterOf x.core == agent)))
    stale := s1.stale.filter (fun x => !(x.agent == agent && inParts ps x.line)) }
  (s2.dropTiles agent ps).holdWriteback k agent out

/-- cwb of a region (R165): dirty lines are written back and stay valid and clean. -/
def State.writeBackL1 (s : State) (k : Nat) (ps : List (Place × Nat)) : State :=
  let agent := clusterOf (s.waveAt k).core
  let out := ((s.cachedIn agent ps).filter (fun (_, c) => c.st == .modified && c.dirty)).map (·.1)
  let s1 := out.foldl (fun t l => match t.cacheAt agent l with
    | none => t
    | some c => t.sendWbk agent l c) s
  let s2 : State := { s1 with blocks := s1.blocks.map (fun (b, blk) =>
    if clusterOf blk.core ≠ agent then (b, blk)
    else (b, { blk with tiles := blk.tiles.map (fun (t, tile) => (t, { tile with
      lines := tile.lines.map (fun (l, st) =>
        if st = .dirty ∧ (Cells.find tile.pas l).any (inParts ps) then (l, .clean) else (l, st)) })) })) }
  s2.holdWriteback k agent out

/-- Resets the sync records of the lines of a region whose page admits writes (R165, R183). -/
def State.resetRecords (s : State) (k : Nat) (ps : List (Place × Nat)) : State :=
  let (c, _) := s.seat k
  let ok := ps.filter (fun (p, _) => match s.permitted c { write := true, here := true } p with
    | .ok _ => true
    | .error _ => false)
  ok.foldl (fun t (p, n) => (List.range (n / 128)).foldl (fun u i =>
    if (u.lineMetaAt (p.pa + 128 * i)).scope = 7 then u
    else u.modMeta (p.pa + 128 * i) (fun m => { m with scope := 7, node := 0, agent := 0 })) t) s

/-- The encoding of cinv and cwb. -/
def regionSpec (f : FWord) (qBits : Nat) : OpSpec :=
  { fa := .source { baseGen false with v := false }, fb := .source { offsetGen with v := false, perLane := false },
    fc := .quals, qBits := qBits, reserved := decide (4 ≤ bitsOf f.q 3 1) }

/-! ### Meanings -/

/-- ld (R156 to R160). -/
def execLd (f : FWord) (s : State) : Host.Outcome State Fault Refusal :=
  let stash := bitOf f.q 0
  let hint := bitsOf f.q 3 2
  runLoad (ldStSpec f s.onLatency false) f s stash (fun t e l => t.address e f stash l)
    { ty := f.tcode, cnt := elementCount f, sync := if bitsOf f.q 8 7 = 1 then some (bitsOf f.q 6 4) else none,
      ro := hint == 1, stream := hint == 2 }

/-- st (R156 to R159). -/
def execSt (f : FWord) (s : State) : Host.Outcome State Fault Refusal :=
  let stash := bitOf f.q 0
  runStore (ldStSpec f s.onLatency true) f s stash (fun t e l => t.address e f stash l)
    (if bitsOf f.q 8 7 = 1 then some (bitsOf f.q 6 4) else none)

/-- ldx (R162, R163): always a long-latency producer. -/
def execLdx (f : FWord) (s : State) : Host.Outcome State Fault Refusal :=
  let stash := bitOf f.q 0
  let hint := bitsOf f.q 2 1
  runLoad (ldxStxSpec f s.onLatency false) f s stash (fun t e l => t.indexed e f stash l)
    { ty := f.tcode, cnt := elementCount f, ro := hint == 1, stream := hint == 2, long := true }

/-- stx (R162, R163). -/
def execStx (f : FWord) (s : State) : Host.Outcome State Fault Refusal :=
  let stash := bitOf f.q 0
  runStore (ldxStxSpec f s.onLatency true) f s stash (fun t e l => t.indexed e f stash l) none

/-- The encoding rules of pref (R164). -/
def prefSpec : OpSpec := { fa := .source (baseGen false), fb := .source offsetGen, fc := .quals, qBits := 1 }

/-- The prefetch of the line at an address (R164): into L0 and the cluster's cache, or into the cluster's cache alone; it is
dropped where the address may not be read. -/
def State.prefetch (s : State) (k va : Nat) (toL0 : Bool) : State :=
  let (c, core) := s.seat k
  match s.resolve c core va 1 { read := true, here := true } with
  | .error _ => s
  | .ok q =>
    if s.unowned q.pa then s
    else if toL0 then (s.tlbFill c core va).loadLine core q.pa none false
    else (s.tlbFill c core va).cacheLoad (clusterOf core) q.pa

/-- pref (R164): lines that may be read enter the caches; other lanes are dropped. -/
def execPref (f : FWord) (s : State) : Host.Outcome State Fault Refusal :=
  runPlain prefSpec f s (fun e t =>
    (laneList e.act).foldl (fun u l => u.prefetch e.key (t.address e f false l) (bitOf f.q 0)) t)

/-- cinv (R165): cinv.l1 acts when the earlier accesses of the cluster to the region have reached its cache. -/
def execCinv (f : FWord) (s : State) : Host.Outcome State Fault Refusal :=
  runWord (regionSpec f 15) f s (fun e t =>
    let va := t.address e f false (lowestLane e.act)
    let ps := t.partsHere e.key va (regionSize f.q)
    let core := (t.waveAt e.key).core
    t.checked e ((t.partsCheck e va (regionSize f.q)).both fun _ =>
        .waitIf (bitOf f.q 0 && t.regionBusy (clusterOf core) ps true) .cache) (fun u0 =>
      let u := u0.touchParts e.key va (regionSize f.q)
      if bitOf f.q 0 then u.invalidateL1 e.key ps else u.l0Drop core (fun x => inParts ps x.line)))

/-- cwb and cwb.sync (R165): they act when the earlier stores of the cluster to the region have reached its cache. -/
def execCwb (f : FWord) (s : State) : Host.Outcome State Fault Refusal :=
  runWord (regionSpec f 0x1E) f s (fun e t =>
    let va := t.address e f false (lowestLane e.act)
    let ps := t.partsHere e.key va (regionSize f.q)
    t.checked e ((t.partsCheck e va (regionSize f.q)).both fun _ =>
        .waitIf (t.regionBusy (clusterOf (t.waveAt e.key).core) ps false) .cache) (fun u =>
      let v := (u.touchParts e.key va (regionSize f.q)).writeBackL1 e.key ps
      if bitOf f.q 4 then v.resetRecords e.key ps else v))

end Sys2Proof.Machine
end

