-- ==== Sys2Proof/Machine/Atomic.lean ====
section
/-! DEFINITION. Atomics and reductions (06_memory_access.md R167 to R171), performed at the home of their address. -/

namespace Sys2Proof.Machine

open Sys2Proof

/-! ### Operations (R168) -/

/-- The types an operation accepts. -/
def atomicTypes (op md : Nat) : List Nat :=
  if op ≤ 2 then [2, 3, 6, 7]
  else if op ≤ 7 then [10, 11]
  else if op ≤ 9 then [6, 7]
  else if op = 10 then (if md = 0 then [13] else [10])
  else [13]

/-- The new value; `b2` is the new value of .cas. -/
def atomicNew (op md ty old b b2 : Nat) : Nat :=
  let w := typeWidth ty
  match op with
  | 0 => (old + b) % 2 ^ w
  | 1 => if intOf ty b < intOf ty old then b else old
  | 2 => if intOf ty old < intOf ty b then b else old
  | 3 => Nat.land old b
  | 4 => Nat.lor old b
  | 5 => Nat.xor old b
  | 6 => b
  | 7 => if old = b then b2 else old
  | 8 => if b ≤ old then 0 else old + 1
  | 9 => if old = 0 ∨ b < old then b else old - 1
  | 10 => match md with
    | 0 => fAdd fmtF32 false .rne old b
    | 1 => packed2 (fun x y _ => fAdd fmtBf16 false .rne x y) old b 0
    | _ => packed2 (fun x y _ => fAdd fmtF16 false .rne x y) old b 0
  | 11 => fMinMax fmtF32 false true false old b
  | _ => fMinMax fmtF32 false false false old b

/-- The code of an operation in Q[8:5]. -/
def atomicOp (f : FWord) : Nat := bitsOf f.q 8 5

/-- The operand vb: for .cas two registers, else a value (R167). -/
def operandGen (f : FWord) : Gen :=
  let n := if typeWidth f.tcode = 64 then 4 else 2
  if atomicOp f = 7 then
    { ty := f.tcode, regs := n, align := n, sRegs := 2, iconst := false, fconst := false, special := false, lits := [] }
  else { ty := f.tcode, fconst := false, special := false }

/-- The two operand values of a lane. -/
def State.operands (s : State) (e : Env) (f : FWord) (l : Nat) : Nat × Nat :=
  let w := typeWidth f.tcode
  let b := s.value e f.tcode f.fb l
  if atomicOp f ≠ 7 then (b, 0)
  else match srcOf f.fb with
    | .v n => (b, if w = 64 then (s.vreg e (n + 2) l).toNat + 2 ^ 32 * (s.vreg e (n + 3) l).toNat
        else (s.vreg e (n + 1) l).toNat)
    | .s n => (b, (s.sreg e (n + 1)).toNat % 2 ^ w)
    | _ => (b, 0)

/-- The encoding of atom, atom.sc and red: `kind` 0 atom, 1 atom.sc, 2 red. -/
def atomicSpec (f : FWord) (kind : Nat) : OpSpec :=
  let op := atomicOp f
  let scope := bitsOf f.q 4 2
  let order := bitsOf f.q 1 0
  { fd := if kind = 2 then .unused else .dest { ty := f.tcode }
    fa := .source (baseGen false), fb := .source (operandGen f), fc := .quals, qBits := 511, modBits := 3,
    typing := .codes (atomicTypes op f.mod)
    reserved := decide (13 ≤ op) || f.mod == 3 || decide (5 ≤ scope) ||
      (if kind = 1 then decide (order ≠ 0) else order == 0 && decide (scope ≠ 0))
    illegal := (decide (f.mod ≠ 0) && op != 10) || (kind == 1 && scope == 4) ||
      (kind == 2 && (order == 1 || order == 3 || op == 6 || op == 7)) }

/-- The scope of a synchronising atomic; none where it is relaxed. -/
def atomicSync (f : FWord) (kind : Nat) : Option Nat :=
  if kind = 1 ∨ bitsOf f.q 1 0 ≠ 0 then some (bitsOf f.q 4 2) else none

/-! ### Performing -/

/-- One read-modify-write at the home of a package address: the old value, or the shutter that refuses it. -/
def State.atomicAt (s : State) (core pa w : Nat) (f : Nat → Nat) : Except Nat (Nat × State) :=
  let s0 := (s.restoreLine pa).l0Drop core (fun x => x.line == pa / 128)
  let old := s0.peekNat pa (w / 8)
  match s0.waveWrite pa (toBytes (w / 8) (f old)) with
  | .error r => .error r
  | .ok t => .ok (old, t.homeWrite pa)

/-- What the lanes of an atomic have done so far: the state, and the lanes' old values. -/
abbrev AtomicRun := State × List (Nat × Nat)

/-- Performs the lanes whose address is of this package, in rising lane order (R169). -/
def State.atomicLanes (s : State) (k w : Nat) (place : Nat → Place) (f : Nat → Nat → Nat) (sync : Option Nat) :
    List Nat → Except (Nat × Nat) AtomicRun
  | [] => .ok (s, [])
  | l :: ls =>
    let p := place l
    if p.remote.isSome then State.atomicLanes s k w place f sync ls
    else match (s.keepPast k p.pa (w / 8)).atomicAt (s.waveAt k).core p.pa w (f l) with
      | .error r => .error (l, r)
      | .ok (old, t) => match State.atomicLanes (t.synced k p.pa sync) k w place f sync ls with
        | .error x => .error x
        | .ok (u, olds) => .ok (u, (l, old) :: olds)

/-- The lanes whose address lies in another package: a posted write of red, a request of atom (20_link.md R434, R436). -/
def State.atomicRemote (s : State) (e : Env) (f : FWord) (lanes : List Nat) (ea : Nat → Nat) (place : Nat → Place)
    (fill : Option Nat) (sync : Option Nat) (data : Nat → Nat × Nat) : State :=
  let w := s.waveAt e.key
  let agent := (s.ctxAt w.ctx).agentOf w.core
  lanes.foldl (fun t l =>
    let p := place l
    match p.remote with
    | none => t
    | some node =>
      let op : FabricOp := .atomic (atomicOp f) f.mod f.tcode (data l).1 (data l).2 fill.isSome
      match fill with
      | some id => t.requestRemote e id l (ea l) f.tcode 1 p op sync []
      | none =>
        let (u, lost) := t.postWrite node w.ctx e.key 1 p.pa op (sync.map (fun sc => (sc, agent))) none (maskOf [l])
        if lost then u.noteLost e.key (maskOf [l]) else u) s

/-- The effect of an atomic whose checks have passed; `olds` answers the lanes' old values. -/
def State.atomicEffect (s : State) (e : Env) (f : FWord) (kind : Nat) (lanes : List Nat) (ea : Nat → Nat)
    (data : Nat → Nat × Nat) : Except (Nat × Nat) State :=
  let w := s.waveAt e.key
  let width := typeWidth f.tcode
  let sync := atomicSync f kind
  let new (l old : Nat) : Nat := atomicNew (atomicOp f) f.mod f.tcode old (data l).1 (data l).2
  let place (l : Nat) : Place := s.place! e.key (ea l) (width / 8)
  match (s.touch e.key lanes ea).atomicLanes e.key width place new sync lanes with
  | .error x => .error x
  | .ok (t, olds) =>
    let t1 : State := if kind = 1 then { t with tickets := t.tickets + lanes.length } else t
    let acq : Bool := kind == 1 || bitOf f.q 0
    let t2 := if acq then t1.acquire w.core (bitsOf f.q 4 2) else t1
    let remote := lanes.filter (fun l => (place l).remote.isSome)
    if kind = 2 then .ok (t2.atomicRemote e f remote ea place none sync data)
    else
      let out := olds.map (fun (l, x) => destValues e w.trapMode f.tcode 1 l (toBytes (width / 8) x))
      let keys := t2.destKeys e (if width = 64 then 2 else 1) f.fd (maskOf lanes)
      let (id, t3) := t2.startFill e.key keys
      if remote.isEmpty then .ok (t3.endFill id (out.flatMap (·.1)) (out.flatMap (·.2)))
      else
        let t4 : State := { t3 with fills := Cells.modify t3.fills id (fun x =>
          { x with vs := out.flatMap (·.1), ss := out.flatMap (·.2) }) }
        .ok ((t4.atomicRemote e f remote ea place (some id) sync data).modWave e.key (fun w =>
          { w with hold := some (.reply id e.act (e.pc + BitVec.ofNat 64 e.size) true) }))

/-- atom, atom.sc and red: an implicit region boundary (R169). -/
def runAtomic (f : FWord) (s : State) (kind : Nat) : Host.Outcome State Fault Refusal :=
  runWord (atomicSpec f kind) f s (fun e t =>
    let lanes := if kind = 2 then laneList e.act else loadLanes e
    let ea (l : Nat) : Nat := t.value e 11 f.fa l
    let data (l : Nat) : Nat × Nat := t.operands e f l
    let n := typeWidth f.tcode / 8
    let check (u : State) : Check :=
      (u.globalCheck e.key lanes ea { need := { read := true, write := true }, len := n, align := n,
                                      sync := atomicSync f kind, replies := kind != 2 }).both
      fun _ => match u.atomicEffect e f kind lanes ea data with
        | .error (l, r) => .trap { code := 0x24, lane := l, addr := ea l, aux := r % 2 ^ 24, write := true }
        | .ok _ => .ok
    (t.atBoundary e check (fun u => match u.atomicEffect e f kind lanes ea data with
      | .error _ => u
      | .ok v => v)).reopen e)

/-! ### Meanings -/

/-- atom (R167 to R169). -/
def execAtom (f : FWord) (s : State) : Host.Outcome State Fault Refusal := runAtomic f s 0
/-- atom.sc (R170): each lane takes a ticket of the Lintel's sequencer. -/
def execAtomSc (f : FWord) (s : State) : Host.Outcome State Fault Refusal := runAtomic f s 1
/-- red (R171). -/
def execRed (f : FWord) (s : State) : Host.Outcome State Fault Refusal := runAtomic f s 2

end Sys2Proof.Machine
end

