-- ==== Sys2Proof/Machine/Approx.lean ====
section
/-! DEFINITION. The approximations of 04_compute_instructions.md R105: exact points and special values as R105 gives
them; elsewhere a free value of Config, held to the bound that R105 states. The bound is judged against a reference
worked out in fixed point, finely enough to set it apart from every border of a bound (log 27); a free value outside its
bound gives way to the reference, rounded. -/

namespace Sys2Proof.Machine

open Sys2Proof

/-- The fraction bits of the fixed-point numbers of this file. -/
def fixBits : Nat := 448

/-- One in the fixed-point numbers of this file. -/
def fixOne : Int := ((2 ^ fixBits : Nat) : Int)

/-- A finite value in fixed point, rounded down. -/
def FVal.fix : FVal → Int
  | .fin n a d e =>
    let (p, q) := scaleBy (a * 2 ^ fixBits) d e
    if n then -((p / q : Nat) : Int) else ((p / q : Nat) : Int)
  | _ => 0

/-- A fixed-point number times a power of two, as an exact value. -/
def ofFix (x : Int) (e : Int) : FVal := .fin (decide (x < 0)) x.natAbs 1 (e - fixBits)

/-- `n` terms of a series, each made from the one before. -/
def series (next : Nat → Int → Int) : Nat → Nat → Int → Int
  | 0, _, _ => 0
  | n + 1, k, t => t + series next n (k + 1) (next k t)

/-- e^z. -/
def fixExp (z : Int) : Int := series (fun k t => t * z / fixOne / (k + 1)) 260 0 fixOne
/-- sin z. -/
def fixSin (z : Int) : Int :=
  series (fun k t => -(t * z / fixOne * z / fixOne) / (((2 * k + 2) * (2 * k + 3) : Nat) : Int)) 80 0 z
/-- cos z. -/
def fixCos (z : Int) : Int :=
  series (fun k t => -(t * z / fixOne * z / fixOne) / (((2 * k + 1) * (2 * k + 2) : Nat) : Int)) 80 0 fixOne

/-- ln 2, as the sum of 1 / (k · 2^k). -/
def fixLn2 : Int := series (fun k t => t * ((k + 1 : Nat) : Int) / ((2 * (k + 2) : Nat) : Int)) 460 0 (fixOne / 2)
/-- The arc tangent of 1 / n. -/
def fixAtan (n : Nat) : Int :=
  series (fun k t => -(t * ((2 * k + 1 : Nat) : Int)) / (((2 * k + 3) * n ^ 2 : Nat) : Int)) 110 0 (fixOne / (n : Int))
/-- π, by Machin's formula. -/
def fixPi : Int := 16 * fixAtan 5 - 4 * fixAtan 239

/-- The fraction bits of log2 of a number from 1 to 2, by repeated squaring. -/
def logBits : Nat → Nat → Nat → Nat
  | 0, _, acc => acc
  | n + 1, y, acc =>
    let y2 := y * y / 2 ^ fixBits
    if 2 ^ (fixBits + 1) ≤ y2 then logBits n (y2 / 2) (2 * acc + 1) else logBits n y2 (2 * acc)

/-- Two units in the last place of `.f32` at a reference. -/
def twoUlp (ref : FVal) : FVal :=
  match ref with
  | .fin _ 0 _ _ => .fin false 1 1 (-148)
  | .fin _ a d e =>
    let k := floorLog2 a d + e
    .fin false 1 1 ((if k < -126 then -126 else k) - 22)
  | _ => .fin false 0 1 0

/-- An absolute bound of 2^e. -/
def absBound (e : Int) : FVal := .fin false 1 1 e

/-- A `.f32` code lies within a bound of a reference; +∞ counts as 2^128. -/
def within (c : Nat) (ref tol : FVal) : Bool :=
  let v := match fmtF32.decode c with
    | .inf n => FVal.fin n 1 1 128
    | y => y
  match FVal.add v ref.negate .rne with
  | .fin _ a d e => !v.isNan && FVal.cmp (.fin false a d e) tol != .gt
  | _ => false

/-- The free value of an approximation, held to its bounds: any of them will do. -/
def bounded (free : Word → Word) (x : Nat) (ref : FVal) (tols : List FVal) : Nat :=
  let c := (free (BitVec.ofNat 32 x)).toNat
  if tols.any (within c ref) then c else convert fmtF32 ref .rne false

/-- The value is an integer times 2^e. -/
def multipleOf (a d : Nat) (e2 e : Int) : Bool :=
  let (p, q) := scaleBy a d (e2 - e)
  p % q == 0

/-- frsq of a `.f32` code (R105). -/
def frsq32 (x : Nat) : Nat :=
  match fmtF32.decode x with
  | .nan _ => 0x7FC00000
  | .inf n => if n then 0x7FC00000 else 0
  | .fin n 0 _ _ => fmtF32.infResult n false
  | .fin true _ _ _ => 0x7FC00000
  | .fin false a d e =>
    let k := floorLog2 a d + e
    if multipleOf a d e k && k % 2 == 0 then convert fmtF32 (.fin false 1 1 (-(k / 2))) .rne false
    else
      let ref := (FVal.fin false d a (-e)).sqrt
      bounded Config.frsq x ref [twoUlp ref]

/-- fexp2 of a `.f32` code (R105). -/
def fexp2_32 (x : Nat) : Nat :=
  match fmtF32.decode x with
  | .nan _ => 0x7FC00000
  | .inf n => if n then 0 else 0x7F800000
  | .fin n a d e =>
    let v := FVal.fin n a d e
    let z := v.fix
    let i := z / fixOne
    if multipleOf a d e 0 then
      (if 127 < i then 0x7F800000 else if i < -149 then 0 else convert fmtF32 (.fin false 1 1 i) .rne false)
    else
      let i2 := if i < -200 then -200 else if 200 < i then 200 else i
      let ref := ofFix (fixExp ((z - i * fixOne) * fixLn2 / fixOne)) i2
      bounded Config.fexp2 x ref [twoUlp ref]

/-- flog2 of a `.f32` code (R105). -/
def flog2_32 (x : Nat) : Nat :=
  match fmtF32.decode x with
  | .nan _ => 0x7FC00000
  | .inf n => if n then 0x7FC00000 else 0x7F800000
  | .fin _ 0 _ _ => 0xFF800000
  | .fin true _ _ _ => 0x7FC00000
  | .fin false a d e =>
    let k := floorLog2 a d + e
    if multipleOf a d e k then convert fmtF32 (FVal.ofInt k) .rne false
    else
      let m := (FVal.fin false a d (e - k)).fix
      let ref := ofFix (k * fixOne + (logBits 400 m.toNat 0 : Nat) * ((2 ^ (fixBits - 400) : Nat) : Int)) 0
      bounded Config.flog2 x ref [if k = 0 || k = -1 then absBound (-22) else twoUlp ref]

/-- An angle in turns, cut to one turn, as an angle in radians. -/
def turns (n : Bool) (a d : Nat) (e : Int) : Int :=
  let z := (FVal.fin n a d e).fix % fixOne
  (if fixOne < 2 * z then z - fixOne else z) * 2 * fixPi / fixOne

/-- fsin of a `.f32` code (R105). -/
def fsin32 (x : Nat) : Nat :=
  match fmtF32.decode x with
  | .nan _ => 0x7FC00000
  | .inf _ => 0x7FC00000
  | .fin n a d e =>
    if multipleOf a d e (-1) then fmtF32.sign n
    else bounded Config.fsin x (ofFix (fixSin (turns n a d e)) 0) [absBound (-21)]

/-- fcos of a `.f32` code (R105). -/
def fcos32 (x : Nat) : Nat :=
  match fmtF32.decode x with
  | .nan _ => 0x7FC00000
  | .inf _ => 0x7FC00000
  | .fin n a d e =>
    if multipleOf a d e 0 then 0x3F800000
    else if multipleOf a d e (-1) then 0xBF800000
    else if multipleOf a d e (-2) then 0
    else bounded Config.fcos x (ofFix (fixCos (turns n a d e)) 0) [absBound (-21)]

/-- ftanh of a `.f32` code (R105). -/
def ftanh32 (x : Nat) : Nat :=
  match fmtF32.decode x with
  | .nan _ => 0x7FC00000
  | .inf n => fmtF32.sign n + 0x3F800000
  | .fin n a d e =>
    let z := (FVal.fin false a d e).fix
    if a = 0 then fmtF32.sign n
    else if 9 * fixOne ≤ z then fmtF32.sign n + 0x3F800000
    else
      let q := fixExp (2 * z)
      let ref := FVal.fin n (q - fixOne).natAbs (q + fixOne).natAbs 0
      bounded Config.ftanh x ref [twoUlp ref, absBound (-22)]

/-- An approximation in a type (R105): `.f32` with FTZ; `.f16` and `.bf16` by way of `.f32`, without it. -/
def approx (f32 : Nat → Nat) (ty : Nat) (ftz : Bool) (x : Nat) : Nat :=
  match ty with
  | 13 => fmtF32.flush ftz (f32 (fmtF32.flush ftz (x % 2 ^ 32)))
  | 14 => arith fmtF16 (fmtF32.decode (f32 (arith fmtF32 (fmtF16.decode x) .rne))) .rne
  | _ => arith fmtBf16 (fmtF32.decode (f32 (arith fmtF32 (fmtBf16.decode x) .rne))) .rne

end Sys2Proof.Machine
end

