-- ==== Sys2Proof/Machine/Launch.lean ====
section
/-! DEFINITION. Launch records (10_kernel.md R235, R236, R239), the reads that an agent other than a wave makes at virtual
addresses, and the start of kernels (R248). -/

namespace Sys2Proof.Machine

open Sys2Proof

/-! ### Reads at virtual addresses -/

/-- The seat of an agent of the Lintel, which shares no core's TLB: its die's TLB alone serves it. -/
def lintelSeat : Nat := 4096

/-- The package addresses of a span for an access, piece by piece; the first piece that fails decides. -/
def State.spanPlaces (s : State) (c core : Nat) (need : Need) : List (Nat × Nat) → Except Trap (List (Nat × Nat))
  | [] => .ok []
  | (va, n) :: ps =>
    match s.resolve c core va n need with
    | .error f => .error (f.trap 0 va need.write)
    | .ok p => match State.spanPlaces s c core need ps with
      | .error t => .error t
      | .ok qs => .ok ((p.pa, n) :: qs)

/-- What a read of a span finds: its bytes with their package addresses, or why it waits or fails. -/
def State.readSpan (s : State) (c core va n : Nat) : Except Check (List Byte × List (Nat × Nat)) :=
  match s.spanPlaces c core { read := true, here := true } (vPieces (n / 128 + 2) va n) with
  | .error t => .error (.ofTrap t)
  | .ok ps =>
    let missing : List Stall := (ps.filter (fun p => s.unowned p.1)).map (fun p => { frame := p.1 / 65536, addr := va })
    if !missing.isEmpty then .error (.wait .ownership missing)
    else .ok (ps.flatMap (fun p => s.peek p.1 p.2), ps)

/-- The homes of a span that has been read take the read (13_page.md R294, 19_shutter.md R424). -/
def State.noteRead (s : State) (ps : List (Nat × Nat)) : State := ps.foldl (fun t p => (t.engineRead p.1 p.2).2) s

/-- The `i`-th 64-bit word of some bytes. -/
def wordIn (bs : List Byte) (i : Nat) : Nat := ofBytes ((bs.drop (8 * i)).take 8)

/-! ### Records -/

/-- The bits of a launch record that must be 0 and are not (R235). -/
def recordReserved (bs : List Byte) : Bool :=
  let w1 := wordIn bs 1
  let w2 := wordIn bs 2
  decide (bitsOf w1 63 57 ≠ 0) || decide (bitsOf w1 41 40 ≠ 0) || decide (bitsOf w1 31 24 ≠ 0) ||
  decide (bitsOf w2 63 48 ≠ 0) || decide (bitsOf w2 31 20 ≠ 0) || decide (bitsOf w2 15 14 ≠ 0) ||
  decide (bitsOf w2 7 6 ≠ 0) || decide (bitsOf (wordIn bs 3) 63 32 ≠ 0) ||
  [28, 29, 30, 31].any (fun i => decide (wordIn bs i ≠ 0))

/-- The fields of a launch record, its bindings aside. -/
def recordFields (bs : List Byte) : LaunchRec :=
  let w1 := wordIn bs 1
  let w2 := wordIn bs 2
  { entry := BitVec.ofNat 64 (wordIn bs 0)
    handles := bitsOf w1 56 52
    stash := bitsOf w1 51 42
    vregs := 32 * (bitsOf w1 39 37 + 1)
    waves := bitsOf w1 36 32 + 1
    nblock := bitsOf w1 23 0
    pmask := bitsOf w2 47 32
    nxform := bitsOf w2 19 16
    cluster := bitOf w2 13
    producer := bitsOf w2 12 8
    accbanks := bitsOf w2 5 0
    lmask := BitVec.ofNat 32 (wordIn bs 3)
    preload := (List.range 16).map (fun i => BitVec.ofNat 64 (wordIn bs (4 + i))) }

/-- A record breaks R236, its bindings aside. -/
def recordBad (bs : List Byte) (r : LaunchRec) (dies : Nat) : Bool :=
  decide (r.entry.toNat % 8 ≠ 0) || decide (r.nblock = 0) || decide (512 < r.stash) || decide (16 < r.handles) ||
  decide (32 < r.accbanks) || decide (r.waves ≤ r.producer) || decide (4 < r.nxform) ||
  (r.cluster && decide (r.nblock % 8 ≠ 0)) || recordReserved bs || decide (dies = 3) ||
  (List.range 4).any (fun b =>
    let a := wordIn bs (20 + 2 * b)
    if r.nxform ≤ b then decide (a ≠ 0)
    else decide (bitsOf a 63 18 ≠ 0) || decide (5 ≤ a % 16) || decide (a % 16 ≠ 0 ∧ wordIn bs (21 + 2 * b) % 8 ≠ 0))

/-- Bits of an element of a binding's source. -/
def Binding.bits (b : Binding) : Nat :=
  match b.kind with
  | 1 => typeWidth (16 + b.fmt)
  | 3 => 4
  | _ => 8 * 2 ^ b.fmt

/-- Bytes of a binding's output (R240). -/
def Binding.outBytes (b : Binding) : Nat := b.rows * b.cols * (if b.kind = 1 ∨ b.kind = 3 then 2 else 2 ^ b.fmt)

/-- A binding breaks R239 against a stash of so many KiB. -/
def Binding.bad (b : Binding) (stash : Nat) : Bool :=
  (match b.kind with
   | 1 => decide (4 < b.fmt) || decide (b.cols % 32 ≠ 0)
   | 2 => decide (3 < b.fmt) || decide (b.aux ≠ 0)
   | 3 => decide (b.fmt < 5) || decide (7 < b.fmt) || decide (b.cols % 2 ^ b.fmt ≠ 0)
   | _ => decide (3 < b.fmt)) ||
  decide (b.rows = 0) || decide (b.cols = 0) || decide (1024 * stash < b.dst + b.outBytes) ||
  ((b.kind == 2 || b.kind == 4) && decide (b.src % 2 ^ b.fmt ≠ 0))

/-- A binding from its first word and the bytes of its descriptor. -/
def bindingOf (a : Nat) (bs : List Byte) : Binding :=
  let w2 := wordIn bs 2
  let w3 := wordIn bs 3
  { kind := a % 16, fmt := bitsOf a 7 4, dst := 1024 * bitsOf a 17 8, src := wordIn bs 0, aux := wordIn bs 1,
    pitch := bitsOf w2 63 32, cols := bitsOf w2 31 16, rows := w2 % 65536, astride := bitsOf w3 63 32,
    bstride := w3 % 2 ^ 32 }

/-- Reads the descriptors of a record's bindings; kind 0 binds nothing. -/
def State.readBindings (s : State) (c core : Nat) (bs : List Byte) :
    List Nat → Except Check (List Binding × List (Nat × Nat))
  | [] => .ok ([], [])
  | b :: rest =>
    let a := wordIn bs (20 + 2 * b)
    if a % 16 = 0 then State.readBindings s c core bs rest
    else match s.readSpan c core (wordIn bs (21 + 2 * b)) 32 with
      | .error e => .error e
      | .ok (ds, ps) => match State.readBindings s c core bs rest with
        | .error e => .error e
        | .ok (xs, qs) => .ok (bindingOf a ds :: xs, ps ++ qs)

/-- What a launch record gives: its fields, or none where it is rejected (R236), with the addresses read. -/
def State.readRecord (s : State) (c core va : Nat) : Except Check (Option LaunchRec × List (Nat × Nat)) :=
  if va % 64 ≠ 0 then .error (.trap { code := 4, addr := va, step := 1 })
  else match s.readSpan c core va 256 with
    | .error e => .error e
    | .ok (bs, ps) =>
      let r := recordFields bs
      if recordBad bs r (bitsOf (s.ctxAt c).rect.toNat 17 16) then .ok (none, ps)
      else match s.readBindings c core bs (List.range r.nxform) with
        | .error e => .error e
        | .ok (xs, qs) =>
          if xs.any (fun b => b.bad r.stash) then .ok (none, ps ++ qs) else .ok (some { r with bindings := xs }, ps ++ qs)

/-! ### The kernel table -/

/-- The entries of a context's kernel table that are not FREE (R249). -/
def Context.kernelsInUse (x : Context) : Nat := (x.kernels.filter (fun (_, k) => decide (k.st ≠ 0))).length

/-- The lowest FREE entry of a context's kernel table. -/
def Context.freeKernel (x : Context) : Option Nat :=
  (List.range 1024).find? (fun i => decide ((Cells.get {} x.kernels i).st = 0))

/-- The entry that a handle names outside FREE (R248, R253). -/
def Context.kernelOf (x : Context) (h : Nat) : Option (Nat × KernelEntry) :=
  let i := h % 65536
  let k := Cells.get {} x.kernels i
  if bitsOf h 63 48 = 0 ∧ i < 1024 ∧ k.st ≠ 0 ∧ k.gen = bitsOf h 47 16 then some (i, k) else none

/-- Enters a launch; a root is its own root. -/
def State.addLaunch (s : State) (l : Launch) : Nat × State :=
  let (id, s1) := s.fresh
  let l1 : Launch := match l.parent with
    | none => { l with root := id, started := true }
    | some _ => { l with started := true }
  (id, { s1 with launches := Cells.put s1.launches id l1 })

/-- The launch whose block a wave belongs to (R252: a thread that no launch started has none). -/
def State.childOf (s : State) (k : Nat) : Option (Nat × Launch) :=
  match (s.waveAt k).block with
  | none => none
  | some b => match Cells.find s.blocks b with
    | none => none
    | some blk => (Cells.find s.launches blk.launch).map (fun l => (blk.launch, l))

/-- launch with a record that was read (R251): the state and the value of sd. -/
def State.launchKernel (s : State) (k : Nat) (rec? : Option LaunchRec) : State × Nat :=
  let c := (s.waveAt k).ctx
  let x := s.ctxAt c
  let parent := s.childOf k
  let depth := match parent with
    | none => 0
    | some (_, p) => p.depth + 1
  match rec?, x.freeKernel with
  | none, _ => (s, 2)
  | some r, free =>
    if bitsOf x.krnLimit.toNat 20 16 < depth then (s, 2)
    else match free with
      | none => (s, 1)
      | some i =>
        if bitsOf x.krnLimit.toNat 10 0 ≤ x.kernelsInUse then (s, 1)
        else
          let l : Launch := match parent with
            | none => { ctx := c, queue := 0, entry := some i, root := 0, fields := r }
            | some (id, p) => { ctx := c, queue := p.queue, entry := some i, parent := some id, root := p.root,
                                depth := depth, fields := r }
          let (id, s1) := s.addLaunch l
          let old := (Cells.get {} x.kernels i).gen
          let gen := if old = 2 ^ 32 - 1 then 1 else old + 1
          (s1.modCtx c (fun y =>
            { y with kernels := Cells.set {} y.kernels i { st := 1, gen := gen, launch := id }
                     krnPeak := Nat.max y.krnPeak (x.kernelsInUse + 1) }), kernelHandle gen i)

end Sys2Proof.Machine
end

