-- ==== Sys2Proof/Machine/Dispatcher.lean ====
section
/-! DEFINITION. The dispatchers: the choice of a queue and the batch it is granted (09_queue.md R231, 10_kernel.md R244),
the placement of blocks and their waves (R242, R243, R245, 05_wave.md R143), and the prologue engine (R239 to R241). -/

namespace Sys2Proof.Machine

open Sys2Proof

/-! ### Ready blocks -/

/-- The blocks of a launch that are ready and not handed out. -/
def Launch.ready (l : Launch) : Nat :=
  if l.started && l.killed.isNone && !l.ended then l.returned.length + (l.fields.nblock - l.nextBlock) else 0

/-- Enters a number into a rising list. -/
def insertNat (x : Nat) : List Nat → List Nat
  | [] => [x]
  | y :: ys => if x ≤ y then x :: y :: ys else y :: insertNat x ys

/-- A list of numbers in rising order. -/
def sortNat (xs : List Nat) : List Nat := xs.foldr insertNat []

/-- The next `n` ready blocks of a launch by increasing index, and the launch without them. -/
def Launch.take (l : Launch) (n : Nat) : List Nat × Launch :=
  let back := sortNat l.returned
  let old := back.take n
  let new := (List.range (n - old.length)).map (l.nextBlock + ·)
  (old ++ new, { l with returned := back.drop n, nextBlock := l.nextBlock + new.length })

/-- The current launch of a queue: the earliest with ready blocks. -/
def State.currentLaunch (s : State) (c q : Nat) : Option (Nat × Launch) :=
  s.launches.find? (fun (_, l) => l.ctx == c && l.queue == q && decide (0 < l.ready))

/-- The die a batch of a context goes to, and the places it has reported (R244). -/
def Context.batchDie (x : Context) : Nat × Nat :=
  match bitsOf x.rect.toNat 17 16 with
  | 0 => (0, x.places0)
  | 1 => (1, x.places1)
  | 2 => if x.places1 ≤ x.places0 then (0, x.places0) else (1, x.places1)
  | _ => (0, 0)

/-- The size of the batch a queue would be granted (R244): whole groups of eight of a cluster launch. -/
def State.batchSize (s : State) (c q : Nat) : Nat :=
  let x := s.ctxAt c
  if x.st ≠ .running then 0
  else match s.currentLaunch c q with
    | none => 0
    | some (_, l) =>
      let n := Nat.min 64 (Nat.min x.batchDie.2 l.ready)
      if l.fields.cluster then n / 8 * 8 else n

/-- The queues with a ready block and a place for it, by rising context and queue. -/
def State.eligible (s : State) : List (Nat × Nat) :=
  let qs := s.launches.foldl (fun (m : Cells Nat) (_, l) =>
    if 0 < l.ready then Cells.put m (l.ctx * 64 + l.queue) 0 else m) []
  (qs.map (fun (k, _) => (k / 64, k % 64))).filter (fun (c, q) => decide (0 < s.batchSize c q))

/-- A queue's quantum (R225): 0 acts as 2^32. -/
def Queue.quantum (q : Queue) : Nat := if bitsOf q.cfg.toNat 47 16 = 0 then 2 ^ 32 else bitsOf q.cfg.toNat 47 16

/-- How often the loop of R231 adds its quantum to a queue before its deficit is positive. -/
def Queue.rounds (q : Queue) : Nat := if 0 < q.deficit then 0 else (-q.deficit).toNat / q.quantum + 1

/-- A queue after so many rounds of R231. -/
def Queue.replenish (q : Queue) (n : Nat) : Queue :=
  if n = 0 then q
  else
    let d := q.deficit + (n * q.quantum : Nat)
    { q with deficit := if (q.quantum : Int) < d then q.quantum else d }

/-- The choice of R231 within one level: the deficits after its rounds, and the queue. -/
def State.chooseLevel (s : State) (level : Nat) (es : List (Nat × Nat)) : Option (State × Nat × Nat) :=
  let queue (c q : Nat) : Queue := (s.ctxAt c).queueAt q
  match es with
  | [] => none
  | (c0, q0) :: rest =>
    let n := rest.foldl (fun m (c, q) => Nat.min m (queue c q).rounds) (queue c0 q0).rounds
    let s1 : State := es.foldl (fun t (c, q) => t.modQueue c q (fun y => y.replenish n)) s
    let good := es.filter (fun (c, q) => decide (0 < ((s1.ctxAt c).queueAt q).deficit))
    let last := Cells.get 0 s1.lastServed level
    let pick := match good.find? (fun (c, q) => decide (last < c * 64 + q + 1)) with
      | some e => some e
      | none => good.head?
    pick.map (fun (c, q) => ({ s1 with lastServed := Cells.set 0 s1.lastServed level (c * 64 + q + 1) }, c, q))

/-- The choice of R231 over the levels. -/
def State.choose (s : State) : Option (State × Nat × Nat) :=
  let es := s.eligible
  (List.range 4).findSome? (fun level =>
    s.chooseLevel level (es.filter (fun (c, q) => bitsOf ((s.ctxAt c).queueAt q).cfg.toNat 1 0 == level)))

/-- A queue that has no ready block keeps no positive deficit (R231). -/
def State.settleDeficits (s : State) : State :=
  s.ctxs.foldl (fun t (c, x) => x.queues.foldl (fun u (q, y) =>
    if 0 < y.deficit ∧ (s.currentLaunch c q).isNone then u.modQueue c q (fun z => { z with deficit := 0 }) else u) t) s

/-- DISPATCH_CHOOSE (R231, R244): a queue is chosen, and its batch goes to a die. -/
def State.dispatch (s : State) : State :=
  match s.choose with
  | none => s
  | some (s1, c, q) =>
    match s1.currentLaunch c q with
    | none => s1
    | some (id, l) =>
      let (die, _) := (s1.ctxAt c).batchDie
      let n := s1.batchSize c q
      let (bs, l1) := l.take n
      ({ s1 with launches := Cells.put s1.launches id l1
                 dieLists := Cells.set [] s1.dieLists die (Cells.get [] s1.dieLists die ++ bs.map (fun b => (id, b))) }
        ).modCtx c (fun x => if die = 0 then { x with places0 := x.places0 - n } else { x with places1 := x.places1 - n })

/-! ### Fitting -/

/-- The wave slots of a core that hold a wave or are granted to a block, each with its v registers. -/
def State.slotUse (s : State) (core : Nat) : List (Nat × Nat) :=
  let placed := s.waves.filterMap (fun (_, w) => if w.core = core then some (w.slot, w.nv) else none)
  let granted := s.blocks.flatMap (fun (_, b) =>
    if b.core = core ∧ !b.prologue then
      b.slots.map (fun n => (n, ((Cells.find s.launches b.launch).map (·.fields.vregs)).getD 32))
    else [])
  placed ++ granted.filter (fun g => !placed.any (fun p => p.1 == g.1))

/-- The v registers in use in a pane. -/
def paneRegs (slots : List (Nat × Nat)) (pane : Nat) : Nat :=
  slots.foldl (fun n (k, r) => if k / 32 = pane then n + r else n) 0

/-- The pane with the most free v registers, the lower of equals (R243). -/
def freestPane (slots : List (Nat × Nat)) : Nat :=
  [1, 2, 3].foldl (fun p q => if paneRegs slots q < paneRegs slots p then q else p) 0

/-- Slots for `n` more waves from wave `w` on (R243): none where one does not fit. -/
def placeSlots (vregs p : Nat) : Nat → Nat → List (Nat × Nat) → Option (List Nat)
  | 0, _, _ => some []
  | n + 1, w, slots =>
    let pane := (p + w) % 4
    match (List.range 32).find? (fun k => !slots.any (fun x => x.1 == pane * 32 + k)) with
    | none => none
    | some k =>
      if 2048 < paneRegs slots pane + vregs then none
      else (placeSlots vregs p n (w + 1) ((pane * 32 + k, vregs) :: slots)).map (fun ks => (pane * 32 + k) :: ks)

/-- The lowest free run of stash tiles of a core, by its first tile (R242). -/
def State.stashRun (s : State) (core tiles : Nat) : Option Nat :=
  let used := s.blocks.filterMap (fun (_, b) => if b.core = core then some (b.stashBase / 1024, b.stashTiles) else none)
  let starts := 0 :: used.map (fun (a, n) => a + n)
  (sortNat starts).find? (fun a => decide (a + tiles ≤ 512) && used.all (fun (b, n) =>
    decide (tiles = 0) || decide (n = 0) || decide (a + tiles ≤ b) || decide (b + n ≤ a)))

/-- The FREE accumulator banks of a core, lowest first. -/
def State.freeBanks (s : State) (core : Nat) : List Nat :=
  (List.range 32).filter (fun k => (Cells.find s.banks (bankKey core k)).isNone)

/-- What a core would grant to a block of a launch (R242): wave slots, stash tile, banks. -/
def State.fit (s : State) (core : Nat) (r : LaunchRec) : Option (List Nat × Nat × List Nat) :=
  let use := s.slotUse core
  let banks := s.freeBanks core
  if 16 ≤ s.residentBlocks core || decide (banks.length < r.accbanks) then none
  else match placeSlots r.vregs (freestPane use) r.waves 0 use, s.stashRun core r.stash with
    | some slots, some tile => some (slots, tile, banks.take r.accbanks)
    | _, _ => none

/-- The resident waves of a core, those granted a slot among them. -/
def State.residentWaves (s : State) (core : Nat) : Nat := (s.slotUse core).length

/-- The first of the least loaded candidates. -/
def leastLoaded (load : Nat → Nat) : List Nat → Option Nat
  | [] => none
  | x :: xs => match leastLoaded load xs with
    | none => some x
    | some y => if load x ≤ load y then some x else some y

/-! ### Placing -/

/-- The register values of a placed wave (03_encoding.md R69, 10_kernel.md R237). -/
def LaunchRec.regs (r : LaunchRec) : RegFile :=
  { m := Cells.set 0 [] 0 (if r.lmask = 0 then 0xFFFFFFFF else r.lmask)
    s := (List.range 16).foldl (fun m i =>
      if bitOf r.pmask i then Cells.set 0 m i (r.preload.getD i 0) else m) [] }

/-- Every lane at one address. -/
def atAll (a : DWord) : Cells DWord := (List.range 32).foldl (fun m l => Cells.set 0 m l a) []

/-- The waves of a pane's active set. -/
def State.activeCount (s : State) (core pane : Nat) : Nat :=
  s.waves.foldl (fun n (_, w) => if w.core = core ∧ w.slot / 32 = pane ∧ w.life = .active then n + 1 else n) 0

/-- How a wave that comes onto a core begins (05_wave.md R142, R143; 08_context.md R219). -/
def State.startLife (s : State) (c core slot : Nat) : Life :=
  if (s.ctxAt c).halt then .halted else if s.activeCount core (slot / 32) < 8 then .active else .pending

/-- Places wave `wib` of a block. -/
def State.placeWave (s : State) (b : Nat) (blk : Block) (r : LaunchRec) (wib slot : Nat) (life : Life) : State :=
  let (age, s1) := s.fresh
  let w : Wave :=
    { core := blk.core, slot := slot, ctx := blk.ctx, block := some b, wib := wib, nv := r.vregs, age := age, life := life,
      regs := r.regs, pcs := atAll r.entry, entries := atAll r.entry }
  { s1 with waves := Cells.put s1.waves (waveKey blk.core slot) w }

/-- Places every wave of a block whose prologue is done (R143, R243). -/
def State.placeWaves (s : State) (b : Nat) : State :=
  match Cells.find s.blocks b with
  | none => s
  | some blk => match Cells.find s.launches blk.launch with
    | none => s
    | some l =>
      let s1 : State := { s with blocks := Cells.put s.blocks b { blk with prologue := true } }
      blk.slots.zipIdx.foldl (fun t (slot, w) =>
        t.placeWave b blk l.fields w slot (t.startLife blk.ctx blk.core slot)) s1

/-- Grants a core's resources to a block and starts it, without the lines that the core's L0 kept for others (06_memory_access.md
R160; 10_kernel.md R251: what the launching wave has stored is seen): its prologue where it has bindings, else its waves. A kernel with
its first block placed is RUNNING (R248). -/
def State.placeBlock (s : State) (launch index core : Nat) (l : Launch) (g : List Nat × Nat × List Nat) : State :=
  let (b, s1) := s.fresh
  let blk : Block :=
    { ctx := l.ctx, launch := launch, index := index, core := core, stashBase := 1024 * g.2.1, stashTiles := l.fields.stash,
      handleCount := l.fields.handles, producer := l.fields.producer, slots := g.1, since := s.cycle }
  let s2 : State := { s1 with
    blocks := Cells.put s1.blocks b blk
    l0 := s1.l0.filter (fun x => x.core != core || x.ro == some launch)
    banks := g.2.2.foldl (fun m k => Cells.put m (bankKey core k) (.granted b)) s1.banks
    launches := Cells.modify s1.launches launch (fun x => { x with placed := x.placed + 1 }) }
  let s3 := match l.entry with
    | none => s2
    | some e => s2.modCtx l.ctx (fun x =>
        { x with kernels := Cells.modify x.kernels e (fun k => if k.st = 1 then { k with st := 2 } else k) })
  if l.fields.bindings.isEmpty then s3.placeWaves b else s3.post (.prologue b)

/-- The cores of a context's rectangle on a die, in rising order. -/
def Context.dieCores (x : Context) (die : Nat) : List Nat := x.bricorCores.filter (fun k => k / 768 == die)

/-- The blocks at the head of a die's list that are placed together: one, or the group of a cluster launch (R238). Blocks
of a halted context are passed over (08_context.md R219). -/
def State.headOf (s : State) (die : Nat) : Option (Nat × Launch × List Nat) :=
  let xs := Cells.get [] s.dieLists die
  let live := xs.filter (fun (id, _) => match Cells.find s.launches id with
    | none => false
    | some l => decide ((s.ctxAt l.ctx).st = .running) && !(s.ctxAt l.ctx).halt)
  match live with
  | [] => none
  | (id, b) :: _ => (Cells.find s.launches id).map (fun l =>
      (id, l, if l.fields.cluster then sortNat ((live.filter (fun y => y.1 == id && y.2 / 8 == b / 8)).map (·.2)) else [b]))

/-- The core a block goes to, or position 0 of the cluster its group goes to (R245). -/
def State.targetOf (s : State) (die : Nat) (l : Launch) : Option Nat :=
  let cores := (s.ctxAt l.ctx).dieCores die
  if l.fields.cluster then
    let heads := cores.filter (fun k => k % 8 == 0)
    leastLoaded (fun k => (List.range 8).foldl (fun n p => n + s.residentWaves (k + p)) 0)
      (heads.filter (fun k => (List.range 8).all (fun p => (s.fit (k + p) l.fields).isSome)))
  else leastLoaded s.residentWaves (cores.filter (fun k => (s.fit k l.fields).isSome))

/-- BLOCK_PLACE (R245): the next block, or group, of a die's list is placed where it fits. -/
def State.placeNext (s : State) (die : Nat) : State :=
  match s.headOf die with
  | none => s
  | some (id, l, bs) => match s.targetOf die l with
    | none => s
    | some core =>
      let rest := (Cells.get [] s.dieLists die).filter (fun y => !(y.1 == id && bs.contains y.2))
      let s1 : State := { s with dieLists := Cells.set [] s.dieLists die rest }
      bs.foldl (fun t b =>
        let k := if l.fields.cluster then core + b % 8 else core
        match t.fit k l.fields with
        | none => t
        | some g => t.placeBlock id b k l g) s1

/-- A die's list has a block that can be placed. -/
def State.canPlace (s : State) (die : Nat) : Bool :=
  match s.headOf die with
  | none => false
  | some (_, l, _) => (s.targetOf die l).isSome

/-! ### The prologue engine -/

/-- A source of a prologue: the bytes of a run, aligned as its elements are (R240). -/
def State.sourceRun (s : State) (c core va n align : Nat) : Except Check (List Byte) :=
  let a := va % 2 ^ 64
  if a % align ≠ 0 then .error (.trap { code := 4, addr := a, step := 1 })
  else match s.readSpan c core a n with
    | .error e => .error e
    | .ok (bs, _) => .ok bs

/-- Applies a read to rows 0 to `n` − 1 and joins what it gives. -/
def joinRows (f : Nat → Except Check (List Byte)) : Nat → Except Check (List Byte)
  | 0 => .ok []
  | n + 1 => match joinRows f n with
    | .error e => .error e
    | .ok xs => match f n with
      | .error e => .error e
      | .ok ys => .ok (xs ++ ys)

/-- An element of `w` bits of a row (R32). -/
def elementBits (bs : List Byte) (w i : Nat) : Nat := ofBytes ((bs.drop (w * i / 8)).take 3) / 2 ^ (w * i % 8) % 2 ^ w

/-- EXPAND of one element (R240). -/
def expandElement (t : Fmt) (code scale : Nat) : List Byte :=
  toBytes 2 (convert fmtBf16 ((t.decode code).mul (decodeE8m0 scale)) .rne false)

/-- DEQ4 of one element (R240). -/
def dequantElement (code scale : Nat) : List Byte :=
  toBytes 2 (arith fmtBf16 ((FVal.ofInt (signedOf 4 code)).mul (fmtBf16.decode scale)) .rne)

/-- The output of a binding for block `i` (R240). -/
def State.bindingOutput (s : State) (c core i : Nat) (b : Binding) : Except Check (List Byte) :=
  let src := b.src + i * b.bstride
  let aux := b.aux + i * b.astride
  let esz := 2 ^ b.fmt
  let rowBytes := b.cols * b.bits / 8
  match b.kind with
  | 1 => joinRows (fun r => match s.sourceRun c core (src + r * b.pitch) rowBytes 1,
        s.sourceRun c core (aux + r * b.cols / 32) (b.cols / 32) 1 with
      | .ok es, .ok xs => .ok ((List.range b.cols).flatMap (fun k =>
          expandElement ((fmtOf (16 + b.fmt)).getD fmtE4m3) (elementBits es b.bits k) (xs.getD (k / 32) 0).toNat))
      | .error e, _ => .error e
      | _, .error e => .error e) b.rows
  | 2 => match joinRows (fun r => s.sourceRun c core (src + r * b.pitch) rowBytes esz) b.rows with
    | .error e => .error e
    | .ok bs => .ok ((List.range b.cols).flatMap (fun k => (List.range b.rows).flatMap (fun r =>
        (bs.drop (r * rowBytes + k * esz)).take esz)))
  | 3 => joinRows (fun r => match s.sourceRun c core (src + r * b.pitch) rowBytes 1,
        s.sourceRun c core (aux + 2 * (r * b.cols / esz)) (2 * (b.cols / esz)) 2 with
      | .ok es, .ok xs => .ok ((List.range b.cols).flatMap (fun k =>
          dequantElement (elementBits es 4 k) (ofBytes ((xs.drop (2 * (k / esz))).take 2))))
      | .error e, _ => .error e
      | _, .error e => .error e) b.rows
  | _ => joinRows (fun r => match s.sourceRun c core (aux + 4 * r) 4 4 with
      | .error e => .error e
      | .ok n => s.sourceRun c core (src + ofBytes n * b.pitch) rowBytes esz) b.rows

/-- Runs the bindings of a block in order (R240). -/
def State.runBindings (s : State) (b : Nat) (blk : Block) : List Binding → State × Check
  | [] => (s, .ok)
  | x :: xs => match s.bindingOutput blk.ctx blk.core blk.index x with
    | .error e => (s, e)
    | .ok bs => State.runBindings (s.stashPut b x.dst bs) b blk xs

/-- A fault of a prologue leaves the producer wave SUSPENDED with a record (R241). -/
def State.failPrologue (s : State) (b : Nat) (blk : Block) (l : Launch) (t : Trap) : State :=
  let slot := blk.slots.getD blk.producer 0
  let k := waveKey blk.core slot
  let s2 := s.placeWave b blk l.fields blk.producer slot .suspended
  let w := s2.waveAt k
  let r : Record :=
    [BitVec.ofNat 64 (slot * 2 ^ 41 + t.code * 2 ^ 32 + b2n t.guard * 2 ^ 25 + b2n t.unbacked * 2 ^ 23 + t.step * 2 ^ 18),
     l.fields.entry, BitVec.ofNat 64 t.addr, BitVec.ofNat 64 t.aux,
     BitVec.ofNat 64 ((s2.ctxAt w.ctx).agentOf w.core * 2 ^ 32), 0, 0, BitVec.ofNat 64 s2.cycle]
  (s2.modWave k (fun u => { u with faultCode := t.code })).queueRecord blk.ctx r

/-- Blocks whose prologue has not run to its end and has not faulted. -/
def State.openPrologues (s : State) : List (Nat × Block) :=
  s.blocks.filter (fun (b, blk) => !blk.prologue && !blk.retired && !s.waves.any (fun (_, w) => w.block == some b))

/-- A prologue runs again, or those behind it now run (R241). -/
def State.retryPrologues (s : State) : State := s.openPrologues.foldl (fun t (b, _) => t.post (.prologue b)) s

/-- The core's prologue engine has still to run the prologue of a block placed earlier (R241). -/
def State.prologueBehind (s : State) (b core : Nat) : Bool :=
  s.openPrologues.any (fun (i, y) => decide (i < b) && y.core == core && decide ((s.ctxAt y.ctx).st = .running))

/-- PROLOGUE (R241): the bindings of a block run, then its waves are placed; one that stalls for the ownership of a frame
runs again after the hand-over. -/
def State.runPrologue (s : State) (b : Nat) : State :=
  match Cells.find s.blocks b with
  | none => s
  | some blk => match Cells.find s.launches blk.launch with
    | none => s
    | some l =>
      if blk.prologue || decide ((s.ctxAt blk.ctx).st ≠ .running) || s.prologueBehind b blk.core then s
      else
        let s0 := if blk.begun then s else s.modBlock b (fun x => { x with begun := true, since := s.cycle })
        match s0.runBindings b blk l.fields.bindings with
        | (s1, .ok) => (s1.placeWaves b).retryPrologues
        | (s1, .wait _ xs) => match s1.overdue xs with
          | some x => ((s1.endStall x).failPrologue b blk l (s1.stallTrap x)).retryPrologues
          | none => s1.requestFrames xs
        | (s1, .trap t) => (s1.failPrologue b blk l t).retryPrologues

/-- Reruns the prologue of a block whose producer wave RESUME releases (R241): the wave is placed again with the others. -/
def State.rerunPrologue (s : State) (b : Nat) : State :=
  ({ s with waves := s.waves.filter (fun (_, w) => w.block != some b) } : State).post (.prologue b)

end Sys2Proof.Machine
end

