-- ==== Sys2Proof/Machine/Kernel.lean ====
section
/-! DEFINITION. launch, joink and kq (10_kernel.md R250 to R255), the events of the dispatchers (09_queue.md R231,
10_kernel.md R241, R244, R245), and the kernel limits (R249). -/

namespace Sys2Proof.Machine

open Sys2Proof

/-! ### Shared operations -/

/-- The active lanes wait at the instruction on an object; its destination sd is empty meanwhile (12_barrier.md R273). -/
def State.waitOn (s : State) (e : Env) (obj : WaitObj) : State :=
  s.modWave e.key (fun w =>
    let sd := match srcOf e.f.fd with
      | .s n => sIndex w.trapMode n
      | _ => 0
    let u := w.mark [] [sd] true
    { u with waits := u.waits ++ [{ lanes := e.act, pc := e.pc, size := e.size, sd := sd, obj := obj }] })

/-- The encoding of launch, joink and kq (R250). -/
def kernelSpec (qBits : Nat) : OpSpec :=
  { fd := .dest (Gen.sOnly 11), fa := .source (Gen.sLit 11 0), fc := .quals, qBits := qBits }

/-- The state code that kq writes (R253). -/
def Context.kernelCode (x : Context) (h : Nat) : Nat :=
  match x.kernelOf h with
  | none => 6
  | some (_, k) => k.st

/-- joink (R253) for a handle. -/
def State.join (s : State) (e : Env) (h : Nat) : State :=
  let c := (s.waveAt e.key).ctx
  match (s.ctxAt c).kernelOf h with
  | none => s.longS e 3
  | some (i, k) =>
    if k.st < 3 then s.waitOn e (.kernel h)
    else
      let s1 := (s.acquire (s.waveAt e.key).core 3).modCtx c (fun x =>
        { x with kernels := Cells.set {} x.kernels i { gen := k.gen } })
      s1.longS e (joinStatus k.st)

/-- kq.kill (R253): a QUEUED or RUNNING kernel is killed. -/
def State.killKernel (s : State) (c h : Nat) : State :=
  match (s.ctxAt c).kernelOf h with
  | none => s
  | some (_, k) => if k.st < 3 then s.killLaunch k.launch 5 else s

/-- A write of KRN_LIMIT (R249). -/
def State.writeKrnLimit (s : State) (c : Nat) (v : DWord) : State :=
  let maxk := bitsOf v.toNat 10 0
  let depth := bitsOf v.toNat 20 16
  if maxk = 0 ∨ 1024 < maxk ∨ depth = 0 ∨ 16 < depth then s.modCtx c (fun x => { x with cmdst := 5 })
  else s.modCtx c (fun x => { x with krnLimit := BitVec.ofNat 64 (depth * 65536 + maxk) })

/-! ### Meanings -/

/-- launch (R251, R252). -/
def execLaunch (f : FWord) (s : State) : Host.Outcome State Fault Refusal :=
  runWord (kernelSpec 0) f s (fun e t =>
    let va := t.uvalue e 11 f.fa
    let read (u : State) := u.readRecord (u.waveAt e.key).ctx (u.waveAt e.key).core va
    t.atBoundary e
      (fun u => match read u with
        | .error (.trap x) => .trap { x with lane := lowestLane e.act }
        | .error k => k
        | .ok _ => .ok)
      (fun u => match read u with
        | .error _ => u
        | .ok (r, ps) =>
          let (v, x) := (u.noteRead ps).launchKernel e.key r
          v.longS e x))

/-- joink (R253). -/
def execJoink (f : FWord) (s : State) : Host.Outcome State Fault Refusal :=
  runWord (kernelSpec 0) f s (fun e t =>
    t.atBoundary e (fun _ => .ok) (fun u => u.join e (t.uvalue e 11 f.fa)))

/-- kq.query (R253). -/
def execKqQuery (f : FWord) (s : State) : Host.Outcome State Fault Refusal :=
  runWord (kernelSpec 1) f s (fun e t =>
    t.atBoundary e (fun _ => .ok) (fun u => u.longS e ((u.ctxOf e).kernelCode (t.uvalue e 11 f.fa))))

/-- kq.kill (R253): the kernel may be the issuing wave's own. -/
def execKqKill (f : FWord) (s : State) : Host.Outcome State Fault Refusal :=
  runWord (kernelSpec 1) f s (fun e t =>
    let h := t.uvalue e 11 f.fa
    let c := (t.waveAt e.key).ctx
    let u := t.atBoundary e (fun _ => .ok) (fun u => u.longS e ((u.ctxOf e).kernelCode h))
    if u.last = .issued then u.killKernel c h else u)

/-- DISPATCH_CHOOSE (09_queue.md R231, R244). -/
def execDispatchChoose (s : State) : Host.Outcome State Fault Refusal := .next s.dispatch

/-- BLOCK_PLACE (R245). -/
def execBlockPlace (die : Nat) (s : State) : Host.Outcome State Fault Refusal := .next (s.placeNext die)

/-- PROLOGUE (R241). -/
def execPrologue (block : Nat) (s : State) : Host.Outcome State Fault Refusal := .next (s.runPrologue block)

/-- FREE_PLACE_REPORT (R244). -/
def execFreePlaceReport (die : Nat) (s : State) : Host.Outcome State Fault Refusal := .next (s.reportPlaces die)

/-- KRN_LIMIT_WRITE (R249). -/
def execKrnLimitWrite (ctx : Nat) (value : DWord) (s : State) : Host.Outcome State Fault Refusal :=
  .next (s.writeKrnLimit ctx value)

end Sys2Proof.Machine
end

