-- ==== Sys2Proof/Machine/Queue.lean ====
section
/-! DEFINITION. Queues (09_queue.md): their states and registers (R223 to R225), acceptance and execution of entries (R226 to
R230), and sig, waitsig and qpush (R232 to R234). -/

namespace Sys2Proof.Machine

open Sys2Proof

/-! ### Signal words -/

/-- The operation of sig and of a SIGNAL entry, coded as in R168: add, exchange, unsigned maximum. -/
def signalOp (op : Nat) : Nat :=
  match op with
  | 0 => 0
  | 1 => 6
  | _ => 2

/-- The new value of a signal word (R233). -/
def signalNew (op old v : Nat) : Nat := atomicNew (signalOp op) 0 7 old v 0

/-! ### States and registers -/

/-- ENABLE (R223). -/
def State.queueEnable (s : State) (c q : Nat) : State :=
  s.modQueue c q (fun y => if y.st = .off then
    { y with st := .active, err := 0, seen := 0, done := 0, doorbell := 0, cons := 0, deficit := 0, issued := 0 } else y)

/-- PAUSE (R223). -/
def State.queuePause (s : State) (c q : Nat) : State :=
  s.modQueue c q (fun y => if y.st = .active then { y with st := .paused } else y)

/-- RESUME (R223). -/
def State.queueResume (s : State) (c q : Nat) : State :=
  s.modQueue c q (fun y => if y.st = .paused then { y with st := .active } else y)

/-- DISABLE (R223). -/
def State.queueDisable (s : State) (c q : Nat) : State :=
  s.modQueue c q (fun y => if y.st = .active ∨ y.st = .paused then { y with st := .off } else y)

/-- CLEAR (R223): the cause goes with the state. -/
def State.queueClear (s : State) (c q : Nat) : State :=
  s.modQueue c q (fun y => if y.st = .error then { y with st := .off, err := 0 } else y)

/-- A command written to QUEUE_CTL; other codes are ignored. -/
def State.queueCommand (s : State) (c q cmd : Nat) : State :=
  match cmd with
  | 1 => s.queueEnable c q
  | 2 => s.queuePause c q
  | 3 => s.queueResume c q
  | 4 => s.queueDisable c q
  | 5 => s.queueClear c q
  | _ => s

/-- A doorbell write (R229); those of the host are ignored where DEV is 1. One outside the window takes a PAUSED queue to ERROR too,
as R229 says of every queue, though R223 lists no such way out of PAUSED (log 77). -/
def State.queueDoorbell (s : State) (c q v : Nat) (host : Bool) : State :=
  s.modQueue c q (fun y =>
    if (y.st ≠ .active ∧ y.st ≠ .paused) ∨ (host ∧ bitOf y.cfg.toNat 2) then y
    else if (v + 2 ^ 32 - y.seen) % 2 ^ 32 ≤ queueSize y.ring then { y with doorbell := v % 2 ^ 32 }
    else { y with st := .error, err := 3 })

/-- A write of QUEUE_CPL_CONS (R225, R228). -/
def State.queueCons (s : State) (c q v : Nat) : State :=
  s.modQueue c q (fun y => if y.st = .off then y else { y with cons := v % 2 ^ 32 })

/-- The code of a queue's state (R223). -/
def QueueState.code : QueueState → Nat
  | .off => 0
  | .active => 1
  | .paused => 2
  | .error => 3

/-- Register k of a queue (R225); QUEUE_CTL reads nothing. -/
def Queue.read (y : Queue) (k : Nat) : DWord :=
  match k with
  | 0 => y.ring
  | 1 => y.cpl
  | 2 => y.cfg
  | 4 => BitVec.ofNat 64 (wrapI 48 y.deficit * 65536 + y.err * 256 + y.st.code)
  | 5 => BitVec.ofNat 64 y.doorbell
  | 6 => BitVec.ofNat 64 y.seen
  | 7 => BitVec.ofNat 64 y.done
  | 8 => BitVec.ofNat 64 y.cons
  | _ => 0

/-- A write of register k of a queue, by the host or by sysw (R225). -/
def State.queueWrite (s : State) (c q k : Nat) (v : DWord) (host : Bool) : State :=
  match k with
  | 0 => s.modQueue c q (fun y => if y.st = .off then { y with ring := v &&& 0x000FFFFFFFFFF00F } else y)
  | 1 => s.modQueue c q (fun y => if y.st = .off then { y with cpl := v &&& 0x000FFFFFFFFFF000 } else y)
  | 2 => s.modQueue c q (fun y =>
      if y.st = .off then { y with cfg := v &&& 0x0000FFFFFFFFFF07 }
      else { y with cfg := (y.cfg &&& 0xFFFF) ||| (v &&& 0x0000FFFFFFFF0000) })
  | 3 => s.queueCommand c q (v.toNat % 256)
  | 5 => s.queueDoorbell c q (v.toNat % 2 ^ 32) host
  | 8 => s.queueCons c q (v.toNat % 2 ^ 32)
  | _ => s

/-! ### Acceptance -/

/-- The next entry is offered and its record has room (R228). -/
def Queue.offers (y : Queue) : Bool :=
  decide (y.st = .active) && decide (y.doorbell ≠ y.seen) &&
  decide ((y.seen + 1 + 2 ^ 32 - y.cons) % 2 ^ 32 ≤ queueSize y.ring)

/-- An entry's kind, OP or reserved fields break R226. -/
def entryMalformed (w : Nat → Nat) : Bool :=
  let w0 := w 0
  let kind := bitsOf w0 7 0
  let op := bitsOf w0 17 16
  decide (kind = 0) || decide (4 < kind) || decide (bitsOf w0 31 18 ≠ 0) || decide (bitsOf w0 15 10 ≠ 0) ||
  (kind == 2 && op == 3) || ((kind == 1 || kind == 4) && decide (op ≠ 0)) ||
  [4, 5, 6, 7].any (fun i => decide (w i ≠ 0))

/-- ENTRY_ACCEPT (R228). -/
def State.acceptEntry (s : State) (c q : Nat) : State :=
  let x := s.ctxAt c
  let y := x.queueAt q
  if !(x.st.queuesRun && y.offers) then s
  else
    let n := (y.seen + 1) % 2 ^ 32
    let slot := (n + 2 ^ 32 - 1) % 2 ^ 32 % queueSize y.ring
    let base := queueBase y.ring + 64 * slot
    let w (i : Nat) : Nat := s.peekNat (base + 8 * i) 8
    let s1 := (s.engineRead base 64).2
    if bitsOf (w 0) 63 32 ≠ n then s1.modQueue c q (fun z => { z with st := .error, err := 1 })
    else if entryMalformed w then s1.modQueue c q (fun z => { z with st := .error, err := 2 })
    else s1.modQueue c q (fun z => { z with
      seen := n
      entries := z.entries ++ [{ hseq := n, kind := bitsOf (w 0) 7 0, op := bitsOf (w 0) 17 16, irq := bitOf (w 0) 9,
                                 fence := bitOf (w 0) 8, addr := BitVec.ofNat 64 (w 1), value := BitVec.ofNat 64 (w 2),
                                 tag := BitVec.ofNat 64 (w 3) }] })

/-! ### Execution -/

/-- A LAUNCH entry has dispatched all of its blocks. -/
def State.allDispatched (s : State) (e : QEntry) : Bool :=
  match e.launch with
  | none => true
  | some id => match Cells.find s.launches id with
    | none => true
    | some l => decide (l.fields.nblock ≤ l.nextBlock) && l.returned.isEmpty

/-- An accepted entry may start (R230); `earlier` are the accepted entries before it that have not completed. -/
def State.mayStart (s : State) (earlier : List QEntry) (e : QEntry) : Bool :=
  !e.started && (earlier.isEmpty ||
    (e.kind == 1 && !e.fence && earlier.all (fun z => z.kind == 1 && z.started && s.allDispatched z)))

/-- An accepted entry of a queue that may start. -/
def State.startable (s : State) (c q hseq : Nat) : Option QEntry :=
  let x := s.ctxAt c
  let es := (x.queueAt q).entries
  match es.find? (fun e => e.hseq == hseq && !e.started) with
  | none => none
  | some e => if x.st.queuesRun && s.mayStart (es.takeWhile (fun z => z != e)) e then some e else none

/-- The signal word of an entry, where it can be accessed (R227, R286). -/
def State.entryWord (s : State) (c : Nat) (e : QEntry) (write : Bool) : Check × Nat :=
  let va := e.addr.toNat
  if va % 8 ≠ 0 then (.trap { code := 4, addr := va }, 0)
  else match s.resolve c lintelSeat va 8 { read := true, write := write, here := true } with
    | .error f => (.ofTrap (f.trap 0 va write), 0)
    | .ok p => if s.unowned p.pa then (.wait .ownership [{ frame := p.pa / 65536, addr := va, write := write }], p.pa) else (.ok, p.pa)

/-- An entry stalls for the ownership of frames; one whose time has run out completes with the status of an access that
faults (13_page.md R302). -/
def State.entryStall (s : State) (c q hseq : Nat) (xs : List Stall) : State :=
  match s.overdue xs with
  | some x => (s.endStall x).completeEntry c q hseq 1 0
  | none => s.requestFrames xs

/-- ENTRY_LAUNCH (R230, R235, R236). -/
def State.startLaunch (s : State) (c q hseq : Nat) : State :=
  match s.startable c q hseq with
  | none => s
  | some e =>
    if e.kind ≠ 1 then s
    else match s.readRecord c lintelSeat e.addr.toNat with
      | .error (.wait _ xs) => s.entryStall c q hseq xs
      | .error _ => s.completeEntry c q hseq 1 0
      | .ok (none, ps) => (s.noteRead ps).completeEntry c q hseq 2 0
      | .ok (some r, ps) =>
        let (id, s1) := (s.noteRead ps).addLaunch { ctx := c, queue := q, hseq := some hseq, root := 0, fields := r }
        s1.modQueue c q (fun y => { y with entries := y.entries.map (fun z =>
          if z = e then { z with started := true, launch := some id } else z) })

/-- ENTRY_SIGNAL (R230): a write that finds too few shadows waits (19_shutter.md R418). -/
def State.startSignal (s : State) (c q hseq : Nat) : State :=
  match s.startable c q hseq with
  | none => s
  | some e =>
    if e.kind ≠ 2 then s
    else match s.entryWord c e true with
      | (.wait _ xs, _) => s.entryStall c q hseq xs
      | (.trap _, _) => s.completeEntry c q hseq 1 0
      | (.ok, pa) => match s.tryWrite pa (toBytes 8 (signalNew e.op (s.peekNat pa 8) e.value.toNat)) with
        | none => s.noteStarved pa
        | some t => (t.homeWrite pa).completeEntry c q hseq 0 0

/-- ENTRY_WAIT (R230): it completes once the condition holds. -/
def State.startWait (s : State) (c q hseq : Nat) : State :=
  match s.startable c q hseq with
  | none => s
  | some e =>
    if e.kind ≠ 3 then s
    else match s.entryWord c e false with
      | (.wait _ xs, _) => s.entryStall c q hseq xs
      | (.trap _, _) => s.completeEntry c q hseq 1 0
      | (.ok, pa) =>
        if signalHolds e.op (s.peekNat pa 8) e.value.toNat then (s.homeRead pa).completeEntry c q hseq 0 0 else s

/-- ENTRY_NOP (R230). -/
def State.startNop (s : State) (c q hseq : Nat) : State :=
  match s.startable c q hseq with
  | none => s
  | some e => if e.kind ≠ 4 then s else s.completeEntry c q hseq 0 0

/-- Frames that are not yet asked for. -/
def State.notAsked (s : State) (xs : List Stall) : Bool :=
  xs.any (fun x => match Cells.find s.place x.frame with
    | none => false
    | some e => !e.handover || e.timedOut)

/-- A check lets its agent go on, by success, a fault, or a request of ownership. -/
def State.movesOn (s : State) (k : Check) : Bool :=
  match k with
  | .wait _ fs => s.notAsked fs
  | _ => true

/-- The event of an entry that can move. -/
def State.entryEvent (s : State) (c q : Nat) (e : QEntry) : Option Instr :=
  match s.startable c q e.hseq with
  | none => none
  | some _ =>
    match e.kind with
    | 1 => (match s.readRecord c lintelSeat e.addr.toNat with
      | .error k => if s.movesOn k then some (.entryLaunch c q e.hseq) else none
      | .ok _ => some (.entryLaunch c q e.hseq))
    | 2 =>
      let (k, pa) := s.entryWord c e true
      let starved := k == .ok && (s.tryWrite pa (toBytes 8 0)).isNone && (s.ctxAt (match s.shadowNeed pa with
        | none => c
        | some (d, _, _) => d)).starved
      if s.movesOn k && !starved then some (.entrySignal c q e.hseq) else none
    | 3 =>
      let (k, pa) := s.entryWord c e false
      if s.movesOn k && (k != .ok || signalHolds e.op (s.peekNat pa 8) e.value.toNat) then some (.entryWait c q e.hseq)
      else none
    | _ => some (.entryNop c q e.hseq)

/-- The events that the queue processors owe. -/
def State.queueEvents (s : State) : List Instr :=
  s.ctxs.flatMap (fun (c, x) =>
    if !x.st.queuesRun then []
    else x.queues.flatMap (fun (q, y) =>
      (if y.offers then [.entryAccept c q] else []) ++ y.entries.filterMap (s.entryEvent c q)))

/-! ### sig, waitsig, qpush -/

/-- The effect of sig on the lanes whose word is of this package; or the lane that a shutter refuses. -/
def State.sigLanes (s : State) (e : Env) (op scope : Nat) (ea v : Nat → Nat) : Except (Nat × Nat) State :=
  match (s.touch e.key (laneList e.act) ea).atomicLanes e.key 64 (fun l => s.place! e.key (ea l) 8) (fun l old => signalNew op old (v l)) (some scope)
      (laneList e.act) with
  | .error x => .error x
  | .ok (t, _) => .ok t

/-- The lanes of sig whose word lies in another package: posted reductions (20_link.md R434). -/
def State.sigRemote (s : State) (e : Env) (op scope : Nat) (place : Nat → Place) (v : Nat → Nat) : State :=
  let w := s.waveAt e.key
  (laneList e.act).foldl (fun (t : State) l =>
    let p := place l
    match p.remote with
    | none => t
    | some node =>
      let (u, lost) := t.postWrite node w.ctx e.key 1 p.pa (.atomic (signalOp op) 0 7 (v l) 0 false)
        (some (scope, (s.ctxAt w.ctx).agentOf w.core)) none (maskOf [l])
      if lost then u.noteLost e.key (maskOf [l]) else u) s

/-- The encoding rules of sig, waitsig and qpush (R232). -/
def sigSpec (f : FWord) : OpSpec :=
  { fa := .source (baseGen false), fb := .source { ty := 7, fconst := false, special := false }, fc := .quals, qBits := 0x19C
    typing := .codes [7], reserved := bitsOf f.q 8 7 == 3 || decide (5 ≤ bitsOf f.q 4 2) }
def waitsigSpec (f : FWord) : OpSpec :=
  { fd := .dest (Gen.sOnly 7), fa := .source (Gen.sLit 11 0)
    fb := .source { ty := 7, v := false, fconst := false, special := false }, fc := .quals, qBits := 0x1DC, typing := .codes [7]
    reserved := decide (5 ≤ bitsOf f.q 4 2) }
def qpushSpec : OpSpec :=
  { fd := .dest (Gen.sOnly 11), fa := .source (Gen.sIntLit 10 1), fb := .source { Gen.sOnly 11 with sRegs := 8 }, fc := .quals
    typing := .codes [0] }

/-- sig (R232, R233). -/
def execSig (f : FWord) (s : State) : Host.Outcome State Fault Refusal :=
  let op := bitsOf f.q 8 7
  let scope := bitsOf f.q 4 2
  runWord (sigSpec f) f s (fun e t =>
    let ea (l : Nat) : Nat := t.value e 11 f.fa l
    let v (l : Nat) : Nat := t.value e 7 f.fb l
    t.atBoundary e
      (fun u => (u.globalCheck e.key (laneList e.act) ea
          { need := { read := true, write := true }, len := 8, align := 8, sync := some scope, replies := false }).both
        fun _ => match u.sigLanes e op scope ea v with
          | .error (l, r) => .trap { code := 0x24, lane := l, addr := ea l, aux := r % 2 ^ 24, write := true }
          | .ok _ => .ok)
      (fun u => match u.sigLanes e op scope ea v with
        | .error _ => u
        | .ok w => w.sigRemote e op scope (fun l => u.place! e.key (ea l) 8) v))

/-- Ends a waitsig whose read satisfies its condition (R233): sd, the sync record, and the acquire. -/
def State.endSignal (s : State) (k : Nat) (x : LaneWait) (pa : Nat) (here : Bool) (scope value : Nat) : State :=
  let core := (s.waveAt k).core
  let s1 := if here then s.synced k pa (some scope) else s
  (s1.acquire core scope).modWave k (fun w =>
    let u := w.release x (BitVec.ofNat 64 value)
    if u.trapMode then u else u.setEntries (laneList x.lanes) (fun _ => x.pc + BitVec.ofNat 64 x.size))

/-- The home's answer to a waitsig: the word that first satisfied it, or the word as it stands now (R233). -/
def State.signalWord (s : State) (k pa : Nat) : Nat := (s.waveAt k).seenWord.getD (s.peekNat pa 8)

/-- The home looks at the word of a waitsig again (R233). -/
def State.settleSignal (s : State) (k : Nat) : State :=
  match (s.waveAt k).signalWait with
  | none => s
  | some x => match x.obj with
    | .signal va pa none cond value scope _ =>
      let stall : Stall := { frame := pa / 65536, lane := lowestLane x.lanes, addr := va.toNat }
      if s.unowned pa then
        (if s.stallOver stall then (s.endStall stall).asyncFault k x.pc (s.stallTrap stall)
        else s.requestOwnership (pa / 65536))
      else if signalHolds cond (s.signalWord k pa) value then s.endSignal k x pa true scope (s.signalWord k pa)
      else s
    | _ => s

/-- Asks a node for the word of a waitsig (20_link.md R436). -/
def State.pollSignal (s : State) (k : Nat) (x : LaneWait) (node pa scope : Nat) : State :=
  let (id, s1) := s.fresh
  let w := s1.waveAt k
  let y := s1.ctxAt w.ctx
  let wait : FabricWait :=
    { node := node, addr := pa, wave := k, fill := id, lane := lowestLane x.lanes, pc := x.pc, vs := [], ss := none,
      ty := 7, scope := scope, getLine := none, va := (match x.obj with
        | .signal va _ _ _ _ _ _ => va.toNat
        | _ => 0), emitted := decide ((s1.nodeAt node).st = .active) }
  let s2 : State := { s1 with fabricWaits := Cells.put s1.fabricWaits id wait }
  if wait.emitted then s2.transmit node (.fabricRequest node id y.tag pa (.load 8) (some (scope, y.agentOf w.core))) else s2

/-- Polls a waitsig's word in another package. -/
def State.startPoll (s : State) (k : Nat) : State :=
  match (s.waveAt k).signalWait with
  | none => s
  | some x => match x.obj with
    | .signal _ pa (some node) _ _ scope _ => s.pollSignal k x node pa scope
    | _ => s

/-- waitsig (R232, R233). -/
def execWaitsig (f : FWord) (s : State) : Host.Outcome State Fault Refusal :=
  let scope := bitsOf f.q 4 2
  runWord (waitsigSpec f) f s (fun e t =>
    let va := t.uvalue e 11 f.fa
    let lane := lowestLane e.act
    let u := t.atBoundary e
      (fun u => u.globalCheck e.key [lane] (fun _ => va)
        { need := { read := true }, len := 8, align := 8, sync := some scope })
      (fun u =>
        let q := u.place! e.key va 8
        let v := ((u.touch e.key [lane] (fun _ => va)).modWave e.key (fun w => { w with seenWord := none })).waitOn e
          (.signal (BitVec.ofNat 64 va) q.pa q.remote (bitsOf f.q 8 7) (t.uvalue e 7 f.fb) scope (bitOf f.q 6))
        if q.remote.isSome then v.startPoll e.key else v)
    (u.reopen e).settleSignal e.key)

/-- The effect of qpush on its queue: the entry's number, or 0 (R234). -/
def State.pushEntry (s : State) (c q : Nat) (words : List DWord) : State × Nat :=
  let y := (s.ctxAt c).queueAt q
  let size := queueSize y.ring
  if q < 64 ∧ (y.st = .active ∨ y.st = .paused) ∧ bitOf y.cfg.toNat 2 ∧ (y.issued + 2 ^ 32 - y.seen) % 2 ^ 32 < size then
    let n := (y.issued + 1) % 2 ^ 32
    let slot := (n + 2 ^ 32 - 1) % 2 ^ 32 % size
    let w0 := BitVec.ofNat 64 (n * 2 ^ 32 + (words.headD 0).toNat % 2 ^ 32)
    ((s.modQueue c q (fun z => { z with issued := n })).deviceWrite (queueBase y.ring + 64 * slot) (wordBytes (w0 :: words.drop 1))
      (.doorbell c q n), n)
  else (s, 0)

/-- The queue and the words that a qpush names (R232): from an s register, the queue's number is its bits 5:0. -/
def State.pushQueue (s : State) (e : Env) (f : FWord) : Nat :=
  if namesS f.fa then s.uvalue e 10 f.fa % 64 else s.uvalue e 10 f.fa
def State.pushWords (s : State) (e : Env) (f : FWord) : List DWord :=
  match srcOf f.fb with
  | .s n => (List.range 8).map (fun i => s.sreg e (n + i))
  | _ => []

/-- qpush (R232, R234). -/
def execQpush (f : FWord) (s : State) : Host.Outcome State Fault Refusal :=
  runWord qpushSpec f s (fun e t =>
    t.atBoundary e (fun _ => .ok) (fun u =>
      let (v, n) := u.pushEntry (u.waveAt e.key).ctx (t.pushQueue e f) (t.pushWords e f)
      v.longS e n))

/-! ### Events -/

/-- ENTRY_ACCEPT (R228). -/
def execEntryAccept (ctx queue : Nat) (s : State) : Host.Outcome State Fault Refusal := .next (s.acceptEntry ctx queue)
/-- ENTRY_LAUNCH (R230). -/
def execEntryLaunch (ctx queue hseq : Nat) (s : State) : Host.Outcome State Fault Refusal :=
  .next (s.startLaunch ctx queue hseq)
/-- ENTRY_SIGNAL (R230). -/
def execEntrySignal (ctx queue hseq : Nat) (s : State) : Host.Outcome State Fault Refusal :=
  .next (s.startSignal ctx queue hseq)
/-- ENTRY_WAIT (R230). -/
def execEntryWait (ctx queue hseq : Nat) (s : State) : Host.Outcome State Fault Refusal :=
  .next (s.startWait ctx queue hseq)
/-- ENTRY_NOP (R230). -/
def execEntryNop (ctx queue hseq : Nat) (s : State) : Host.Outcome State Fault Refusal :=
  .next (s.startNop ctx queue hseq)
/-- QUEUE_ENABLE (R223). -/
def execQueueEnable (ctx queue : Nat) (s : State) : Host.Outcome State Fault Refusal := .next (s.queueEnable ctx queue)
/-- QUEUE_PAUSE (R223). -/
def execQueuePause (ctx queue : Nat) (s : State) : Host.Outcome State Fault Refusal := .next (s.queuePause ctx queue)
/-- QUEUE_RESUME (R223). -/
def execQueueResume (ctx queue : Nat) (s : State) : Host.Outcome State Fault Refusal := .next (s.queueResume ctx queue)
/-- QUEUE_DISABLE (R223). -/
def execQueueDisable (ctx queue : Nat) (s : State) : Host.Outcome State Fault Refusal := .next (s.queueDisable ctx queue)
/-- QUEUE_CLEAR (R223). -/
def execQueueClear (ctx queue : Nat) (s : State) : Host.Outcome State Fault Refusal := .next (s.queueClear ctx queue)
/-- A write of register k of a queue by the host: behind its earlier transactions that still wait (07_consistency.md R199). -/
def State.hostQueueWrite (s : State) (c q k : Nat) (v : DWord) : State :=
  if s.hostIn.isEmpty then s.queueWrite c q k v true
  else { s with hostIn := s.hostIn ++ [.bar2Write (c * 65536 + q * 256 + 8 * k) v] }

/-- QUEUE_DOORBELL_WRITE (R229), by the host. -/
def execQueueDoorbellWrite (ctx queue : Nat) (value : DWord) (s : State) : Host.Outcome State Fault Refusal :=
  .next (s.hostQueueWrite ctx queue 5 value)
/-- QUEUE_CPL_CONS_WRITE (R228), by the host. -/
def execQueueCplConsWrite (ctx queue : Nat) (value : DWord) (s : State) : Host.Outcome State Fault Refusal :=
  .next (s.hostQueueWrite ctx queue 8 value)

end Sys2Proof.Machine
end

