-- ==== Sys2Proof/Machine/Page.lean ====
section
/-! DEFINITION. Placement (13_page.md R291 to R309): device frames and quotas, the commands and placement instructions, the
migration engine, tier-C ownership, and the events of placement and of the memory devices (21_memory_devices.md R448 to
R450). -/

namespace Sys2Proof.Machine

open Sys2Proof

/-! ### Event queues -/

/-- Queues a placement event of a guest (R296). -/
def State.plcEvent (s : State) (kind tier f : Nat) (e : Placement) : State :=
  let g := (s.ctxAt e.ctx).guest
  let y := s.guestAt g
  let prod := y.prod + s.hidden (.placement g)
  if (prod + 2 ^ 32 - y.cons) % 2 ^ 32 = queueSize y.evq then
    s.modGuest g (fun z => { z with lost := Nat.min 255 (z.lost + 1) })
  else s.deviceWrite (queueBase y.evq + 32 * (prod % queueSize y.evq))
    (wordBytes [BitVec.ofNat 64 (e.ctx * 65536 + tier * 256 + kind), BitVec.ofNat 64 f,
      BitVec.ofNat 64 (e.wc * 256 + e.rc), BitVec.ofNat 64 s.timeNs]) (.placement g)

/-- Queues an event of the memory devices (21_memory_devices.md R450). -/
def State.memEvent (s : State) (kind stack layer tier dframe frames : Nat) : State :=
  let p := s.plat
  let prod := p.memEvqProd + s.hidden .memory
  if (prod + 2 ^ 32 - p.memEvqCons) % 2 ^ 32 = queueSize p.memEvq then
    { s with plat := { p with memEvqLost := Nat.min 255 (p.memEvqLost + 1) } }
  else s.deviceWrite (queueBase p.memEvq + 32 * (prod % queueSize p.memEvq))
    (wordBytes [BitVec.ofNat 64 (tier * 65536 + layer * 4096 + stack * 256 + kind), BitVec.ofNat 64 dframe,
      BitVec.ofNat 64 frames, BitVec.ofNat 64 s.timeNs]) .memory

/-! ### Device frames -/

/-- A device frame may be given to a guest: it is free, and no frame within two rows of it is another guest's
(21_memory_devices.md R448; a device frame is one row, log 7). -/
def State.frameFree (s : State) (tier d g : Nat) : Bool :=
  let at' (x : Nat) : Nat := Cells.get 0 s.alloc (allocKey tier x)
  let mate (x : Nat) : Bool := x == 0 || x == g + 1
  at' d == 0 && mate (at' (d - 2)) && mate (at' (d - 1)) && mate (at' (d + 1)) && mate (at' (d + 2))

/-- The lowest frame from `d` on, below `top`, that a guest may be given. -/
def State.freeFrom (s : State) (tier g top : Nat) : Nat → Nat → Option Nat
  | 0, _ => none
  | n + 1, d =>
    if top ≤ d then none else if s.frameFree tier d g then some d else State.freeFrom s tier g top n (d + 1)

/-- So many frames from any frame on include a free one, if the tier has one there. -/
def State.searchFuel (s : State) : Nat := 5 * s.alloc.length + 1

/-- A layer of a stack is mapped out (21_memory_devices.md R449). -/
def Platform.layerOut (p : Platform) (stack layer : Nat) : Bool :=
  bitOf (if stack < 4 then p.mapout0 else p.mapout1) (16 * (stack % 4) + layer)

/-- The lowest free tier-H frame in the channels of an L2 slice, off the layers that are mapped out (R206, R449). -/
def State.freeInSlice (s : State) (g slice : Nat) : Option Nat :=
  (List.range 16).findSome? (fun layer =>
    if s.plat.layerOut (slice / 16) layer then none
    else
      let base := slice * 65536 + layer * 4096
      s.freeFrom 1 g (base + 4096) s.searchFuel base)

/-- The L2 slices a context holds (R206). -/
def Context.slices (x : Context) : List Nat :=
  (List.range 128).filter (fun i => bitOf (if i < 64 then x.slices0 else x.slices1).toNat (i % 64))

/-- The lowest free device frame of a tier for a context (R292). -/
def State.freeFrame (s : State) (c tier : Nat) : Option Nat :=
  let x := s.ctxAt c
  match tier with
  | 1 => x.slices.findSome? (fun i => s.freeInSlice x.guest i)
  | 2 => s.freeFrom 2 x.guest s.plat.memCapL s.searchFuel 0
  | 3 => s.freeFrom 3 x.guest (2 ^ 30) s.searchFuel 0
  | _ => none

/-- The migration of a frame is copying. -/
def Placement.copying (e : Placement) : Bool := decide (e.mig = .copying) || decide (e.mig = .draining)

/-- The frames of a tier that are charged to a context (R291): a migration charges its target. -/
def State.charged (s : State) (c tier : Nat) : Nat :=
  (s.place.filter (fun (_, e) => e.ctx == c && !e.shr &&
    (if e.copying && e.otherTier == tier then true else e.tier == tier))).length +
  (if tier = 2 then (s.ctxAt c).shadowFrames.length else 0)

/-- A further frame of a tier would pass the quota of a context (R206, R291). -/
def State.overQuota (s : State) (c tier : Nat) : Bool :=
  let q := (s.ctxAt c).quota.toNat
  match tier with
  | 2 => decide (bitsOf q 24 0 ≤ s.charged c 2)
  | 3 => decide (bitsOf q 61 31 ≤ s.charged c 3)
  | _ => false

/-- Gives a device frame to a guest. -/
def State.giveFrame (s : State) (tier d g : Nat) : State :=
  { s with alloc := Cells.put s.alloc (allocKey tier d) (g + 1) }

/-- Takes a device frame back. -/
def State.takeFrame (s : State) (tier d : Nat) : State := { s with alloc := Cells.del s.alloc (allocKey tier d) }

/-- The metadata of the lines of a device frame take their reset values (R292). -/
def State.resetMeta (s : State) (tier d : Nat) : State :=
  { s with lineMeta := s.lineMeta.filter (fun (k, _) => k / 512 != allocKey tier d) }

/-! ### Copies near the cores -/

/-- The agent, the direction (to the home, or from it) and the line of a coherence message between them (14_coherence.md R313). -/
def messagePair : Instr → Option (Nat × Bool × Nat)
  | .gets a l => some (a, true, l)
  | .getx a l => some (a, true, l)
  | .upg a l => some (a, true, l)
  | .puts a l => some (a, true, l)
  | .putx a m => some (a, true, m.line)
  | .wbk a m => some (a, true, m.line)
  | .iack a l => some (a, true, l)
  | .rdat a m => some (a, true, m.line)
  | .rack a l => some (a, true, l)
  | .dats a m => some (a, false, m.line)
  | .datx a m => some (a, false, m.line)
  | .grnt a l => some (a, false, l)
  | .inv a l => some (a, false, l)
  | .rcls a l => some (a, false, l)
  | .rclx a l => some (a, false, l)
  | .ackp a l => some (a, false, l)
  | _ => none

/-- The line a coherence message concerns. -/
def messageLine (i : Instr) : Option Nat :=
  match i with
  | .noncachingRequest r => some (r.addr / 128)
  | x => (messagePair x).map (·.2.2)

/-- Removes the copies that L0s, stashes and caches passed by a No Snoop write keep of a frame's lines, and the older bytes of
its device lines. -/
def State.dropCopies (s : State) (f : Nat) : State :=
  { s with
    l0 := s.l0.filter (fun x => x.line / 512 != f)
    icache := s.icache.filter (fun x => x.line / 512 != f)
    stale := s.stale.filter (fun x => x.line / 512 != f)
    devOld := match s.device (f * 65536) with
      | none => s.devOld
      | some k => s.devOld.filter (fun (l, _) => l / 512 != k / 65536)
    blocks := s.blocks.map (fun (b, blk) => (b, { blk with tiles := blk.tiles.map (fun (t, tile) =>
      (t, tile.dropLines (fun n => n / 512 == f))) })) }

/-- Writes back and invalidates the lines of a frame in every cache at once (UNMAP, R292). -/
def State.purgeFrame (s : State) (f : Nat) : State :=
  { (s.l2Flush (fun l => l / 512 == f)).dropCopies f with
    cache := s.cache.filter (fun (k, _) => k % 2 ^ 46 / 512 != f)
    writebacks := s.writebacks.filter (fun (k, _) => k % 2 ^ 46 / 512 != f)
    cacheWait := s.cacheWait.filter (fun (_, l, _) => l / 512 != f)
    dir := s.dir.filter (fun (l, _) => l / 512 != f)
    homeQ := s.homeQ.filter (fun (l, _) => l / 512 != f)
    agenda := s.agenda.filter (fun i => match messageLine i with
      | none => true
      | some l => l / 512 != f) }

/-- No coherence message or transaction of a frame's lines is under way. -/
def State.frameQuiet (s : State) (f : Nat) : Bool :=
  s.agenda.all (fun i => match messageLine i with
    | none => true
    | some l => l / 512 != f) &&
  s.cacheWait.all (fun (_, l, _) => l / 512 != f) && s.homeQ.all (fun (l, _) => l / 512 != f) && s.dir.all (fun (l, d) => l / 512 != f || d.busy.isNone)

/-! ### Migration -/

/-- Changes the placement entry of a frame. -/
def State.modPlace (s : State) (f : Nat) (g : Placement → Placement) : State :=
  { s with place := Cells.modify s.place f g }

/-- The ordered pair of tiers of a migration that is not IDLE (R299). -/
def Placement.tierPair (e : Placement) : Option (Nat × Nat) :=
  match e.mig with
  | .idle => none
  | .committed => some (e.otherTier, e.tier)
  | _ => some (e.tier, e.otherTier)

/-- 64 migrations of an ordered pair of tiers are in flight (R299). -/
def State.pairFull (s : State) (a b : Nat) : Bool :=
  decide (64 ≤ (s.place.filter (fun (_, e) => e.tierPair == some (a, b))).length)

/-- Starts the migration of a frame to a device frame (R297). -/
def State.startMigration (s : State) (f : Nat) (e : Placement) (tier d fmt : Nat) : State :=
  ((s.giveFrame tier d (s.ctxAt e.ctx).guest).modPlace f (fun x =>
    { x with mig := .copying, otherTier := tier, otherFrame := d, otherFmt := fmt, copied := 0 })).post (.migrationLineCopy f)

/-- Copies a device line with its metadata (R298); what the device's own bytes are where a store has still to reach a cache moves
along. -/
def State.copyDeviceLine (s : State) (a b : Nat) : State :=
  let t := s.store (b * 128) (Cells.getRun Memory.default s.mem (a * 128) 128)
  { t with
    lineMeta := Cells.set {} t.lineMeta b (t.metaOf a)
    devOld := match Cells.find t.devOld a with
      | none => Cells.del t.devOld b
      | some x => Cells.put (Cells.del t.devOld a) b x }

/-- A request of the migration engine for a line is under way at its home. -/
def State.lineAsked (s : State) (line : Nat) : Bool :=
  s.homeQ.any (fun q => q.1 == line) || (Cells.get {} s.dir line).busy.isSome ||
  s.agenda.any (fun i => match i with
    | .noncachingRequest r => r.addr / 128 == line
    | _ => false)

/-- The device line of a frame's line. -/
def deviceLine (tier d n : Nat) : Nat := allocKey tier d * 512 + n

/-- MIGRATION_LINE_COPY (R298): the line is read as a home read does, which recalls a cached copy that may be dirty
(14_coherence.md R321), and then written at once, so that no access has to wait in the window (log 71). -/
def State.migrateLine (s0 : State) (f : Nat) : State :=
  match Cells.find s0.place f with
  | none => s0
  | some e =>
    let line := f * 512 + e.copied
    if e.mig ≠ .copying then s0
    else if s0.lineAsked line then s0.post (.migrationLineCopy f)
    else if (Cells.get {} s0.dir line).owner.isSome then
      (s0.post (.noncachingRequest ⟨line * 128, 0, none⟩)).post (.migrationLineCopy f)
    else
      let s := s0.countAccess (line * 128) true
      let t := (s.copyDeviceLine (deviceLine e.tier e.dframe e.copied) (deviceLine e.otherTier e.otherFrame e.copied)).modPlace f
        (fun x => { x with copied := x.copied + 1, mig := if x.copied + 1 = 512 then .draining else .copying })
      t.post (if e.copied + 1 = 512 then .migrationCommit f else .migrationLineCopy f)

/-- Lets the operations on frames that wait try again. -/
def State.wakePlacement (s : State) : State :=
  s.wakeOps (fun o => match o.kind with
    | .placement _ => true
    | _ => false)

/-- MIGRATION_COMMIT (R297): the entry names the new frame, and the old home forwards late requests. -/
def State.commitMigration (s : State) (f : Nat) : State :=
  match Cells.find s.place f with
  | none => s
  | some e =>
    if e.mig ≠ .draining then s
    else
      ({ s.l2Flush (fun l => l / 512 == f) with migDone := (s.migDone + 1) % 2 ^ 32 }.modPlace f (fun x =>
        { x with mig := .committed, tier := x.otherTier, dframe := x.otherFrame, fmt := x.otherFmt,
                 otherTier := x.tier, otherFrame := x.dframe, otherFmt := x.fmt, copied := 0 })).post (.migrationRetire f)

/-- The entry of a frame whose migration has ended. -/
def Placement.rest (e : Placement) : Placement :=
  { e with mig := .idle, otherTier := 0, otherFrame := 0, otherFmt := 0, copied := 0 }

/-- MIGRATION_RETIRE (R297). -/
def State.retireMigration (s : State) (f : Nat) : State :=
  match Cells.find s.place f with
  | none => s
  | some e =>
    if e.mig ≠ .committed then s
    else (((s.takeFrame e.otherTier e.otherFrame).resetMeta e.otherTier e.otherFrame).modPlace f Placement.rest).wakePlacement

/-- A migration enters ABORTED (R297): the entry still names the old frame, which takes what was written to the copied
lines since. -/
def State.startAbort (s : State) (f : Nat) : State :=
  match Cells.find s.place f with
  | none => s
  | some e =>
    if !e.copying then s
    else
      let t := (List.range e.copied).foldl (fun (u : State) n =>
        u.copyDeviceLine (deviceLine e.otherTier e.otherFrame n) (deviceLine e.tier e.dframe n)) s
      { t with migAborted := (t.migAborted + 1) % 65536 }.modPlace f (fun x => { x with mig := .aborted, copied := 0 })

/-- MIGRATION_ABORT (R297): the new frame is freed and an ABORTED event is posted. -/
def State.finishAbort (s : State) (f : Nat) : State :=
  match Cells.find s.place f with
  | none => s
  | some e =>
    if e.mig ≠ .aborted then s
    else ((((s.takeFrame e.otherTier e.otherFrame).resetMeta e.otherTier e.otherFrame).plcEvent 2 e.otherTier f e).modPlace f
      Placement.rest).wakePlacement

/-! ### Ownership of shared frames -/

/-- The metadata that another package has left in a line of a shared frame (07_consistency.md R183), from a free value: a record of
any scope, or none, and its poison. -/
def foreignMeta (n : Nat) : LineMeta :=
  let scope := [0, 1, 2, 3, 4, 7].getD (n % 6) 7
  if scope = 7 then { poison := bitOf n 40 }
  else { scope := scope, node := n / 8 % 4096, agent := n / 32768 % 4096, poison := bitOf n 40 }

/-- This package takes over a shared frame, whose bytes and metadata another owner may have written (R301). -/
def State.takeOver (s : State) (f : Nat) (e : Placement) : State :=
  let foreign : Bool := (Cells.get {} s.ownTable e.dframe).owner != s.node
  let first := deviceLine 3 e.dframe 0
  let t : State := if foreign then
      { s.store (devByte 3 e.dframe 0) ((List.range 65536).map (fun i => Config.poolByte s.tick i)) with
        lineMeta := (List.range 512).foldl (fun m i => Cells.set {} m (first + i) (foreignMeta (Config.poolMeta s.tick i))) s.lineMeta }
    else s
  (({ t with ownTable := Cells.set {} t.ownTable e.dframe { owner := t.node } }.modPlace f (fun x =>
    { x with owned := true, handover := false, timedOut := false, ownedSince := s.timeNs })).wakeAll).retryPrologues

/-- HANDOVER_COMPLETE (R301). -/
def State.completeHandover (s : State) (f : Nat) : State :=
  match Cells.find s.place f with
  | none => s
  | some e => if e.shr && !e.owned && e.handover then s.takeOver f e else s

/-- The entry of a shared device frame. -/
def State.sharedEntry (s : State) (d : Nat) : Option (Nat × Placement) :=
  s.place.find? (fun (_, e) => e.shr && e.dframe == d)

/-- The table passes to another node (R301). -/
def State.passOwnership (s : State) (d node : Nat) : State :=
  { s with ownTable := Cells.set {} s.ownTable d { owner := node } }.send (.ownership d node)

/-- Sends a recall on to the node that the table names as the owner. -/
def State.sendOn (s : State) (d node : Nat) : State :=
  let owner := (Cells.get {} s.ownTable d).owner
  if owner = s.node ∨ owner = node then s else s.sendTo owner (.recallOnward owner d node)

/-- RECALL (R301): it waits its turn at the owner, and the table says that a hand-over is under way; a frame that this package owns
and has not mapped is passed on; a recall that comes after ownership has left is sent on to the owner. -/
def State.receiveRecall (s : State) (d node : Nat) : State :=
  match s.sharedEntry d with
  | some (f, e) =>
    if e.owned then
      { s.modPlace f (fun x => { x with recalls := x.recalls ++ [node] }) with
        ownTable := Cells.set {} s.ownTable d { Cells.get {} s.ownTable d with handover := true } }
    else s.sendOn d node
  | none => if (Cells.get {} s.ownTable d).owner = s.node then s.passOwnership d node else s.sendOn d node

/-- A frame that a recall waits for may leave: 20 µs have passed, it does not migrate, and its lines are quiet. -/
def State.mayRelease (s : State) (f : Nat) (e : Placement) : Bool :=
  e.shr && e.owned && !e.recalls.isEmpty && decide (e.mig = .idle) && decide (e.ownedSince + 20000 ≤ s.timeNs) && s.frameQuiet f

/-- OWNERSHIP_RELEASE (R301, 14_coherence.md R322): the lines with directory entries are served first; then ownership passes to
the first that has asked, and the later recalls go on to it in their order. -/
def State.releaseOwnership (s : State) (f : Nat) : State :=
  match Cells.find s.place f with
  | none => s
  | some e =>
    if !s.mayRelease f e then s
    else
      let lines := s.dir.filter (fun (l, _) => l / 512 == f)
      if !lines.isEmpty then
        lines.foldl (fun t (l, _) => t.post (.noncachingRequest ⟨l * 128, 0, some []⟩)) s
      else
        (e.recalls.drop 1).foldl (fun t n => t.sendOn e.dframe n)
          (((s.dropCopies f).modPlace f (fun x => { x with owned := false, recalls := [] })).passOwnership e.dframe
            (e.recalls.headD 0))

/-- The releases that may take place. -/
def State.releaseEvents (s : State) : List Instr :=
  s.place.filterMap (fun (f, e) => if s.mayRelease f e then some (.ownershipRelease f) else none)

/-- OWN_TIMEOUT (R302): the accesses that stall for the frame fault at their next attempt. -/
def State.ownTimeout (s : State) (f : Nat) : State :=
  (((s.modPlace f (fun e => { e with timedOut := e.handover })).wakePlacement).wakeOps EngineOp.toPool).retryPrologues

/-! ### Commands -/

/-- A session holds a context LOCKED (20_link.md R444). -/
def State.locked (s : State) (c : Nat) : Bool :=
  s.sessions.any (fun (_, x) => decide (x.st = .locked) && bitsOf x.reg.toNat 23 16 == c)

/-- MAP (R292): the state and the status. -/
def State.mapFrame (s : State) (f c tier : Nat) (shr : Bool) (d : Nat) : State × Nat :=
  let x := s.ctxAt c
  let open' : Bool := x.st == .bound || x.st == .runnable || x.st == .running || x.st == .saved
  if !open' || tier = 0 || decide (3 < tier) || (shr && tier ≠ 3) || decide (255 < c) then (s, 3)
  else if (Cells.find s.place f).isSome then (s, 2)
  else if !shr && s.overQuota c tier then (s, 4)
  else
    let mine := Cells.get 0 s.alloc (allocKey 3 d) == x.guest + 1
    let target := if shr then (if mine || s.frameFree 3 d x.guest then some d else none) else s.freeFrame c tier
    match target with
    | none => (s, 1)
    | some t =>
      if 2 ^ 31 ≤ s.place.length then (s, 1)
      else
        let s1 := (s.giveFrame tier t x.guest).resetMeta tier t
        let owned := shr && decide ((Cells.get {} s1.ownTable t).owner = s1.node)
        let e : Placement := { ctx := c, tier := tier, dframe := t, shr := shr, ownedSince := s1.timeNs, owned := owned }
        ({ s1 with place := Cells.put s1.place f e }, 0)

/-- A frame that is unmapped leaves its shutter: its shadows are freed, and nothing restores it (19_shutter.md R419). -/
def State.dropShadows (s : State) (f : Nat) : State :=
  match s.shutterOf (f * 65536) with
  | none => s
  | some (c, i, sh) =>
    ((s.setShutter c i { sh with
      frames := sh.frames.filter (fun g => g != f)
      shadows := sh.shadows.filter (fun x => x.line / 512 != f)
      scrub := sh.scrub.filter (fun l => l / 512 != f) }).settleShutter c i).wakeAll

/-- UNMAP (R292). -/
def State.unmapFrame (s00 : State) (f : Nat) : State × Nat :=
  let s := if s00.locked (((Cells.find s00.place f).map (·.ctx)).getD 0) then s00 else s00.dropShadows f
  match Cells.find s.place f with
  | none => (s, 2)
  | some e =>
    if s.locked e.ctx then (s, 3)
    else
      let s0 := if e.mig = .committed then s.retireMigration f else (s.startAbort f).finishAbort f
      let s1 := s0.purgeFrame f
      let s2 := if e.shr then s1 else
        match Cells.find s1.place f with
        | none => s1
        | some x => s1.takeFrame x.tier x.dframe
      ({ s2 with place := Cells.del s2.place f }, 0)

/-! ### Operations on frames -/

/-- What acting on a frame comes to. -/
inductive Acted where
  | done (status : Nat)
  | answer (value : Nat)
  /-- It waits for a migration that it has started. -/
  | started
  /-- It waits its turn for a migration of an ordered pair of tiers (R295, R299). -/
  | queue (pair : Nat × Nat)
  /-- It waits for a hand-over, or finds that its time has run out (R307). -/
  | wait
  | timeout
  deriving DecidableEq, Repr

/-- A migration of an ordered pair of tiers may not start for an operation: 64 are in flight, or an earlier operation waits for
one (R295). -/
def State.pairTaken (s : State) (id : Nat) (a b : Nat) : Bool :=
  s.pairFull a b || s.ops.any (fun (i, o) => decide (i < id) && (match o.kind with
    | .placement j => j.pair == some (a, b)
    | _ => false))

/-- Migrates a frame to a device frame of a tier for an operation: refused for want of a frame or by the quota, or the operation
waits until the migration has ended. -/
def State.moveTo (s : State) (id f : Nat) (e : Placement) (tier fmt : Nat) (free : Option Nat) (noFree overQuota : Nat) :
    State × Acted :=
  match free with
  | none => (s, .done noFree)
  | some d =>
    if e.tier ≠ tier ∧ s.overQuota e.ctx tier then (s, .done overQuota)
    else if s.pairTaken id e.tier tier then (s, .queue (e.tier, tier))
    else (s.startMigration f e tier d fmt, .started)

/-- The layer of a tier-H device frame: stack × 16 + layer (21_memory_devices.md R447). -/
def layerOf (d : Nat) : Nat := d / 65536 / 16 * 16 + d % 65536 / 4096

/-- What pgqry answers (R306). -/
def State.queryFrame (s : State) (e : Placement) (what : Nat) : Nat :=
  let mig := match e.mig with
    | .idle => 0
    | .copying => 1
    | .draining => 2
    | .committed => 3
    | .aborted => 4
  match what with
  | 0 => e.tier + b2n e.pin * 4 + e.aff * 8 + e.fmt * 32 + b2n e.shr * 128 + mig * 256 + b2n e.shut * 2048
  | 1 => e.rc + 256 * e.wc
  | _ => (if e.shr then (Cells.get {} s.ownTable e.dframe).owner else s.node) + b2n (!e.shr || e.owned) * 2 ^ 12 +
      b2n (e.handover || (e.shr && (Cells.get {} s.ownTable e.dframe).handover)) * 2 ^ 13 + b2n e.shr * 2 ^ 14

/-- The counters of a frame are for contexts of its guest and for system mode (R294). -/
def State.mayCount (s : State) (c : Nat) (e : Placement) : Bool :=
  (s.ctxAt c).sys || (s.ctxAt c).guest == (s.ctxAt e.ctx).guest

/-- One operation acts on one frame (R292, R295, R305, R306, R308, 21_memory_devices.md R449). An operation that migrates acts
again once the migration has ended, and then finds the frame where it wants it. -/
def State.actOn (s : State) (id : Nat) (j : PlaceJob) (f cmp : Nat) : State × Acted :=
  match j.act, Cells.find s.place f with
  | .map, _ => let (t, st) := s.mapFrame f j.ctx j.sel j.shr j.dframe; (t, .done st)
  | .unmap, _ => let (t, st) := s.unmapFrame f; (t, .done st)
  | .move, none => (s, .done 2)
  | .take, none => (s, .done 2)
  | .auto, none => (s, .done 0)
  | .evacuate, none => (s, .done 0)
  | _, none => (s, .done 4)
  | .move, some e =>
    if j.sel = 0 ∨ 3 < j.sel ∨ (e.shr ∧ j.sel ≠ 3) ∨ (e.shut ∧ j.sel = 3) then (s, .done 3)
    else if e.tier = j.sel then (s, .done 0)
    else s.moveTo id f e j.sel e.fmt (s.freeFrame e.ctx j.sel) 1 4
  | .take, some e =>
    if !e.shr then (s, .done 3)
    else ((s.takeOver f e).send (.ownership e.dframe s.node), .done 0)
  | .pin, some e =>
    if (e.shr ∧ j.sel ≠ 0 ∧ j.sel ≠ 3) ∨ (e.shut ∧ j.sel = 3) then (s, .done 4)
    else if j.sel = 0 ∨ e.tier = j.sel then (s.modPlace f (fun x => { x with pin := true }), .done 0)
    else s.moveTo id f e j.sel e.fmt (s.freeFrame e.ctx j.sel) 1 2
  | .unpin, some _ => (s.modPlace f (fun x => { x with pin := false }), .done 0)
  | .hint, some _ => (s.modPlace f (fun x => { x with aff := j.sel }), .done 0)
  | .query, some e => if j.sel = 1 ∧ !s.mayCount j.ctx e then (s, .done 4) else (s, .answer (s.queryFrame e j.sel))
  | .own, some e =>
    if !e.shr ∨ e.owned then (s, .done 0) else if e.timedOut then (s, .timeout) else (s.requestOwnership f, .wait)
  | .recode, some e =>
    if e.fmt = cmp then (s, .done 0)
    else if e.tier = 1 then s.moveTo id f e 1 cmp (s.freeFrame e.ctx 1) 1 1
    else (s.modPlace f (fun x => { x with fmt := cmp }), .done 0)
  | .auto, some e =>
    if e.tier = j.sel ∨ e.pin ∨ e.shr ∨ (e.shut ∧ j.sel = 3) then (s, .done 0)
    else match s.moveTo id f e j.sel e.fmt (s.freeFrame e.ctx j.sel) 0 0 with
      | (t, .started) => (t, .done 0)
      | r => r
  | .evacuate, some e =>
    if e.tier ≠ 1 ∨ layerOf e.dframe ≠ j.sel then (if j.started then s.plcEvent 3 e.tier f e else s, .done 0)
    else match s.freeInSlice (s.ctxAt e.ctx).guest (e.dframe / 65536) with
      | some d => s.moveTo id f e 1 e.fmt (some d) 0 0
      | none => match s.freeFrame e.ctx 2 with
        | some d => if s.pairTaken id 1 2 then (s, .queue (1, 2)) else (s.startMigration f e 2 d e.fmt, .started)
        | none =>
          (s.memEvent 4 (j.sel / 16) (j.sel % 16) 1 e.dframe 0, .done 0)

/-- An operation on a frame waits for those before it (R293): a migration, a hand-over, an earlier operation. UNMAP ends a
migration (R292), and with it the operation that had started it; TAKE ends a hand-over that does not come (R302), whatever waits
for it; pgown asks for one; and a query can read that one is in progress (R306). -/
def State.frameBusy (s : State) (id f : Nat) (act : PlaceAct) : Bool :=
  let before (p : PlaceJob → Bool) : Bool := s.ops.any (fun (i, o) => decide (i < id) && (match o.kind with
    | .placement j => j.frames.head? == some (some f) && p j
    | _ => false))
  let earlier := before (fun _ => true)
  match Cells.find s.place f with
  | none => earlier
  | some e => match act with
    | .unmap => e.handover || before (fun j => !j.started)
    | .take => decide (e.mig ≠ .idle) || (earlier && !e.handover)
    | .query => decide (e.mig ≠ .idle) || earlier
    | .own => decide (e.mig ≠ .idle) || earlier
    | _ => decide (e.mig ≠ .idle) || e.handover || earlier

/-- The device frame of a frame's entry. -/
def State.deviceFrame (s : State) (f : Nat) : Nat :=
  match Cells.find s.place f with
  | none => 0
  | some e => e.dframe

/-- Ends an operation on frames: with a status at a frame, or with a value. -/
def State.endPlacement (s : State) (id : Nat) (j : PlaceJob) (status value : Nat) : State :=
  let cmd : Bool := j.act == .map || j.act == .unmap || j.act == .move || j.act == .take
  let f := match j.frames.head? with
    | some (some x) => x
    | _ => 0
  let s1 : State := if cmd then { s with plcStatus := status, plcFrame := s.deviceFrame f } else s
  let s2 := match j.fill with
    | none => s1
    | some n => match Cells.find s1.fills n with
      | none => s1
      | some x => s1.endFill n [] (x.sKeys.map (fun k => (k, BitVec.ofNat 64 value)))
  ({ s2 with ops := Cells.del s2.ops id } : State).wakePlacement

/-- An operation on frames goes on waiting as a job says. -/
def State.parkPlacement (s : State) (id : Nat) (j : PlaceJob) : State :=
  ({ s with ops := Cells.modify s.ops id (fun o => { o with kind := .placement j }) } : State).stickOp id

/-- The hand-over that a pgown waits for has run out of its time (R302, R307): the operation ends, and its wave raises OWN_TIMEOUT at
the instruction. -/
def State.timeoutOwn (s : State) (id k f : Nat) (j : PlaceJob) : State :=
  let stall : Stall := { frame := f, lane := j.lane, addr := (j.va / 65536 * 65536 + 65536 * j.index) % 2 ^ 64 }
  let t := s.endStall stall
  ((({ t with ops := Cells.del t.ops id } : State).recede k j.pc).asyncFault k j.pc (s.stallTrap stall)).wakePlacement

/-- Carries an operation on frames on, frame by frame, as far as it goes (R304). -/
def State.runPlacement (s : State) (id : Nat) : Nat → State
  | 0 => s
  | n + 1 =>
    match Cells.find s.ops id with
    | none => s
    | some o => match o.kind with
      | .placement j => match j.frames with
        | [] => s.endPlacement id j 0 j.index
        | none :: _ => s.endPlacement id j 4 (4 * 2 ^ 56 + j.index)
        | some f :: rest =>
          if s.frameBusy id f j.act then s.stickOp id
          else match s.actOn id j f (j.cmps.headD 0) with
            | (t, .wait) => t.stickOp id
            | (t, .queue p) => t.parkPlacement id { j with pair := some p }
            | (t, .started) =>
              let u := t.parkPlacement id { j with pair := none, started := true }
              if j.pair.isSome then u.wakePlacement else u
            | (t, .timeout) => t.timeoutOwn id o.wave f j
            | (t, .answer v) => t.endPlacement id j 0 v
            | (t, .done st) =>
              if st ≠ 0 ∨ rest.isEmpty then t.endPlacement id j st (if st = 0 then j.index + 1 else st * 2 ^ 56 + j.index)
              else
                let j1 : PlaceJob := { j with frames := rest, cmps := j.cmps.drop 1, index := j.index + 1, started := false, pair := none }
                State.runPlacement { t with ops := Cells.put t.ops id { o with kind := .placement j1, stuck := false } } id n
      | _ => s

/-- Runs an operation on frames, as its event does. -/
def State.stepPlacement (s : State) (id : Nat) (j : PlaceJob) : State := s.runPlacement id (j.frames.length + 1)

/-- Starts an operation on frames for a wave, or for the Lintel itself. -/
def State.startPlacement (s : State) (wave : Option Nat) (j : PlaceJob) : State :=
  let (id, s1) := s.fresh
  let o : EngineOp := match wave with
    | none => { wave := goneWave, block := none, core := lintelSeat, cls := none, kind := .placement j }
    | some k => { wave := k, block := (s1.waveAt k).block, core := (s1.waveAt k).core, cls := none, kind := .placement j }
  ({ s1 with ops := Cells.put s1.ops id o } : State).stepPlacement id j

/-- A command of PLC_CMD (R292, R309); other codes give status 3. -/
def State.plcCommand (s : State) (v : DWord) : State :=
  let f := bitsOf v.toNat 51 16
  let tier := bitsOf v.toNat 7 6
  let job (a : PlaceAct) : PlaceJob :=
    { act := a, frames := [some f], sel := tier, ctx := bitsOf v.toNat 15 8, shr := bitOf s.plcArg.toNat 63,
      dframe := bitsOf s.plcArg.toNat 29 0 }
  match v.toNat % 16 with
  | 1 => s.startPlacement none (job .map)
  | 2 => s.startPlacement none (job .unmap)
  | 3 => s.startPlacement none (job .move)
  | 4 => s.startPlacement none (job .take)
  | _ => { s with plcStatus := 3, plcFrame := s.deviceFrame f }

/-! ### Automatic placement -/

/-- The tier that a frame is to move to at a tick, if any (R295). -/
def Placement.tickTarget (e : Placement) (g : Guest) : Option Nat :=
  let promote := bitsOf g.thresh.toNat 15 8
  let demote := bitsOf g.thresh.toNat 7 0
  let heat := Nat.min 255 (e.rc + e.wc)
  if e.pin || e.shr || decide (e.mig ≠ .idle) then none
  else if e.aff ≠ 0 then (if e.aff ≠ e.tier ∧ ¬(e.shut ∧ e.aff = 3) then some e.aff else none)
  else if 0 < promote ∧ promote ≤ heat ∧ e.tier = 3 then some 2
  else if 0 < promote ∧ promote ≤ heat ∧ e.tier = 2 then some 1
  else if heat ≤ demote ∧ e.tier = 1 then some 2
  else if heat ≤ demote ∧ e.tier = 2 ∧ !e.shut then some 3
  else none

/-- The frames of a guest at a tick, in rising order; `told` are the target tiers for which a QUOTA event has been posted. -/
def State.tickFrames (s : State) (gi : Nat) (g : Guest) (told : List Nat) : List (Nat × Placement) → State
  | [] => s
  | (f, e) :: rest =>
    if (s.ctxAt e.ctx).guest ≠ gi then State.tickFrames s gi g told rest
    else match e.tickTarget g with
      | none => State.tickFrames s gi g told rest
      | some tier =>
        if (s.freeFrame e.ctx tier).isNone then State.tickFrames s gi g told rest
        else if s.overQuota e.ctx tier then
          (if told.contains tier then State.tickFrames s gi g told rest
          else State.tickFrames (s.plcEvent 1 tier f e) gi g (tier :: told) rest)
        else State.tickFrames (s.startPlacement none { act := .auto, frames := [some f], sel := tier }) gi g told rest

/-- PLACEMENT_TICK (R294, R295). -/
def State.placementTick (s : State) : State :=
  let s1 := if bitOf s.migCtl.toNat 0 then
      s.guests.foldl (fun t (gi, g) => if bitOf g.thresh.toNat 16 then t.tickFrames gi g [] t.place else t) s
    else s
  if bitOf s1.migCtl.toNat 1 then
    { s1 with place := s1.place.map (fun (f, e) => (f, { e with rc := e.rc / 2, wc := e.wc / 2 })) }
  else s1

/-! ### The placement instructions -/

/-- The encoding of the placement instructions (R303). -/
def placeSpec (qBits : Nat) (counted : Bool) : OpSpec :=
  { fd := .dest (Gen.sOnly 11), fa := .source (Gen.sLit 11 0),
    fb := if counted then .source (Gen.sIntLit 10 1) else .unused, fc := .quals, qBits := qBits }

/-- The address of frame `k` of a range. -/
def rangeAddr (va k : Nat) : Nat := (va / 65536 * 65536 + 65536 * k) % 2 ^ 64

/-- The translations of a range (R304): XLATE, and PERM by PRIV alone. -/
def State.rangeCheck (s : State) (k lane va n : Nat) : Check :=
  let (c, core) := s.seat k
  Check.lanes (List.range n) (fun i =>
    match s.translate c core (rangeAddr va i) 1 with
    | .error f => some (f.trap lane (rangeAddr va i) false)
    | .ok p =>
      if bitOf p.pte.toNat 0 && bitOf p.pte.toNat 5 && !(s.ctxAt c).sys then
        some ((AddrFault.perm false).trap lane (rangeAddr va i) false)
      else none)

/-- The places of a range that has passed its checks. -/
def State.rangePlaces (s : State) (k va n : Nat) : List Place := (List.range n).map (fun i => s.place! k (rangeAddr va i) 1)

/-- A count of frames outside 1 to 65,536 gives status 3 (R304). -/
def badRange (n : Nat) : Bool := n == 0 || decide (65536 < n)

/-- pin, unpin, hint, pgqry and recode (R304). -/
def runPlace (p : OpSpec) (f : FWord) (s : State) (counted : Bool) (act : PlaceAct) (sel : Nat) :
    Host.Outcome State Fault Refusal :=
  runWord p f s (fun e t =>
    let va := t.uvalue e 11 f.fa
    let n := if counted then t.uvalue e 10 f.fb else 1
    t.atBoundary e (fun u => if badRange n then .ok else u.rangeCheck e.key (lowestLane e.act) va n)
      (fun u =>
        if badRange n then u.longS e (3 * 2 ^ 56)
        else
          let ps := u.rangePlaces e.key va n
          let u1 := (List.range n).foldl (fun v i => v.tlbFill (v.seat e.key).1 (v.seat e.key).2 (rangeAddr va i)) u
          let (id, u2) := u1.startFill e.key (u1.destKeys e 1 f.fd 0)
          u2.startPlacement (some e.key)
            { act := act, sel := sel, fill := some id, ctx := (u2.waveAt e.key).ctx
              frames := ps.map (fun p => if p.remote.isSome then none else some (p.pa / 65536))
              cmps := if act = .recode then ps.map (fun p => bitsOf p.pte.toNat 10 9) else [] }))

/-- pin (R305). -/
def execPin (f : FWord) (s : State) : Host.Outcome State Fault Refusal :=
  runPlace (placeSpec 3 true) f s true .pin (f.q % 4)

/-- unpin (R305). -/
def execUnpin (f : FWord) (s : State) : Host.Outcome State Fault Refusal :=
  runPlace (placeSpec 0 true) f s true .unpin 0

/-- hint (R305). -/
def execHint (f : FWord) (s : State) : Host.Outcome State Fault Refusal :=
  runPlace (placeSpec 3 true) f s true .hint (f.q % 4)

/-- pgqry (R306). -/
def execPgqry (f : FWord) (s : State) : Host.Outcome State Fault Refusal :=
  runPlace { placeSpec 3 false with reserved := f.q % 4 == 3 } f s false .query (f.q % 4)

/-- recode (R308). -/
def execRecode (f : FWord) (s : State) : Host.Outcome State Fault Refusal :=
  runPlace (placeSpec 0 true) f s true .recode 0

/-- pgown behind its checks (R307): the operation that asks for the frames; where it waits for a hand-over, the wave issues nothing
more and its entries stay at the instruction, which an OWN_TIMEOUT restarts. -/
def State.startOwn (s : State) (e : Env) (fd : Field) (va n : Nat) : State :=
  let s1 := (List.range n).foldl (fun v i => v.tlbFill (v.seat e.key).1 (v.seat e.key).2 (rangeAddr va i)) s
  let (id, s2) := s1.startFill e.key (s1.destKeys e 1 fd 0)
  let t := s2.startPlacement (some e.key)
    { act := .own, fill := some id, pc := e.pc, lane := lowestLane e.act, va := va, ctx := (s2.waveAt e.key).ctx
      frames := (s.rangePlaces e.key va n).map (fun p => if p.remote.isSome then none else some (p.pa / 65536)) }
  match Cells.find t.fills id with
  | none => t
  | some x => if x.ready then t else t.modWave e.key (fun w =>
      { w with hold := some (.reply id e.act (e.pc + BitVec.ofNat 64 e.size) true) })

/-- pgown (R303, R307): a long-latency producer whose result comes when every shared frame of the range is owned. -/
def execPgown (f : FWord) (s : State) : Host.Outcome State Fault Refusal :=
  runWord (placeSpec 0 true) f s (fun e t =>
    let va := t.uvalue e 11 f.fa
    let n := t.uvalue e 10 f.fb
    (t.atBoundary e
      (fun u => if badRange n then .ok else u.rangeCheck e.key (lowestLane e.act) va n)
      (fun u => if badRange n then u.longS e (3 * 2 ^ 56) else u.startOwn e f.fd va n)).reopen e)

/-! ### Page registers -/

/-- The frames of a tier charged to a context, as PLC_USE and PLC_USE_C read them (R309). -/
def State.usedFrames (s : State) (c tier : Nat) : Nat :=
  (s.place.filter (fun (_, e) => e.ctx == c && e.tier == tier && !e.shr)).length +
  (if tier = 2 then (s.ctxAt c).shadowFrames.length else 0)

/-- A register of the page block, for a target context (R309). -/
def State.pageRead (s : State) (c num : Nat) : DWord :=
  let x := s.ctxAt c
  let g := s.guestAt x.guest
  match num with
  | 0x5000 => g.thresh
  | 0x5001 => BitVec.ofNat 64 (g.evq.toNat + g.lost * 16)
  | 0x5002 => BitVec.ofNat 64 (g.cons * 2 ^ 32 + g.prod)
  | 0x5003 => BitVec.ofNat 64 (s.usedFrames c 2 * 2 ^ 32 + s.usedFrames c 1)
  | 0x5004 => BitVec.ofNat 64 (s.usedFrames c 3)
  | 0x5005 => x.shdNodes
  | 0x5006 => x.shdCfg
  | 0x5010 => s.migCtl
  | 0x5011 => BitVec.ofNat 64 (s.migAborted * 2 ^ 48 + s.migDone * 65536 +
      (s.place.filter (fun (_, e) => decide (e.mig ≠ .idle))).length)
  | 0x5013 => s.plcArg
  | 0x5014 => BitVec.ofNat 64 (s.plcFrame * 32 + s.plcStatus)
  | _ => 0

/-- CMDST of a context (R209). -/
def State.setCmdst (s : State) (c n : Nat) : State := s.modCtx c (fun x => { x with cmdst := n })

/-- A write of a register of the page block but PLC_CMD (R309). -/
def State.pageWrite (s : State) (c num : Nat) (v : DWord) : State :=
  let x := s.ctxAt c
  let bare : Bool := x.st == .empty || x.st == .bound
  match num with
  | 0x5000 => s.modGuest x.guest (fun g => { g with thresh := v &&& 0x1FFFF })
  | 0x5001 => s.modGuest x.guest (fun g => { g with evq := v &&& 0x000FFFFFFFFFF00F, lost := 0 })
  | 0x5002 => s.modGuest x.guest (fun g => { g with cons := v.toNat / 2 ^ 32 })
  | 0x5005 => if bare && !s.locked c then s.modCtx c (fun y => { y with shdNodes := v &&& 0x000FFFFFFFFFFE00 }) else s.setCmdst c 1
  | 0x5006 => if bare && !s.locked c then s.modCtx c (fun y => { y with shdCfg := v &&& 0xFFFFFFFF }) else s.setCmdst c 1
  | 0x5010 => { s with migCtl := v &&& 3 }
  | 0x5013 => { s with plcArg := v &&& 0x800000003FFFFFFF }
  | _ => s

/-! ### Events -/

/-- MAP (R292). -/
def execMap (frame ctx tier : Nat) (shared : Bool) (dframe : Nat) (s : State) : Host.Outcome State Fault Refusal :=
  .next (s.startPlacement none
    { act := .map, frames := [some frame], sel := tier, ctx := ctx, shr := shared, dframe := dframe % 2 ^ 30 })

/-- UNMAP (R292). -/
def execUnmap (frame : Nat) (s : State) : Host.Outcome State Fault Refusal :=
  .next (s.startPlacement none { act := .unmap, frames := [some frame] })

/-- MOVE (R292). -/
def execMove (frame tier : Nat) (s : State) : Host.Outcome State Fault Refusal :=
  .next (s.startPlacement none { act := .move, frames := [some frame], sel := tier })

/-- TAKE (R292, R302). -/
def execTake (frame : Nat) (s : State) : Host.Outcome State Fault Refusal :=
  .next (s.startPlacement none { act := .take, frames := [some frame] })

/-- MIGRATION_LINE_COPY (R298). -/
def execMigrationLineCopy (frame : Nat) (s : State) : Host.Outcome State Fault Refusal := .next (s.migrateLine frame)

/-- MIGRATION_COMMIT (R297). -/
def execMigrationCommit (frame : Nat) (s : State) : Host.Outcome State Fault Refusal := .next (s.commitMigration frame)

/-- MIGRATION_RETIRE (R297). -/
def execMigrationRetire (frame : Nat) (s : State) : Host.Outcome State Fault Refusal := .next (s.retireMigration frame)

/-- MIGRATION_ABORT (R297). -/
def execMigrationAbort (frame : Nat) (s : State) : Host.Outcome State Fault Refusal := .next (s.finishAbort frame)

/-- OWNERSHIP_RELEASE (R301). -/
def execOwnershipRelease (frame : Nat) (s : State) : Host.Outcome State Fault Refusal := .next (s.releaseOwnership frame)

/-- HANDOVER_COMPLETE (R301). -/
def execHandoverComplete (frame : Nat) (s : State) : Host.Outcome State Fault Refusal := .next (s.completeHandover frame)

/-- RECALL (R301). -/
def execRecall (dframe node : Nat) (s : State) : Host.Outcome State Fault Refusal := .next (s.receiveRecall dframe node)

/-- OWN_TIMEOUT (R302). -/
def execOwnTimeout (frame : Nat) (s : State) : Host.Outcome State Fault Refusal := .next (s.ownTimeout frame)

/-- PLACEMENT_TICK (R294, R295). -/
def execPlacementTick (s : State) : Host.Outcome State Fault Refusal := .next s.placementTick

end Sys2Proof.Machine
end

