-- ==== Sys2Proof/Machine/Coherence.lean ====
section
/-! DEFINITION. The coherence protocol (14_coherence.md): the directory entries of the homes, requests in order of arrival, the
answers of the caches, evictions that cross, and the coherence registers. Byte values are performed where the accesses are
(Machine/Memory.lean); the messages keep the states, the counts and, with the data they carry, the home's own bytes of a line. -/

namespace Sys2Proof.Machine

open Sys2Proof

/-! ### Directory entries -/

/-- A line's directory entry; one without an entry is UNCACHED (R315). -/
def State.dirAt (s : State) (line : Nat) : DirEntry := Cells.get {} s.dir line

/-- Enters a directory entry; an UNCACHED one is freed. -/
def State.setDir (s : State) (line : Nat) (d : DirEntry) : State := { s with dir := Cells.set {} s.dir line d }

/-- The directory entry as COH_DIRE returns it (R315). -/
def DirEntry.bits (d : DirEntry) : Nat :=
  let st := if d.owner.isSome then 2 else if d.sharers.isEmpty then 0 else 1
  let ptrs := match d.owner with
    | some o => [o]
    | none => d.sharers
  b2n d.busy.isSome * 2 ^ 63 + st * 2 ^ 61 + b2n d.coarse * 2 ^ 60 +
  (if d.coarse then d.sharers.foldl (fun n b => Nat.lor n (2 ^ b)) 0
   else ptrs.length * 2 ^ 32 + ptrs.zipIdx.foldl (fun n (p, k) => n + p * 2 ^ (8 * k)) 0)

/-- The IDs that may hold a shared line (R316). -/
def DirEntry.holders (d : DirEntry) : List Nat :=
  if d.coarse then d.sharers.flatMap (fun b => (List.range 8).map (8 * b + ·)) else d.sharers

/-- Adds a sharer (R316); the flag says that the entry switched to coarse mode. -/
def DirEntry.add (d : DirEntry) (r : Nat) : DirEntry × Bool :=
  let bit (xs : List Nat) (b : Nat) : List Nat := if xs.contains b then xs else xs ++ [b]
  if d.coarse then ({ d with sharers := bit d.sharers (r / 8) }, false)
  else if d.sharers.contains r then (d, false)
  else if d.sharers.length < 4 then ({ d with sharers := d.sharers ++ [r] }, false)
  else ({ d with coarse := true, sharers := (d.sharers ++ [r]).foldl (fun xs x => bit xs (x / 8)) [] }, true)

/-- The set of a line in its home's directory (R320): its number modulo the sets (log 6). -/
def State.dirSet (s : State) (line : Nat) : Nat × Nat :=
  let h := s.homeOf line
  (h, line % (if h = 128 then 65536 else 4096))

/-- The entries of a line's set. -/
def State.dirMates (s : State) (line : Nat) : Cells DirEntry :=
  let k := s.dirSet line
  s.dir.filter (fun (l, _) => s.dirSet l == k)

/-- A request needs a new entry in a set that is full (R320). -/
def State.dirFull (s : State) (line : Nat) (r : HomeReq) : Bool :=
  (match r with
   | .gets _ => true
   | .getx _ => true
   | .upg _ => true
   | _ => false) && (Cells.find s.dir line).isNone && decide (16 ≤ (s.dirMates line).length)

/-! ### Serving -/

/-- The home holds bytes of a line: the device's own are these, and they differ from the newest where a cache has stored since
they were sent. -/
def State.homeBytes (s : State) (line : Nat) (bs : List Byte) : State :=
  match s.device (line * 128) with
  | none => s
  | some k =>
    { s with devOld := if bs = s.peek (line * 128) 128 then Cells.del s.devOld (k / 128) else Cells.put s.devOld (k / 128) bs }

/-- Data of a line is written at its home (R313, R317). -/
def State.homeData (s : State) (line : Nat) (d : LineData) : State :=
  if s.backed (line * 128) then (s.homeBytes line d.bytes).countAccess (line * 128) false else s

/-- A read or write of a requester that holds no lines is performed (R321); bytes that find too few shadows wait (R418). -/
def State.performDirect (s : State) (q : ByteAccess) : State :=
  match q.bytes with
  | none => (s.restoreLine q.addr).countAccess q.addr true
  | some [] => s.countAccess q.addr false
  | some bs => match s.tryWrite q.addr bs with
    | some t => t.countAccess q.addr false
    | none => (s.restoreLine q.addr).deferWrite q.addr bs

/-- Opens a transaction: the invalidations or the recall it awaits are sent (R317). -/
def State.openTransaction (s : State) (line : Nat) (d : DirEntry) (t : Transaction) (msgs : List Instr) : State :=
  let u := s.setDir line { d with busy := some t }
  { u with agenda := u.agenda ++ msgs }

/-- Ends a transaction, or serves a request that needs none (R317): the state change and the answer. -/
def State.conclude (s : State) (line : Nat) (d0 : DirEntry) (r : HomeReq) : State :=
  let d : DirEntry := { d0 with busy := none }
  let data : LineData := (d0.busy.bind (·.data)).getD (s.lineData line)
  match r with
  | .gets a =>
    let base : DirEntry := match d.owner with
      | some o => { d with owner := none, coarse := false, sharers := [o] }
      | none => d
    let (d1, wrapped) := base.add a
    let s1 := s.setDir line d1
    { s1 with overflow := (s1.overflow + b2n wrapped) % 2 ^ 32 }.post (.dats a ⟨line, data⟩)
  | .getx a => (s.setDir line { owner := some a }).post (.datx a ⟨line, data⟩)
  | .upg a => (s.setDir line { owner := some a }).post (.grnt a line)
  | .noncaching q =>
    if q.bytes.isSome then (s.setDir line {}).performDirect q
    else
      let d1 : DirEntry := match d.owner with
        | some o => { d with owner := none, coarse := false, sharers := [o] }
        | none => d
      (s.setDir line d1).performDirect q
  | .victim => s.setDir line {}

/-- Serves a request on an entry that is not BUSY (R317). -/
def State.serve (s : State) (line : Nat) (r0 : HomeReq) : State :=
  let d := s.dirAt line
  let r : HomeReq := match r0 with
    | .upg a => if d.owner.isNone && !d.coarse && d.sharers.contains a then r0 else .getx a
    | x => x
  let fetched (t : State) : State := match r with
    | .gets _ => t.countAccess (line * 128) true
    | .getx _ => t.countAccess (line * 128) true
    | _ => t
  match d.owner with
  | some o =>
    let shared : Bool := match r with
      | .gets _ => true
      | .noncaching q => q.bytes.isNone
      | _ => false
    s.openTransaction line d { req := r, recalling := some o } [if shared then .rcls o line else .rclx o line]
  | none =>
    let targets : List Nat := match r with
      | .gets _ => []
      | .getx a => d.holders.filter (fun x => x != a)
      | .upg a => d.holders.filter (fun x => x != a)
      | .noncaching q => if q.bytes.isSome then d.holders else []
      | .victim => d.holders
    if targets.isEmpty then fetched (s.conclude line d r)
    else fetched (s.openTransaction line d { req := r, acks := targets } (targets.map (fun x => .inv x line)))

/-- Takes the first request of a line from the queue. -/
def takeFirst (line : Nat) : List (Nat × HomeReq) → List (Nat × HomeReq)
  | [] => []
  | q :: qs => if q.1 = line then qs else q :: takeFirst line qs

/-- The first queued request that its home can serve. -/
def State.nextServed (s : State) : Option (Nat × HomeReq) :=
  (s.homeQ.zipIdx.find? (fun (q, i) =>
    !(s.homeQ.take i).any (fun p => p.1 == q.1) && (s.dirAt q.1).busy.isNone && !s.dirFull q.1 q.2)).map (·.1)

/-- A victim for a queued request whose set is full: an entry that is not BUSY, chosen freely, unless one of the set is on its
way out already (R320). -/
def State.nextVictim (s : State) : Option Nat :=
  s.homeQ.findSome? (fun (line, r) =>
    if s.dirFull line r then
      let mates := s.dirMates line
      let leaving : Bool := s.homeQ.any (fun (l, q) => q == .victim && s.dirSet l == s.dirSet line) ||
        mates.any (fun (_, d) => match d.busy with
          | some t => t.req == .victim
          | none => false)
      let cands := mates.filter (fun (_, d) => d.busy.isNone)
      if leaving then none else (cands[Config.victim s.tick % cands.length]?).map (·.1)
    else none)

/-- The homes serve what they can. -/
def State.serveHomes (s : State) : Nat → State
  | 0 => s
  | n + 1 =>
    match s.nextServed with
    | some (line, r) => State.serveHomes ({ s with homeQ := takeFirst line s.homeQ }.serve line r) n
    | none => match s.nextVictim with
      | some v => State.serveHomes { s with homeQ := (v, .victim) :: s.homeQ } n
      | none => s

/-- The homes serve until nothing more can be served. -/
def State.serveAll (s : State) : State := s.serveHomes (3 * s.homeQ.length + 2)

/-- A request reaches its home and queues (R314). -/
def State.request (s : State) (line : Nat) (r : HomeReq) : State := { s with homeQ := s.homeQ ++ [(line, r)] }.serveAll

/-- Ends the open transaction of a line if it awaits nothing more (R318). -/
def State.settleTransaction (s : State) (line : Nat) : State :=
  let d := s.dirAt line
  match d.busy with
  | none => s
  | some t => if t.acks.isEmpty && t.recalling.isNone then (s.conclude line d t.req).serveAll else s

/-- An invalidation or recall of a line to an agent is outstanding. -/
def DirEntry.crosses (d : DirEntry) (a : Nat) : Bool :=
  match d.busy with
  | none => false
  | some t => t.acks.contains a || t.recalling == some a

/-- Counts a crossing (R319). -/
def State.noteCross (s : State) (b : Bool) : State := { s with cross := (s.cross + b2n b) % 2 ^ 32 }

/-- PUTS at the home (R317, R319). -/
def State.takePuts (s : State) (a line : Nat) : State :=
  let d := s.dirAt line
  let s1 := s.noteCross (d.crosses a)
  let s2 := if d.crosses a || d.coarse || d.owner.isSome then s1
    else s1.setDir line { d with sharers := d.sharers.erase a }
  (s2.post (.ackp a line)).serveAll

/-- PUTX at the home (R317, R319). -/
def State.takePutx (s : State) (a line : Nat) (data : LineData) : State :=
  let d := s.dirAt line
  let s1 := s.noteCross (d.crosses a)
  let s2 := if d.owner = some a then
      (let t := s1.homeData line data
       match d.busy with
       | none => t.setDir line {}
       | some b => t.setDir line { d with busy := some { b with crossed := d.crosses a } })
    else s1
  (s2.post (.ackp a line)).serveAll

/-- WBK at the home (R317, R319). -/
def State.takeWbk (s : State) (a line : Nat) (data : LineData) : State :=
  let d := s.dirAt line
  let s1 := s.noteCross (d.crosses a)
  let s2 := if d.owner = some a then
      (let t := s1.homeData line data
       match d.busy with
       | none => t
       | some b => t.setDir line { d with busy := some { b with crossed := d.crosses a } })
    else s1
  s2.post (.ackp a line)

/-- Changes the open transaction of a line. -/
def State.modTransaction (s : State) (line : Nat) (f : Transaction → Transaction) : State :=
  let d := s.dirAt line
  match d.busy with
  | none => s
  | some t => s.setDir line { d with busy := some (f t) }

/-- IACK at the home (R318). -/
def State.takeIack (s : State) (a line : Nat) : State :=
  (s.modTransaction line (fun t => { t with acks := t.acks.erase a })).settleTransaction line

/-- The recall is for a requester that takes the only copy: the data goes on as DATX and is not written at the home (R317). -/
def HomeReq.takesCopy : HomeReq → Bool
  | .getx _ => true
  | .upg _ => true
  | _ => false

/-- The home's own bytes of a line are these. -/
def State.homeHolds (s : State) (line : Nat) (bs : List Byte) : Bool :=
  match s.device (line * 128) with
  | none => true
  | some k => (Cells.find s.devOld (k / 128)).getD (s.peek (line * 128) 128) == bs

/-- RDAT or RACK at the home (R318). The data of an RDAT is written there, unless it goes on to a requester as DATX, or the
owner's PUTX or WBK has crossed the recall and brought the same bytes: they are discarded (R319). -/
def State.takeRecall (s : State) (a line : Nat) (data : Option LineData) : State :=
  match (s.dirAt line).busy with
  | none => s
  | some t =>
    if t.recalling ≠ some a then s
    else
      let s1 := match data with
        | none => s
        | some d =>
          if t.crossed && s.homeHolds line d.bytes then s
          else if t.req.takesCopy then s.modTransaction line (fun u => { u with data := some d })
          else s.homeData line d
      (s1.modTransaction line (fun u => { u with recalling := none })).settleTransaction line

/-! ### At a cache -/

/-- Removes a line from an agent's cache. -/
def State.delCache (s : State) (agent line : Nat) : State := { s with cache := Cells.del s.cache (cacheKey agent line) }

/-- Bytes of a line reach the stash tiles of a cluster's cores that fetch it (06_memory_access.md R151): a tile none of whose
lines is on its way any more is RESIDENT. -/
def State.tilesFilled (s : State) (agent line : Nat) (bs : List Byte) : State :=
  s.blocks.foldl (fun (u : State) (b, blk) =>
    if clusterOf blk.core ≠ agent then u
    else blk.tiles.foldl (fun (v : State) (t, tile) =>
      tile.pas.foldl (fun (x : State) (l, n) =>
        if n = line ∧ Cells.find tile.lines l = some .filling then
          { x with
            stash := Cells.setRun 0 x.stash (blk.core * 2 ^ 19 + blk.stashBase + 1024 * t + 128 * l) bs
            blocks := Cells.modify x.blocks b (fun y => { y with tiles := Cells.modify y.tiles t (fun z =>
              let lines := Cells.put z.lines l .clean
              { z with lines := lines, st := if lines.any (fun (_, a) => a == .filling) then .filling else .resident }) }) }
        else x) v) u) s

/-- DATS (R312): a store that waited for the line asks for its upgrade. -/
def State.takeDats (s : State) (a line : Nat) (data : LineData) : State :=
  match s.cacheAt a line with
  | none => s
  | some c =>
    if c.st ≠ .isWait then s
    else
      let t := s.tilesFilled a line data.bytes
      if c.wantStore then (t.setCache a line { c with st := .smWait, wantLoad := false, wantStore := false }).post (.upg a line)
      else (t.setCache a line { c with st := .shared, wantLoad := false }).retryWays a

/-- A cache becomes the owner of a line (R312): the waiting store is performed in M. -/
def State.ownLine (s : State) (a line : Nat) (c : CacheLine) (bs : List Byte) : State :=
  ((s.tilesFilled a line bs).setCache a line { st := .modified, dirty := true, stream := c.stream }).retryWays a

/-- DATX (R312). -/
def State.takeDatx (s : State) (a line : Nat) (data : LineData) : State :=
  match s.cacheAt a line with
  | none => s
  | some c =>
    if c.st = .smWait ∨ c.st = .imWait then
      { s with stale := s.stale.filter (fun x => !(x.agent == a && x.line == line)) }.ownLine a line c data.bytes
    else s

/-- GRNT (R312): a copy that a No Snoop write has left behind the home's bytes is now the line (06_memory_access.md R166). -/
def State.takeGrnt (s : State) (a line : Nat) : State :=
  match s.cacheAt a line with
  | none => s
  | some c =>
    if c.st = .smWait then
      let t : State := match s.stale.find? (fun x => x.agent == a && x.line == line), s.device (line * 128) with
        | some x, some k =>
          { s with devOld := if (Cells.find s.devOld (k / 128)).isSome then s.devOld
                     else Cells.put s.devOld (k / 128) (s.peek (line * 128) 128)
                   stale := s.stale.filter (fun y => !(y.agent == a && y.line == line)) }.store (k / 128 * 128) x.bytes
        | _, _ => s
      t.ownLine a line c (t.peek (line * 128) 128)
    else s

/-- INV (R312, R318). -/
def State.takeInv (s : State) (a line : Nat) : State :=
  let s2 : State := match s.cacheAt a line with
    | none => s
    | some c =>
      if c.st = .shared then ((s.loseCopies a line).delCache a line).retryWays a
      else if c.st = .smWait then (s.loseCopies a line).setCache a line { c with st := .imWait }
      else s
  s2.post (.iack a line)

/-- RCLS or RCLX (R312, R318). -/
def State.takeRecallAt (s : State) (a line : Nat) (drop : Bool) : State :=
  match s.cacheAt a line with
  | none => s.post (.rack a line)
  | some c =>
    if c.st = .modified then
      let t := if drop then ((s.loseCopies a line).delCache a line).retryWays a
        else (s.agentTiles a line (fun _ => some .clean)).setCache a line { st := .shared, stream := c.stream }
      t.post (.rdat a ⟨line, (s.lineData line)⟩)
    else if c.st = .evict && c.owned then s.post (.rdat a ⟨line, (s.lineData line)⟩)
    else s.post (.rack a line)

/-- ACKP (R312): of two the first answers the earlier message (R314), so a WBK before an eviction. The eviction ends, and what
waited for the line asks for it anew. -/
def State.takeAckp (s : State) (a line : Nat) : State :=
  let key := cacheKey a line
  if 0 < Cells.get 0 s.writebacks key then { s with writebacks := Cells.set 0 s.writebacks key (Cells.get 0 s.writebacks key - 1) }
  else match s.cacheAt a line with
  | none => s
  | some c =>
    if c.st ≠ .evict then s
    else if c.wantStore then (s.delCache a line).cacheMiss a line true false
    else if c.wantLoad then (s.delCache a line).cacheMiss a line false c.stream
    else s.delCache a line

/-! ### Registers -/

/-- A write of COH_DIRA (R323): the entry is read at the line's home. -/
def State.writeDira (s : State) (v : DWord) : State :=
  let dira := v &&& 0x000FFFFFFFFFFF80
  { s with cohDira := dira
           cohDire := if s.backed dira.toNat then BitVec.ofNat 64 (s.dirAt (dira.toNat / 128)).bits else 0 }

/-- A register of the coherence block (R323). -/
def State.cohRead (s : State) (num : Nat) : DWord :=
  match num with
  | 0x6000 => s.cohDira
  | 0x6001 => s.cohDire
  | _ => BitVec.ofNat 64 (s.cross * 2 ^ 32 + s.overflow)

/-! ### Events -/

/-- GETS (R317). -/
def execGets (agent line : Nat) (s : State) : Host.Outcome State Fault Refusal := .next (s.request line (.gets agent))
/-- GETX (R317). -/
def execGetx (agent line : Nat) (s : State) : Host.Outcome State Fault Refusal := .next (s.request line (.getx agent))
/-- UPG (R317). -/
def execUpg (agent line : Nat) (s : State) : Host.Outcome State Fault Refusal := .next (s.request line (.upg agent))
/-- PUTS (R317). -/
def execPuts (agent line : Nat) (s : State) : Host.Outcome State Fault Refusal := .next (s.takePuts agent line)
/-- PUTX (R317). -/
def execPutx (agent : Nat) (msg : LineMsg) (s : State) : Host.Outcome State Fault Refusal :=
  .next (s.takePutx agent msg.line msg.data)
/-- WBK (R317). -/
def execWbk (agent : Nat) (msg : LineMsg) (s : State) : Host.Outcome State Fault Refusal :=
  .next (s.takeWbk agent msg.line msg.data)
/-- IACK (R318). -/
def execIack (agent line : Nat) (s : State) : Host.Outcome State Fault Refusal := .next (s.takeIack agent line)
/-- RDAT (R318). -/
def execRdat (agent : Nat) (msg : LineMsg) (s : State) : Host.Outcome State Fault Refusal :=
  .next (s.takeRecall agent msg.line (some msg.data))
/-- RACK (R318). -/
def execRack (agent line : Nat) (s : State) : Host.Outcome State Fault Refusal := .next (s.takeRecall agent line none)
/-- DATS (R312). -/
def execDats (agent : Nat) (msg : LineMsg) (s : State) : Host.Outcome State Fault Refusal :=
  .next (s.takeDats agent msg.line msg.data)
/-- DATX (R312). -/
def execDatx (agent : Nat) (msg : LineMsg) (s : State) : Host.Outcome State Fault Refusal :=
  .next (s.takeDatx agent msg.line msg.data)
/-- GRNT (R312). -/
def execGrnt (agent line : Nat) (s : State) : Host.Outcome State Fault Refusal := .next (s.takeGrnt agent line)
/-- INV (R318). -/
def execInv (agent line : Nat) (s : State) : Host.Outcome State Fault Refusal := .next (s.takeInv agent line)
/-- RCLS (R318). -/
def execRcls (agent line : Nat) (s : State) : Host.Outcome State Fault Refusal := .next (s.takeRecallAt agent line false)
/-- RCLX (R318). -/
def execRclx (agent line : Nat) (s : State) : Host.Outcome State Fault Refusal := .next (s.takeRecallAt agent line true)
/-- ACKP (R312). -/
def execAckp (agent line : Nat) (s : State) : Host.Outcome State Fault Refusal := .next (s.takeAckp agent line)
/-- NONCACHING_REQUEST (R321). -/
def execNoncachingRequest (req : ByteAccess) (s : State) : Host.Outcome State Fault Refusal :=
  .next (s.request (req.addr / 128) (.noncaching req))
/-- COH_DIRA_WRITE (R323). -/
def execCohDiraWrite (value : DWord) (s : State) : Host.Outcome State Fault Refusal := .next (s.writeDira value)

end Sys2Proof.Machine
end

