-- ==== Sys2Proof/Machine/Copy.lean ====
section
/-! DEFINITION. Copy engines, handles, tile tags and tensor maps (15_copy_and_tiles.md), and the multicast of qmc
(18_attention.md R396 to R398). -/

namespace Sys2Proof.Machine

open Sys2Proof

/-! ### Pages of an engine command -/

/-- The translations of pages under a need, and the pages that another package owns (R333 steps f and g). -/
def State.pagesCheckFor (s : State) (seat : Nat × Nat) (need : Need) (vas : List Nat) : Check :=
  let (c, core) := seat
  (Check.lanes vas (fun va => match s.resolve c core va 1 need with
    | .error f => some (f.trap 0 va need.write)
    | .ok _ => none)).both fun _ =>
  let stalls : List Stall := vas.filterMap (fun va => match s.resolve c core va 1 need with
    | .error _ => none
    | .ok p => if s.unowned p.pa then some { frame := p.pa / 65536, addr := va, write := need.write } else none)
  if stalls.isEmpty then .ok else .wait .ownership stalls

/-- The checks of pages for a wave. -/
def State.pagesCheck (s : State) (k : Nat) (need : Need) (vas : List Nat) : Check := s.pagesCheckFor (s.seat k) need vas

/-- The package frames behind pages that have passed their checks. -/
def State.pageFramesFor (s : State) (seat : Nat × Nat) (need : Need) (vas : List Nat) : Cells Nat :=
  let (c, core) := seat
  vas.foldl (fun m va => match s.resolve c core va 1 need with
    | .error _ => m
    | .ok p => Cells.put m (va / 65536) (p.pa / 65536)) []

/-- The package frames behind pages of a wave. -/
def State.pageFrames (s : State) (k : Nat) (need : Need) (vas : List Nat) : Cells Nat := s.pageFramesFor (s.seat k) need vas

/-- The translations of pages enter the TLBs. -/
def State.touchPagesFor (s : State) (seat : Nat × Nat) (vas : List Nat) : State :=
  let (c, core) := seat
  vas.foldl (fun t va => t.tlbFill c core va) s

/-- The translations of a wave's pages enter the TLBs. -/
def State.touchPages (s : State) (k : Nat) (vas : List Nat) : State := s.touchPagesFor (s.seat k) vas

/-- A frame among some pages that this package does not own. -/
def State.missingFrame (s : State) (pieces : List (Nat × Nat)) : Option Nat :=
  (pieces.find? (fun p => s.unowned p.1)).map (fun p => p.1 / 65536)

/-- The bytes of a span at package addresses. -/
def State.pagedBytes (s : State) (pieces : List (Nat × Nat)) : List Byte := pieces.flatMap (fun p => s.peek p.1 p.2)

/-- Writes bytes at package addresses, part by part; none while a part finds too few shadows (19_shutter.md R418). -/
def State.pagedStore (s : State) : List (Nat × Nat) → List Byte → Except Nat State
  | [], _ => .ok s
  | (pa, n) :: rest, bs => match s.tryWrite pa (bs.take n) with
    | none => .error pa
    | some t => State.pagedStore (t.homeWrite pa) rest (bs.drop n)

/-! ### Data tiles -/

/-- The bytes that a copy command reads: those from before what its wave has written to them since (R330). -/
def State.copyBytes (s : State) (j : CopyJob) (pieces : List (Nat × Nat)) : List Byte :=
  pieces.flatMap (fun p => overlay j.past p.1 (s.peek p.1 p.2))

/-- The writes of a copy command, without the bytes that its wave has written since (R330). -/
def CopyJob.standing (j : CopyJob) : List (Nat × Nat) → List Byte → List (Nat × List Byte)
  | [], _ => []
  | (pa, n) :: rest, bs =>
    byteRuns (((bs.take n).zipIdx.map (fun (b, i) => (pa + i, b))).filter (fun (a, _) => (Cells.find j.past a).isNone)) ++
      CopyJob.standing j rest (bs.drop n)

/-- The bytes of data tile `d` and its row mask (R332, R336). -/
def State.tileData (s : State) (j : CopyJob) (d : Nat) : List Byte × Nat :=
  let rb := j.tmap.rowBytes
  let rows (_ : Unit) : List Byte × Nat :=
    ((List.range j.rowsPerTile).flatMap (fun q => match j.row (d * j.rowsPerTile + q) with
      | none => List.replicate rb 0
      | some (skip, va, n) =>
        List.replicate skip 0 ++ s.copyBytes j (pagedPieces j.pages va n) ++ List.replicate (rb - skip - n) 0),
     (List.range j.rowsPerTile).foldl (fun m q => if (j.row (d * j.rowsPerTile + q)).isSome then m + 2 ^ q else m) 0)
  match j.kind with
  | .boxIn => rows ()
  | .boxBstore => rows ()
  | .gatherIn => rows ()
  | _ => (s.copyBytes j (pagedPieces j.pages (j.ga.toNat + 1024 * d) 1024), 2 ^ 64 - 1)

/-! ### Handles -/

/-- The code of a handle's state (R327). -/
def HandleState.code : HandleState → Nat
  | .free => 0
  | .filling => 1
  | .full => 2
  | .draining => 3

/-- A handle of a block. -/
def Block.handleAt (blk : Block) (h : Nat) : Handle := Cells.get {} blk.handles h

/-- Changes a handle of a block. -/
def State.modHandle (s : State) (b h : Nat) (f : Handle → Handle) : State :=
  s.modBlock b (fun blk => { blk with handles := Cells.set {} blk.handles h (f (blk.handleAt h)) })

/-- HANDLE_STATE for a handle of a block (R328). -/
def Block.handleTrap (blk : Block) (h : Nat) : Trap := { code := 9, detail := h + 16 * (blk.handleAt h).st.code }

/-- The lowest handle, other than one, that is not FREE and whose run shares a tile with a run (R328). -/
def Block.clash (blk : Block) (but : Option Nat) (first n : Nat) : Option Nat :=
  (blk.handles.find? (fun (h, x) => decide (some h ≠ but) && decide (x.st ≠ .free) && (match x.run with
    | none => false
    | some (a, m) => decide (a < first + n) && decide (first < a + m)))).map (·.1)

/-- Binds a run to a handle (R328). -/
def State.bindRun (s : State) (b h first n : Nat) (ring : Bool) : State :=
  (List.range n).foldl (fun t i => t.modTile b (first + i) (fun x =>
    { x with valid := false, consumed := false, rows := 0 }))
    (s.modHandle b h (fun x => { x with st := .filling, run := some (first, n), ring := ring }))

/-- The block of the issuing wave. -/
def State.issuerBlock (s : State) : Option (Nat × Block) :=
  match s.cur with
  | none => none
  | some i => match (s.waveAt i.wave).block with
    | none => none
    | some b => (Cells.find s.blocks b).map (fun blk => (b, blk))

/-- A handle field names a handle that the block does not have (R326). -/
def State.badHandle (s : State) (fld : Field) : Bool :=
  match s.issuerBlock with
  | none => true
  | some (_, blk) => decide (blk.handleCount ≤ fld.toNat)

/-- CPY_HSTATE (R340). -/
def Block.handleWord (blk : Block) : Nat :=
  (List.range blk.handleCount).foldl (fun n h => n + (blk.handleAt h).st.code * 4 ^ h) 0

/-! ### Checks -/

/-- A copy command. -/
def OpKind.isCopy : OpKind → Bool
  | .copy _ => true
  | _ => false

/-- The commands that a core's copy engine holds (R325). -/
def State.copiesHeld (s : State) (core : Nat) : Nat :=
  s.ops.foldl (fun n (_, o) => if o.core = core ∧ o.kind.isCopy ∧ !o.done then n + 1 else n) 0

/-- The wave is not its block's producer (R324). -/
def State.notProducer (s : State) (k : Nat) : Bool :=
  let w := s.waveAt k
  match w.block.bind (fun b => Cells.find s.blocks b) with
  | none => true
  | some blk => decide (w.wib ≠ blk.producer)

/-- COPY_RIGHTS (R324). -/
def copyRights : Trap := { code := 8 }

/-- MISALIGN of an address of an engine instruction. -/
def misalign (addr : Nat) (stash write : Bool) : Trap := { code := 4, addr := addr, stash := stash, write := write }

/-- PERM of a stash or B-store run (R149). -/
def stashPerm (addr : Nat) (write : Bool) : Trap := { code := 0x23, addr := addr, stash := true, write := write }

/-- A stash address with bits 31:22 or HOP set, or a run of tiles beyond an allocation. -/
def Block.badRun (blk : Block) (sa n : Nat) : Bool :=
  decide (sa / 2 ^ 19 ≠ 0) || decide (blk.stashTiles < sa / 1024 + n)

/-- A run of a block holds a tile that is not UNMAPPED. -/
def Block.mappedRun (blk : Block) (first n : Nat) : Bool :=
  (List.range n).any (fun i => decide ((Cells.get {} blk.tiles (first + i)).st ≠ .unmapped))

/-- Steps b and c of R333 for a run of stash tiles, and for a run of the B-store. -/
def Block.runCheck (blk : Block) (bst : Bool) (sa n : Nat) (write : Bool) : Check :=
  (Check.trapIf (decide (sa % 1024 ≠ 0)) (misalign sa (!bst) write)).both fun _ =>
  Check.trapIf (if bst then decide (2 ^ 21 < sa + 1024 * n) else blk.badRun sa n || blk.mappedRun (sa / 1024) n)
    (stashPerm sa write)

/-- Step h of R333: the engine holds 16 commands. -/
def State.engineFull (s : State) (core : Nat) : Check := .waitIf (decide (16 ≤ s.copiesHeld core)) .engine

/-! ### Performing copy commands -/

/-- An operation waits for the shadows that its write to a line needs (19_shutter.md R418). -/
def State.starveOp (s : State) (id pa : Nat) : State :=
  let t := s.restoreLine pa
  let u : State := { t with ops := Cells.modify t.ops id (fun o => { o with starves := some pa }) }
  (u.noteStarved pa).stickOp id

/-- A command retires: its handle, where it has one, is FULL in its targets (R327), and what waited for it looks again. -/
def State.endCopy (s : State) (id : Nat) (o : EngineOp) (full : List Nat) (h : Nat) : State :=
  let s1 := full.foldl (fun t b => t.modHandle b h (fun x => if x.st = .filling then { x with st := .full } else x)) s
  (s1.endOp id).wakeOps (fun p => clusterOf p.core == clusterOf o.core)

/-- Writes a data tile of a fill into a run tile of a block, with its tags (R329). -/
def State.landTile (s : State) (b t : Nat) (bs : List Byte) (mask : Nat) : State :=
  (s.stashPut b (1024 * t) bs).modTile b t (fun x =>
    { x with valid := true, consumed := false, rows := BitVec.ofNat 64 mask })

/-- The B-store bytes of a core, from an offset on. -/
def State.bstorePut (s : State) (core off : Nat) (bs : List Byte) : State :=
  { s with bstore := Cells.setRun 0 s.bstore (core * 2 ^ 21 + off) bs }

/-- A block whose waves have all ended, or are gone, drops its ring fill (R339). -/
def State.wavesEnded (s : State) (b : Nat) : Bool :=
  s.waves.all (fun (_, w) => w.block != some b || decide (w.life = .ending))

/-- An earlier command of the same wave and class has not ended (R325). -/
def State.notFirst (s : State) (id : Nat) (o : EngineOp) : Bool :=
  s.ops.any (fun (i, p) => decide (i < id) && p.wave == o.wave && p.cls == o.cls && !p.done && p.kind.isCopy)

/-- An earlier command of the wave, of any class, and this one touch a byte that one of them writes: their accesses stand in program
order (R330). -/
def State.copyConflict (s : State) (id : Nat) (o : EngineOp) (j : CopyJob) : Bool :=
  s.ops.any (fun (i, p) => decide (i < id) && p.wave == o.wave && !p.done && (match p.kind with
    | .copy x => (x.kind == .tileOut || j.kind == .tileOut) && (j.tilePieces j.next).any (fun a => x.ahead a.1 a.2)
    | _ => false))

/-- The targets of a command that are still there. -/
def State.liveTargets (s : State) (j : CopyJob) : List Nat :=
  j.targets.filter (fun b => match Cells.find s.blocks b with
    | none => false
    | some blk => !blk.retired)

/-- COPY_TILE_WRITE (R329, R334 to R336, R397): the next data tile of a command, or its wait. -/
def State.copyTile (s : State) (id : Nat) : State :=
  match Cells.find s.ops id with
  | none => s
  | some o => match o.kind with
    | .copy j =>
      if o.done then s
      else if s.notFirst id o then s.stickOp id
      else
        let d := j.next
        let pieces := j.tilePieces d
        let t := j.offset / 1024 + d % j.run
        let tile := s.tileAt j.block t
        let ring : Bool := j.kind == .boxIn && decide (j.run ≤ d)
        let targets := s.liveTargets j
        if s.copyConflict id o j then s.stickOp id
        else if ring && s.wavesEnded j.block then s.endCopy id o [] 0
        else if ring && !(tile.valid && tile.consumed) then s.stickOp id
        else match s.missingFrame pieces with
          | some f => (s.requestOwnership f).stickOp id
          | none =>
            let go (u : State) : State :=
              if d + 1 = j.total then u.endCopy id o targets j.handle
              else
                let v : State := { u with ops := Cells.modify u.ops id (fun p =>
                  { p with kind := .copy { j with next := d + 1 }, stuck := false, starves := none }) }
                (v.wakeOps (fun p => clusterOf p.core == clusterOf o.core)).post (.copyTileWrite id)
            let toBstore : Bool := j.kind == .bstore || j.kind == .boxBstore || j.kind == .castBstore
            match j.kind with
            | .tileOut =>
              let runs := j.standing pieces (s.stashRaw j.block (j.offset + 1024 * d) 1024)
              (match s.pagedStore (runs.map (fun (a, bs) => (a, bs.length))) (runs.flatMap (·.2)) with
               | .error pa => s.starveOp id pa
               | .ok u => go (u.l0Drop o.core (fun x => pieces.any (fun p => p.1 / 128 == x.line))))
            | _ =>
              let s1 := s.noteRead pieces
              let (bs, mask) := s1.tileData j d
              if toBstore then
                go ((targets.filterMap (fun b => (Cells.find s.blocks b).map (·.core))).foldl
                  (fun u core => u.bstorePut core (j.offset + 1024 * d) bs) s1)
              else go (targets.foldl (fun u b => u.landTile b t bs mask) s1)
    | _ => s

/-! ### Issuing copy commands -/

/-- A copy command that has passed its checks: its pages are noted, its handles are bound, its counter rises. -/
def State.acceptCopy (s : State) (e : Env) (cls : Nat) (j : CopyJob) (need : Need) (bind : Bool) : State :=
  let vas := pagesOf j.spans
  let s1 := (s.touchPages e.key vas)
  let s2 := if bind then j.targets.foldl (fun t b => t.bindRun b j.handle (j.offset / 1024) j.run (decide (j.run < j.total))) s1
    else s1
  s2.issueOp e (some cls) (.copy { j with pages := s.pageFrames e.key need vas })

/-- The checks of R333 from step a on; `toStash` commands name a handle. -/
def State.copyCheck (s : State) (e : Env) (cls : Nat) (j : CopyJob) (need : Need) (bst toStash : Bool) (n : Nat) : Check :=
  let core := (s.waveAt e.key).core
  match Cells.find s.blocks j.block with
  | none => .trap copyRights
  | some blk =>
    (s.counterFull e cls).both fun _ =>
    (Check.trapIf (s.notProducer e.key) copyRights).both fun _ =>
    (Check.trapIf (decide (j.offset % 1024 ≠ 0)) (misalign j.offset (!bst) (j.kind != .tileOut))).both fun _ =>
    (Check.trapIf (decide (j.ga.toNat % 16 ≠ 0)) (misalign j.ga.toNat false need.write)).both fun _ =>
    (blk.runCheck bst j.offset n (j.kind != .tileOut)).both fun _ =>
    (if toStash then
      (Check.waitIf (decide ((blk.handleAt j.handle).st ≠ .free)) .handle).both fun _ =>
      match blk.clash (some j.handle) (j.offset / 1024) n with
      | some h => .trap (blk.handleTrap h)
      | none => .ok
    else .ok).both fun _ =>
    (s.pagesCheck e.key need (pagesOf j.spans)).both fun _ => s.engineFull core

/-- What a copy command needs of the pages it touches. -/
def CopyJob.need (j : CopyJob) : Need := { read := j.kind != .tileOut, write := j.kind == .tileOut, here := true }

/-- Issues a copy command of the producer wave; `q` says which registers it reads. -/
def runCopyReading (p q : OpSpec) (f : FWord) (s : State) (cls : Nat) (job : State → Env → Nat → Block → CopyJob) (bst toStash : Bool) :
    Host.Outcome State Fault Refusal :=
  runWordWith p (fun e t => t.emptyCheck q e) f s (fun e t =>
    match t.issuerBlock with
    | none => t.raise e copyRights
    | some (b, blk) =>
      let j := job t e b blk
      t.atBoundary e (fun u => u.copyCheck e cls j j.need bst toStash j.run) (fun u => u.acceptCopy e cls j j.need toStash))

/-- Issues a copy command that reads every register its operands name. -/
def runCopy (p : OpSpec) (f : FWord) (s : State) (cls : Nat) (job : State → Env → Nat → Block → CopyJob) (bst toStash : Bool) :
    Host.Outcome State Fault Refusal := runCopyReading p p f s cls job bst toStash

/-- The operand of a stash address or B-store offset (R334). -/
def stashAddr : Operand := .source (Gen.sIntLit 10 1)

/-- The signed 32-bit value of a register. -/
def signed32 (x : Nat) : Int := signedOf 32 x

/-- Data tiles of a fill of rows (R332). -/
def TensorMap.tiles (m : TensorMap) (rows : Nat) : Nat := (m.rowBytes * rows + 1023) / 1024

/-! ### Meanings -/

/-- The encoding rules and the command of cpy (R334). -/
def cpySpec (f : FWord) (s : State) : OpSpec :=
  { fd := if f.mod = 0 then .handle else .unused, fa := stashAddr, fb := .source (Gen.sLit 11 0), fc := .quals
    qBits := 0x1FF, modBits := 3, latency := false, illegal := f.mod == 3 || (f.mod == 0 && s.badHandle f.fd) }
def cpyJob (f : FWord) (s : State) (e : Env) (b : Nat) : CopyJob :=
  { kind := if f.mod = 0 then .tileIn else if f.mod = 1 then .tileOut else .bstore
    block := b, handle := f.fd.toNat, offset := s.uvalue e 10 f.fa, run := f.q % 512 + 1, total := f.q % 512 + 1
    ga := BitVec.ofNat 64 (s.uvalue e 11 f.fb), pages := [], targets := [b] }

/-- cpy (R334): in, out and bst. -/
def execCpy (f : FWord) (s : State) : Host.Outcome State Fault Refusal :=
  runCopy (cpySpec f s) f s 0 (fun t e b _ => cpyJob f t e b) (f.mod == 2) (f.mod == 0)

/-- The encoding rules and the command of cpyt (R335). -/
def cpytSpec (f : FWord) (s : State) : OpSpec :=
  { fd := if f.mod = 2 then .unused else .handle, fa := stashAddr, fb := .source { Gen.sOnly 11 with sRegs := 2 }
    fc := .quals, qBits := 0x1FF, modBits := 2, latency := false, reserved := f.mod == 2 && decide (bitsOf f.q 8 3 ≠ 0)
    illegal := f.mod != 2 && s.badHandle f.fd }
def cpytJob (f : FWord) (s : State) (e : Env) (b : Nat) (blk : Block) : CopyJob :=
  let m := Cells.get {} blk.maps (f.q % 8)
  let total := m.tiles (m.box1 * m.box2)
  let run := bitsOf f.q 8 3
  let sc (i : Nat) : Nat := match srcOf f.fb with
    | .s n => (s.sreg e (n + i)).toNat
    | _ => 0
  { kind := if f.mod = 2 then .boxBstore else .boxIn
    block := b, handle := f.fd.toNat, offset := s.uvalue e 10 f.fa, run := if run = 0 then total else run, total := total
    ga := 0, pages := [], tmap := m, targets := [b]
    origin := [signed32 (sc 0), signed32 (sc 0 / 2 ^ 32), if m.rank = 3 then signed32 (sc 1) else 0] }

/-- cpyt reads sc + 1 only for RANK 3 (R335). -/
def cpytReads (f : FWord) (s : State) : OpSpec :=
  let deep : Bool := match s.issuerBlock with
    | none => false
    | some (_, blk) => (Cells.get {} blk.maps (f.q % 8)).rank == 3
  { cpytSpec f s with fb := .source { Gen.sOnly 11 with sRegs := if deep then 2 else 1 } }

/-- cpyt (R335): one box of a map. -/
def execCpyt (f : FWord) (s : State) : Host.Outcome State Fault Refusal :=
  runCopyReading (cpytSpec f s) (cpytReads f s) f s 0 (fun t e b blk => cpytJob f t e b blk) (f.mod == 2) (f.mod != 2)

/-- The encoding rules and the command of gath (R336). -/
def gathSpec (f : FWord) (s : State) : OpSpec :=
  { fd := .handle, fa := stashAddr, fb := .source (Gen.vOnly 2 1 1), fc := .quals, qBits := 7, latency := false
    illegal := s.badHandle f.fd }
def gathJob (f : FWord) (s : State) (e : Env) (b : Nat) (blk : Block) : CopyJob :=
  let m := Cells.get {} blk.maps (f.q % 8)
  { kind := .gatherIn, block := b, handle := f.fd.toNat, offset := s.uvalue e 10 f.fa, run := m.tiles 32, total := m.tiles 32
    ga := 0, pages := [], tmap := m, targets := [b]
    rows := (List.range 32).map (fun l => if e.act.getLsbD l then some (signed32 (s.value e 2 f.fb l)) else none) }

/-- gath (R336): a row of a map for each active lane. -/
def execGath (f : FWord) (s : State) : Host.Outcome State Fault Refusal :=
  runCopy (gathSpec f s) f s 2 (fun t e b blk => gathJob f t e b blk) false true

/-- The map that a tmset's descriptor and registers describe (R331). -/
def mapOf (d : Nat) (sb : DWord) (g : Nat → DWord) : TensorMap :=
  { base := sb, rank := bitsOf d 5 4, esz := 2 ^ bitsOf d 7 6, box0 := bitsOf d 17 8 + 1, box1 := bitsOf d 29 18 + 1
    box2 := bitsOf d 37 30 + 1, ringDim := bitsOf d 39 38, ext0 := (g 0).toNat % 2 ^ 32, ext1 := (g 0).toNat / 2 ^ 32
    ext2 := (g 1).toNat % 2 ^ 32, ring := (g 1).toNat / 2 ^ 32, stride1 := g 2, stride2 := g 3 }

/-- A tmset descriptor that is not accepted (R331). -/
def mapIllegal (d : Nat) : Bool :=
  let m := mapOf d 0 (fun _ => 0)
  let rb := m.rowBytes
  !([16, 32, 64, 128, 256, 512, 1024].contains rb) || decide (524288 < rb * m.box1 * m.box2) ||
  (decide (m.rank ≤ 1) && decide (m.box1 ≠ 1)) || (decide (m.rank ≤ 2) && decide (m.box2 ≠ 1)) || decide (m.rank ≤ m.ringDim)

/-- The encoding rules and the map of tmset (R331). -/
def tmsetSpec (f : FWord) : OpSpec :=
  { fa := .source (Gen.sOnly 11), fb := .source { Gen.sOnly 11 with sRegs := 4 }, fc := .quals, desc := true, latency := false
    reserved := f.ext.isSome && (decide (bitsOf f.desc 63 40 ≠ 0) || bitOf f.desc 3 || bitsOf f.desc 39 38 == 3 ||
      bitsOf f.desc 5 4 == 0)
    illegal := mapIllegal f.desc }
def tmsetMap (f : FWord) (s : State) (e : Env) : TensorMap :=
  mapOf f.desc (BitVec.ofNat 64 (s.uvalue e 11 f.fa)) (fun i => match srcOf f.fb with
    | .s n => s.sreg e (n + i)
    | _ => 0)

/-- tmset (R331). -/
def execTmset (f : FWord) (s : State) : Host.Outcome State Fault Refusal :=
  runWord (tmsetSpec f) f s (fun e t =>
    match t.issuerBlock with
    | none => t.raise e copyRights
    | some (b, _) =>
      let m := tmsetMap f t e
      t.atBoundary e
        (fun _ => match [m.base, m.stride1, m.stride2].find? (fun x => decide (x.toNat % 16 ≠ 0)) with
          | some x => .trap (misalign x.toNat false false)
          | none => .ok)
        (fun u => u.modBlock b (fun blk => { blk with maps := Cells.set {} blk.maps (f.desc % 8) m })))

/-- The encoding rules of hacq, hwait and hrel (R337). -/
def handleSpec (f : FWord) (s : State) : OpSpec :=
  { fa := .handle, fc := .quals, latency := false, illegal := s.badHandle f.fa }

/-- hacq, hwait and hrel: a handle, what it must be, and what it becomes (R337). -/
def runHandle (f : FWord) (s : State) (look : Block → Nat → Check) (act : Handle → Handle) : Host.Outcome State Fault Refusal :=
  runWord (handleSpec f s) f s (fun e t =>
    match t.issuerBlock with
    | none => t.raise e copyRights
    | some (b, _) =>
      let h := f.fa.toNat
      t.atBoundary e (fun u => match Cells.find u.blocks b with
        | none => .ok
        | some blk => look blk h) (fun u => u.modHandle b h act))

/-- hacq (R337). -/
def execHacq (f : FWord) (s : State) : Host.Outcome State Fault Refusal :=
  runHandle f s (fun blk h => .trapIf (decide ((blk.handleAt h).st ≠ .full)) (blk.handleTrap h))
    (fun x => { x with st := .draining })

/-- hwait (R337). -/
def execHwait (f : FWord) (s : State) : Host.Outcome State Fault Refusal :=
  runHandle f s (fun blk h => match (blk.handleAt h).st with
    | .free => .trap (blk.handleTrap h)
    | .filling => .wait .handle []
    | _ => .ok) id

/-- hrel (R337). -/
def execHrel (f : FWord) (s : State) : Host.Outcome State Fault Refusal :=
  runHandle f s (fun blk h => .trapIf (decide ((blk.handleAt h).st ≠ .draining)) (blk.handleTrap h))
    (fun x => { x with st := .free })

/-- Marks the tiles of a run that are valid and not consumed (R329, R338): the bits it changed. -/
def State.markTiles (s : State) (b first n : Nat) : State × Nat :=
  (List.range n).foldl (fun (acc : State × Nat) i =>
    let x := acc.1.tileAt b (first + i)
    if x.valid && !x.consumed then (acc.1.modTile b (first + i) (fun y => { y with consumed := true }), acc.2 + 2 ^ i) else acc) (s, 0)

/-- The encoding rules of tagq (R338). -/
def tagqSpec (f : FWord) : OpSpec :=
  { fd := .dest (Gen.sOnly 11), fa := stashAddr, fc := .quals, qBits := 0xFF, latency := false
    reserved := f.q % 4 == 2 && decide (bitsOf f.q 7 2 ≠ 0) }

/-- A bit for each tile of a run, as a property of the tile says. -/
def State.tileBits (s : State) (b first n : Nat) (g : Tile → Bool) : Nat :=
  (List.range n).foldl (fun m i => if g (s.tileAt b (first + i)) then m + 2 ^ i else m) 0

/-- What tagq reads of a run of tiles, or marks in it (R338). -/
def State.tagEffect (s : State) (e : Env) (f : FWord) (b : Nat) (blk : Block) (first : Nat) : State :=
  let n := bitsOf f.q 7 2 + 1
  match f.q % 4 with
  | 0 => s.write e 11 f.fd (lowestLane e.act) (s.tileBits b first n (·.valid))
  | 1 => s.write e 11 f.fd (lowestLane e.act) (s.tileBits b first n (·.consumed))
  | 2 => s.write e 11 f.fd (lowestLane e.act) (s.tileAt b first).rows.toNat
  | _ =>
    let (v, m) := s.markTiles b first n
    (v.write e 11 f.fd (lowestLane e.act) m).wakeOps (fun o => o.core == blk.core)

/-- tagq (R338). -/
def execTagq (f : FWord) (s : State) : Host.Outcome State Fault Refusal :=
  runWord (tagqSpec f) f s (fun e t =>
    match t.issuerBlock with
    | none => t.raise e copyRights
    | some (b, blk) =>
      let sa := t.uvalue e 10 f.fa
      t.atBoundary e
        (fun _ => (Check.trapIf (decide (sa % 1024 ≠ 0)) (misalign sa true (f.q % 4 == 3))).both fun _ =>
          Check.trapIf (blk.badRun sa (bitsOf f.q 7 2 + 1)) (stashPerm sa (f.q % 4 == 3)))
        (fun u => u.tagEffect e f b blk (sa / 1024)))

/-! ### qmc -/

/-- The targets of a qmc (R397): the blocks of the issuer's group at the positions of the mask that have not retired, in rising
position. -/
def State.castTargets (s : State) (b mask : Nat) : List Nat :=
  let group := s.groupOfBlock b
  (List.range 8).filterMap (fun k =>
    if bitOf mask k then
      (s.blocks.find? (fun (i, x) => x.core % 8 == k && !x.retired && s.groupOfBlock i == group)).map (·.1)
    else none)

/-- The first target whose handle or run stands against a qmc (R397). -/
def State.castClash (s : State) (h first n : Nat) (bst : Bool) (targets : List Nat) : Option Trap :=
  targets.findSome? (fun b => match Cells.find s.blocks b with
    | none => none
    | some blk => if bst then none else (blk.clash (some h) first n).map blk.handleTrap)

/-- The checks of R410 for a qmc. -/
def State.castCheck (s : State) (e : Env) (j : CopyJob) (bst : Bool) : Check :=
  let need : Need := { read := true, here := true }
  let blks := j.targets.filterMap (fun b => Cells.find s.blocks b)
  (s.counterFull e 0).both fun _ =>
  (Check.trapIf (s.notProducer e.key) copyRights).both fun _ =>
  (Check.trapIf (!s.clusterLaunch j.block) { code := 1 }).both fun _ =>
  (Check.trapIf (decide (j.ga.toNat % 16 ≠ 0)) (misalign j.ga.toNat false false)).both fun _ =>
  (Check.trapIf (decide (j.offset % 1024 ≠ 0)) (misalign j.offset (!bst) true)).both fun _ =>
  (Check.trapIf (if bst then decide (2 ^ 21 < j.offset + 1024 * j.run)
      else blks.any (fun blk => blk.badRun j.offset j.run || blk.mappedRun (j.offset / 1024) j.run) || decide (j.offset / 2 ^ 19 ≠ 0))
    (stashPerm j.offset true)).both fun _ =>
  (s.pagesCheck e.key need (pagesOf j.spans)).both fun _ =>
  (s.engineFull (s.waveAt e.key).core).both fun _ =>
  (Check.waitIf (blks.any (fun blk => decide ((blk.handleAt j.handle).st ≠ .free))) .handle).both fun _ =>
  match s.castClash j.handle (j.offset / 1024) j.run bst j.targets with
  | some t => .trap t
  | none => .ok

/-- A handle of a .bst cast enters FILLING without a run (R397). -/
def State.fillHandles (s : State) (targets : List Nat) (h : Nat) : State :=
  targets.foldl (fun t b => t.modHandle b h (fun x => { x with st := .filling, run := none, ring := false })) s

/-- The encoding rules and the command of qmc (R396, R397). -/
def qmcSpec (f : FWord) (s : State) : OpSpec :=
  { fd := .handle, fa := stashAddr, fb := .source (Gen.sLit 11 0), fc := .quals, qBits := 0xFF, typing := .own
    latency := false, reserved := f.mod % 2 == 1, illegal := f.q % 256 == 0 || s.badHandle f.fd }
def qmcJob (f : FWord) (s : State) (e : Env) (b : Nat) : CopyJob :=
  { kind := if f.mod = 2 then .castBstore else .castIn, block := b, handle := f.fd.toNat, offset := s.uvalue e 10 f.fa
    run := f.tcode + 1, total := f.tcode + 1, ga := BitVec.ofNat 64 (s.uvalue e 11 f.fb), pages := []
    targets := s.castTargets b (f.q % 256) }

/-- A qmc that has passed its checks. -/
def State.acceptCast (s : State) (e : Env) (j : CopyJob) (bst : Bool) : State :=
  (if bst then s.fillHandles j.targets j.handle else s).acceptCopy e 0 j { read := true, here := true } (!bst)

/-- qmc (R396, R397). -/
def execQmc (f : FWord) (s : State) : Host.Outcome State Fault Refusal :=
  runWord (qmcSpec f s) f s (fun e t =>
    match t.issuerBlock with
    | none => t.raise e copyRights
    | some (b, _) =>
      let j := qmcJob f t e b
      t.atBoundary e (fun u => u.castCheck e j (f.mod == 2)) (fun u => u.acceptCast e j (f.mod == 2)))

/-- COPY_TILE_WRITE (R329). -/
def execCopyTileWrite (op : Nat) (s : State) : Host.Outcome State Fault Refusal := .next (s.copyTile op)

end Sys2Proof.Machine
end

