-- ==== Sys2Proof/Machine/Matrix.lean ====
section
/-! DEFINITION. The matrix unit of a core: formats, the Louvre B-store, accumulator banks, mxa, mxap, the bank instructions
and accdr (16_matrix.md), with the passes of 02_numbers.md R44 to R46. -/

namespace Sys2Proof.Machine

open Sys2Proof

/-! ### Formats (R352, R365) -/

/-- Bits of an element of an operand format. -/
def mtxBits (c : Nat) : Nat := [16, 16, 8, 8, 8, 8, 6, 6, 8, 4, 4].getD c 8

/-- The pass depth P of an operand format (R44). -/
def mtxPass (c : Nat) : Nat := if c < 2 then 64 else if c < 9 then 128 else 256

/-- An operand format has block scales. -/
def mtxMx (c : Nat) : Bool := [4, 5, 6, 7, 8, 10].contains c

/-- The value of an element of an operand format; MXINT8 counts in units of 2^−6 (R31). -/
def mtxDecode (c x : Nat) : FVal :=
  match c with
  | 0 => fmtBf16.decode x
  | 1 => fmtF16.decode x
  | 2 => fmtE4m3.decode x
  | 3 => fmtE5m2.decode x
  | 4 => fmtE4m3.decode x
  | 5 => fmtE5m2.decode x
  | 6 => fmtE3m2.decode x
  | 7 => fmtE2m3.decode x
  | 8 => .fin (decide (signedOf 8 x < 0)) (signedOf 8 x).natAbs 1 (-6)
  | _ => fmtE2m1.decode x

/-- A value under a block scale: 0xFF makes it NaN (R31). -/
def FVal.scaled (v : FVal) (code : Nat) : FVal := v.mul (decodeE8m0 code)

/-- Bits of an element of a drain format. -/
def drainBits (c : Nat) : Nat := [32, 16, 16, 8, 8, 8, 8, 6, 6, 8, 4].getD c 8

/-- A drain format has block scales. -/
def drainMx (c : Nat) : Bool := decide (5 ≤ c)

/-- The element format of a drain format that is neither .f32 nor MX. -/
def drainFmt (c : Nat) : Fmt :=
  match c with
  | 1 => fmtBf16
  | 2 => fmtF16
  | 3 => fmtE4m3
  | _ => fmtE5m2

/-- The element type of an MX drain format. -/
def drainElem (c : Nat) : MxElem :=
  match c with
  | 5 => .fp fmtE4m3 8
  | 6 => .fp fmtE5m2 15
  | 7 => .fp fmtE3m2 4
  | 8 => .fp fmtE2m3 2
  | 9 => .int8
  | _ => .fp fmtE2m1 2

/-- Bytes that `n` elements of `bits` bits take, packed as R32 packs them. -/
def packedBytes (n bits : Nat) : Nat := (n * bits + 7) / 8

/-- A row of elements packed into one number, element 0 lowest (R32). -/
def packRow (bits : Nat) (xs : List Nat) : Nat := xs.reverse.foldl (fun n x => n * 2 ^ bits + x % 2 ^ bits) 0

/-- Element `i` of a packed row. -/
def packedAt (row bits i : Nat) : Nat := (row / 2 ^ (i * bits)) % 2 ^ bits

/-! ### Accumulator elements (R348, R350) -/

/-- The key of element (bank, row, column) of a core. -/
def accKey (core bank row col : Nat) : Nat := core * 65536 + bank * 2048 + row * 64 + col

/-- read_elem of R350: a parity error sets the poison bit and counts; poison reads as NaN. -/
def State.accRead (s : State) (key : Nat) : Nat × State :=
  if Cells.get false s.accParity key then
    (0x7FC00000, { s with
      accPoison := Cells.set false s.accPoison key true
      mtxErr := Cells.set 0 s.mtxErr (key / 65536) ((Cells.get 0 s.mtxErr (key / 65536) + 1) % 2 ^ 32) })
  else if Cells.get false s.accPoison key then (0x7FC00000, s)
  else ((Cells.get 0 s.acc key).toNat, s)

/-- Reads several elements in order. -/
def State.accReads (s : State) : List Nat → List Nat × State
  | [] => ([], s)
  | k :: ks =>
    let (x, s1) := s.accRead k
    let (xs, s2) := State.accReads s1 ks
    (x :: xs, s2)

/-- A write of an element replaces its value and parity and clears its poison bit (R350). -/
def State.accWrite (s : State) (key x : Nat) : State :=
  { s with
    acc := Cells.set 0 s.acc key (BitVec.ofNat 32 x)
    accPoison := Cells.set false s.accPoison key false
    accParity := Cells.set false s.accParity key false }

/-! ### Mapped tiles under an engine -/

/-- The tiles that some spans of stash bytes touch, each once with the first address touched, in the order of the spans. -/
def spanTiles (spans : List (Nat × Nat)) : List (Nat × Nat) :=
  spans.foldl (fun ts (a, n) =>
    if n = 0 then ts
    else (List.range ((a + n - 1) / 1024 - a / 1024 + 1)).foldl (fun us i =>
      let t := a / 1024 + i
      if us.any (fun u => u.1 == t) then us else us ++ [(t, Nat.max a (1024 * t))]) ts) []

/-- The tiles among some that are mapped. -/
def Block.mappedTiles (blk : Block) (ts : List (Nat × Nat)) : List (Nat × Nat) :=
  ts.filter (fun t => decide ((Cells.get {} blk.tiles t.1).st ≠ .unmapped))

/-- Step d of R368 for the mapped tiles among some tiles of a block (given with an address in each). -/
def State.tilesCheck (s : State) (k : Nat) (blk : Block) (ts : List (Nat × Nat)) (write : Bool) : Check :=
  let (c, core) := s.seat k
  let need : Need := { read := !write, write := write, here := true }
  let place (t : Nat × Nat) : Except AddrFault Place := s.resolve c core (Cells.get {} blk.tiles t.1).va.toNat 1 need
  let mapped := blk.mappedTiles ts
  match mapped.findSome? (fun t => match place t with
    | .error f => some ({ f.trap 0 t.2 write with stash := true } : Trap)
    | .ok _ => none) with
  | some t => .ofTrap t
  | none =>
    let stalls : List Stall := mapped.filterMap (fun t => match place t with
      | .error _ => none
      | .ok p => if s.unowned p.pa then some { frame := p.pa / 65536, addr := t.2, write := write, stash := true } else none)
    if stalls.isEmpty then .ok else .wait .ownership stalls

/-- The translations of step d, which the operation goes on using (R368). -/
def State.tilePages (s : State) (k : Nat) (blk : Block) (ts : List (Nat × Nat)) : Cells Nat :=
  let (c, core) := s.seat k
  (blk.mappedTiles ts).foldl (fun m t =>
    let va := (Cells.get {} blk.tiles t.1).va.toNat
    match s.resolve c core va 1 {} with
    | .error _ => m
    | .ok p => Cells.put m (va / 65536) (p.pa / 65536)) []

/-- The translations of mapped tiles enter the TLBs. -/
def State.touchTiles (s : State) (k : Nat) (blk : Block) (ts : List (Nat × Nat)) : State :=
  s.touchPages k ((blk.mappedTiles ts).map (fun t => (Cells.get {} blk.tiles t.1).va.toNat))

/-- The package address of a line of a mapped tile under the translations of an operation. -/
def State.tileLineAt (s : State) (b : Nat) (pages : Cells Nat) (t line : Nat) : Nat :=
  let va := (s.tileAt b t).va.toNat + 128 * line
  Cells.get 0 pages (va / 65536) * 65536 + va % 65536

/-- A frame among translations that another package owns. -/
def State.unownedPage (s : State) (pages : Cells Nat) : Option Nat :=
  (pages.find? (fun (_, fr) => s.unowned (fr * 65536))).map (·.2)

/-- Fetches a line of a mapped tile for an engine (06_memory_access.md R151, R152), which has it at once (log 68). -/
def State.engineFill (s : State) (b core : Nat) (pages : Cells Nat) (t line : Nat) : State :=
  let pa := s.tileLineAt b pages t line
  ((s.restoreLine pa).cacheLoad (clusterOf core) pa).fillFrom b t line (clusterOf core) (pa / 128) true

/-- A touch of a line of a block's stash by an engine. -/
def State.engineTouch (s : State) (b core : Nat) (pages : Cells Nat) (off : Nat) : State :=
  let t := off / 1024
  let line := off % 1024 / 128
  let tile := s.tileAt b t
  if !tile.unfilled line then s
  else if tile.st ≠ .mapped then s.engineFill b core pages t line
  else (List.range 8).foldl (fun u i => u.engineFill b core pages t i) s

/-- A write of a core that an engine performs for a wave after its acceptance: it ignores RESV, and none while shadows are
missing (19_shutter.md R418). -/
def State.lateStore (s : State) (core pa : Nat) (bs : List Byte) : Option State :=
  let old := s.deviceBytes pa
  match s.tryWrite pa bs with
  | none => none
  | some t => some (t.afterStore core pa bs old)

/-- Writes bytes of a block's stash for a wave, line by line: through the mapping where a tile is mapped (R367), or the
package address whose shadows are missing. -/
def State.engineStash (s : State) (b core : Nat) (pages : Cells Nat) : List (Nat × List Byte) → Except Nat State
  | [] => .ok s
  | (off, bs) :: rest =>
    let t := off / 1024
    let line := off % 1024 / 128
    if (s.tileAt b t).st = .unmapped then State.engineStash (s.stashPut b off bs) b core pages rest
    else
      let s1 := s.engineTouch b core pages off
      let pa := s1.tileLineAt b pages t line + off % 128
      let dirty : Bool := Cells.get .invalid (s1.tileAt b t).lines line == .dirty
      match s1.lateStore core pa bs with
      | none => .error pa
      | some u => State.engineStash ((u.stashPut b off bs).modTile b t (fun x =>
          { x with lines := Cells.set .invalid x.lines line .dirty
                   old := if dirty then x.old else Cells.put x.old line (s1.peek (pa / 128 * 128) 128) })) b core pages rest

/-- Pieces of stash writes, each inside one line. -/
def stashPieces (ws : List (Nat × List Byte)) : List (Nat × List Byte) :=
  ws.flatMap (fun (off, bs) => splitLines (bs.length + 1) off bs)

/-! ### The unit and its order (R341, R342) -/

/-- The operations that a core's unit holds. -/
def State.unitHeld (s : State) (core : Nat) : Nat :=
  (s.ops.filter (fun (_, o) => o.block.isSome && o.units.contains core)).length

/-- Step e of R368. -/
def State.unitFull (s : State) (cores : List Nat) : Check := .waitIf (cores.any (fun c => decide (16 ≤ s.unitHeld c))) .engine

/-- The rows an operation touches: core, first row (bank × 32 + row), number (R342, R399). -/
def OpKind.rows (kind : OpKind) (core : Nat) : List (Nat × Nat × Nat) :=
  match kind with
  | .matrix j => (core, j.bank * 32, j.m) :: (if j.pair then [(Nat.xor core 1, j.bank * 32, j.m)] else [])
  | .zero bank n => [(core, bank * 32, n * 32)]
  | .writeBank ws => ws.map (fun w => (core, w.1 / 64, 1))
  | .readBank _ rs => rs.map (fun r => (core, r.2 / 64, 1))
  | .drain j => [(core, j.bank * 32 + j.first, j.rows)]
  | .release bank n => [(core, bank * 32, n * 32)]
  | .mask j => [(core, j.bank * 32, 32)]
  | .softmax j => [(core, j.sb * 32, j.nb * 32), (core, j.ob * 32, j.n), (core, j.tb * 32, j.n)]
  | .reduce j =>
    let rows := 8 * (bitsOf j.desc.toNat 42 41 + 1)
    [(core, j.ob * 32, rows), (core, bitsOf j.desc.toNat 52 48 * 32, rows)]
  | _ => []

/-- Two operations touch a common row. -/
def EngineOp.meets (a b : EngineOp) : Bool :=
  (a.kind.rows a.core).any (fun (c, r, n) => (b.kind.rows b.core).any (fun (d, q, m) =>
    c == d && decide (r < q + m) && decide (q < r + n)))

/-- An mxap holds the follower's array against a later mxa or mxap there (R358). -/
def EngineOp.slaves (a b : EngineOp) : Bool :=
  match a.kind, b.kind with
  | .matrix j, .matrix _ => j.pair && b.units.contains (Nat.xor a.core 1)
  | _, _ => false

/-- A grant looks at the banks as every earlier grant left them (R342). -/
def EngineOp.grants (a b : EngineOp) : Bool :=
  match a.kind, b.kind with
  | .grant _ _, .grant _ _ => a.core == b.core
  | _, _ => false

/-- An operation that arrived earlier is still to be performed before this one. -/
def State.unitBehind (s : State) (id : Nat) (o : EngineOp) : Bool :=
  s.ops.any (fun (i, p) => decide (i < id) && !p.done && p.kind.onUnit && (p.meets o || p.slaves o || p.grants o))

/-- Banks that were given up become FREE once every operation that arrived before is performed (R348, R362). -/
def State.settleBanks (s : State) (core : Nat) : State :=
  let mine := s.ops.filter (fun (_, o) => o.units.contains core)
  mine.foldl (fun t (id, o) => match o.kind with
    | .release bank n =>
      if t.ops.any (fun (i, p) => decide (i < id) && p.units.contains core) then t
      else
        let u : State := { t with banks := (List.range n).foldl (fun m i => Cells.del m (bankKey core (bank + i))) t.banks }
        if o.block.isNone then { u with ops := Cells.del u.ops id } else u.endOp id
    | _ => t) s

/-- An operation has been performed. -/
def State.endUnit (s : State) (id : Nat) (o : EngineOp) : State :=
  (o.units.foldl State.settleBanks (s.endOp id)).wakeOps (fun p => clusterOf p.core == clusterOf o.core)

/-- ACC_UNALLOC for banks d to d + n − 1 that are not all GRANTED to a block (R349). -/
def State.banksCheck (s : State) (core b d n : Nat) : Check :=
  if 32 < d + n then .trap { code := 0x0A, detail := d }
  else match (List.range n).find? (fun i => decide (Cells.find s.banks (bankKey core (d + i)) ≠ some (.granted b))) with
    | some i => .trap { code := 0x0A, detail := d + i }
    | none => .ok

/-! ### Performing mxa and mxap (R357, R358) -/

/-- Bytes of a row of A. -/
def MatrixJob.rowBytes (j : MatrixJob) : Nat := packedBytes j.k (mtxBits j.af)

/-- The spans of A in the stash: its rows, then its scales (R353). -/
def MatrixJob.spans (j : MatrixJob) : List (Nat × Nat) :=
  match j.a with
  | .regs _ => []
  | .stash a => (List.range j.m).map (fun m => (a + m * j.astride, j.rowBytes)) ++
      (if mtxMx j.af then [(a + j.m * j.astride, j.m * j.k / 32)] else [])

/-- The kernel of a block has ended FAULTED or KILLED and no copy into its stash is under way: no tag of it changes any more, and an
operation that has arrived is performed (R369) without one (DESIGN CHOICE, log 8). -/
def State.tagsDead (s : State) (b : Nat) : Bool :=
  (match (Cells.find s.blocks b).bind (fun blk => Cells.find s.launches blk.launch) with
    | none => false
    | some l => l.killed.isSome) &&
  s.waves.all (fun (_, w) => w.block != some b) && s.ops.all (fun (_, o) => match o.kind with
    | .copy j => o.done || !(j.block == b || j.targets.contains b)
    | _ => true)

/-- An operation that arrived earlier has still to read a tile under its tags: the tags of one tile change in arrival order
(R329). -/
def State.tileBehind (s : State) (id b tile : Nat) : Bool :=
  s.ops.any (fun (i, p) => decide (i < id) && !p.done && p.block == some b && (match p.kind with
    | .matrix j => j.tags != 0 && (spanTiles j.spans).any (fun x => x.1 == tile) && j.got.all (fun g => g.1 != tile)
    | _ => false))

/-- Reads tiles of A in order as far as their tags let it (R353). -/
def State.readTiles (s : State) (id b core : Nat) (j : MatrixJob) : List Nat → State × MatrixJob × Bool
  | [] => (s, j, true)
  | t :: ts =>
    if j.got.any (fun g => g.1 == t) then State.readTiles s id b core j ts
    else
      let tile := s.tileAt b t
      let ready := match j.tags with
        | 1 => tile.valid
        | 2 => tile.valid && !tile.consumed
        | _ => true
      if (!ready && !s.tagsDead b) || (j.tags != 0 && s.tileBehind id b t) then (s, j, false)
      else
        let used := (List.range 8).filter (fun i => j.spans.any (fun (a, n) =>
          decide (a < 1024 * t + 128 * (i + 1)) && decide (1024 * t + 128 * i < a + n)))
        let s1 := used.foldl (fun u i => u.engineTouch b core j.pages (1024 * t + 128 * i)) s
        let j1 : MatrixJob := { j with got := j.got ++ [(t, s1.stashRaw b (1024 * t) 1024, tile.rows.toNat)] }
        let s2 := (if j.tags = 2 then s1.modTile b t (fun x => { x with consumed := true }) else s1).wakeOps (fun o =>
          clusterOf o.core == clusterOf core)
        State.readTiles s2 id b core j1 ts

/-- Bytes of A that have been read. -/
def MatrixJob.bytes (j : MatrixJob) (a len : Nat) : List Byte :=
  (List.range len).map (fun i => match j.got.find? (fun g => g.1 == (a + i) / 1024) with
    | none => 0
    | some (_, bs, _) => bs.getD ((a + i) % 1024) 0)

/-- Row `m` of A is masked (R353). -/
def MatrixJob.masked (j : MatrixJob) (m : Nat) : Bool :=
  match j.a with
  | .regs _ => false
  | .stash a =>
    let at' := a + m * j.astride
    j.rmask && (match j.got.find? (fun g => g.1 == at' / 1024) with
      | none => false
      | some (_, _, mask) => !bitOf mask (at' % 1024 / j.astride))

/-- Row `m` of A as values, scales included. -/
def MatrixJob.rowValues (j : MatrixJob) (m : Nat) : List FVal :=
  let bits := mtxBits j.af
  match j.a with
  | .regs rows =>
    let row := packRow 32 ((rows.getD m []).map (·.toNat))
    (List.range j.k).map (fun k => mtxDecode j.af (packedAt row bits k))
  | .stash a =>
    let row := ofBytes (j.bytes (a + m * j.astride) j.rowBytes)
    let scales := if mtxMx j.af then j.bytes (a + j.m * j.astride + m * (j.k / 32)) (j.k / 32) else []
    (List.range j.k).map (fun k =>
      let v := mtxDecode j.af (packedAt row bits k)
      if mtxMx j.af then v.scaled (scales.getD (k / 32) 0).toNat else v)

/-- Slot `n` of B as values, scales included (R345). -/
def State.columnValues (s : State) (core : Nat) (j : MatrixJob) (n : Nat) : List FVal :=
  let bits := mtxBits j.bf
  let base := core * 2 ^ 21 + j.bo
  (List.range j.k).map (fun k =>
    let two := ofBytes (Cells.getRun 0 s.bstore (base + k * (8 * bits) + n * bits / 8) 2)
    let v := mtxDecode j.bf ((two / 2 ^ (n * bits % 8)) % 2 ^ bits)
    if mtxMx j.bf then v.scaled (Cells.get 0 s.bstore (base + j.k * (8 * bits) + 64 * (k / 32) + n)).toNat else v)

/-- The passes over a row and a column, in turn (R45, R46). -/
def macPasses (depth : Nat) (prods : List FVal) (acc : Nat) : Nat :=
  (List.range ((prods.length + depth - 1) / depth)).foldl (fun x p =>
    accStep x (passValue ((prods.drop (p * depth)).take depth))) acc

/-- The part of mxa or mxap on one core: columns 0 to `cols` − 1 of its banks. -/
def State.macCore (s : State) (core : Nat) (j : MatrixJob) (cols : Nat) : State :=
  let columns := (List.range cols).map (fun n => s.columnValues core j n)
  (List.range j.m).foldl (fun t m =>
    let key (n : Nat) : Nat := accKey core (j.bank + m / 32) (m % 32) n
    if j.masked m then (if j.acc then t else (List.range cols).foldl (fun u n => u.accWrite (key n) 0) t)
    else
      let row := j.rowValues m
      columns.zipIdx.foldl (fun (u : State) (col, n) =>
        let (a0, u1) := if j.acc then u.accRead (key n) else (0, u)
        u1.accWrite (key n) (macPasses (mtxPass j.af) (List.zipWith FVal.mul row col) a0)) t) s

/-- An mxa or mxap at its turn: it reads A as the tags allow, then performs its passes. -/
def State.runMatrix (s : State) (id : Nat) (o : EngineOp) (j : MatrixJob) : State :=
  match s.unownedPage j.pages with
  | some f => (s.requestOwnership f).stickOp id
  | none =>
    let (s1, j1, all) := s.readTiles id (o.block.getD 0) o.core j ((spanTiles j.spans).map (·.1))
    if !all then
      ({ s1 with ops := Cells.modify s1.ops id (fun p => { p with kind := .matrix j1 }) } : State).stickOp id
    else if j.pair then
      ((s1.macCore o.core j1 64).macCore (Nat.xor o.core 1) j1 (j.n - 64)).endUnit id o
    else (s1.macCore o.core j1 j.n).endUnit id o

/-! ### Performing the bank instructions (R361 to R363) and accdr (R366) -/

/-- The lowest run of `n` FREE banks of a core. -/
def State.freeRun (s : State) (core n : Nat) : Option Nat :=
  (List.range (33 - n)).find? (fun d => (List.range n).all (fun i => (Cells.find s.banks (bankKey core (d + i))).isNone))

/-- Gives a result in flight with one s register its value. -/
def State.endFillS (s : State) (fill x : Nat) : State :=
  match Cells.find s.fills fill with
  | none => s
  | some y => s.endFill fill [] (y.sKeys.map (fun k => (k, BitVec.ofNat 64 x)))

/-- accal (R361). -/
def State.runGrant (s : State) (id : Nat) (o : EngineOp) (fill n : Nat) : State :=
  if n = 0 ∨ 32 < n then (s.endFillS fill (4 * 2 ^ 56)).endUnit id o
  else match s.freeRun o.core n with
    | none => (s.endFillS fill (2 ^ 56)).endUnit id o
    | some d =>
      let t : State := { s with banks := (List.range n).foldl (fun m i =>
        Cells.put m (bankKey o.core (d + i)) (.granted (o.block.getD 0))) s.banks }
      (t.endFillS fill d).endUnit id o

/-- acczr (R362). -/
def State.runZero (s : State) (id : Nat) (o : EngineOp) (bank n : Nat) : State :=
  let out {α : Type} (m : Cells α) : Cells α := m.filter (fun (k, _) =>
    !(decide (accKey o.core bank 0 0 ≤ k) && decide (k < accKey o.core (bank + n) 0 0)))
  ({ s with acc := out s.acc, accPoison := out s.accPoison, accParity := out s.accParity } : State).endUnit id o

/-- accwr (R363). -/
def State.runWriteBank (s : State) (id : Nat) (o : EngineOp) (ws : List (Nat × Word)) : State :=
  (ws.foldl (fun t (k, x) => t.accWrite (o.core * 65536 + k) x.toNat) s).endUnit id o

/-- accrd (R363). -/
def State.runReadBank (s : State) (id : Nat) (o : EngineOp) (fill : Nat) (rs : List (Nat × Nat)) : State :=
  let (xs, s1) := s.accReads (rs.map (fun r => o.core * 65536 + r.2))
  (s1.endFill fill (List.zipWith (fun r x => (r.1, BitVec.ofNat 32 x)) rs xs) []).endUnit id o

/-- The rounding mode of element `i` of a drain: each takes the next draw (R42). -/
def DrainJob.rnd (j : DrainJob) (i : Nat) : Rnd := rndOf 0 j.mode (srDraw j.key ((j.counter + i) % 2 ^ 32))

/-- An output row of a drain: its elements packed, and its scale bytes (R366). -/
def DrainJob.output (j : DrainJob) (r : Nat) (xs : List Nat) : Nat × List Nat :=
  let bits := drainBits j.df
  if j.df = 0 then (packRow 32 xs, [])
  else if drainMx j.df then
    let groups := (List.range (j.ncol / 32)).map (fun g =>
      mxQuantise (drainElem j.df) (((xs.drop (32 * g)).take 32).map fmtF32.decode) (fun i => j.rnd (r * j.ncol + 32 * g + i)))
    (packRow bits (groups.flatMap (·.2)), groups.map (·.1))
  else (packRow bits (xs.zipIdx.map (fun (x, c) =>
    convert (drainFmt j.df) (fmtF32.decode x) (j.rnd (r * j.ncol + c)) j.sat)), [])

/-- The rows of a drain, read in order. -/
def State.drainRows (s : State) (core : Nat) (j : DrainJob) : List (Nat × List Nat) × State :=
  (List.range j.rows).foldl (fun (acc : List (Nat × List Nat) × State) r =>
    let (xs, t) := acc.2.accReads ((List.range j.ncol).map (fun c => accKey core j.bank (j.first + r) (j.c0 + c)))
    (acc.1 ++ [j.output r xs], t)) ([], s)

/-- Bytes of an output row of a drain. -/
def DrainJob.rowBytes (j : DrainJob) : Nat := packedBytes j.ncol (drainBits j.df)

/-- The registers of a drain's row (R354, R366). -/
def DrainJob.group (j : DrainJob) : Nat := (j.ncol * drainBits j.df + 31) / 32

/-- The spans that a stash drain writes: its rows, then its scale array. -/
def DrainJob.spans (j : DrainJob) : List (Nat × Nat) :=
  if j.toRegs then []
  else (List.range j.rows).map (fun r => (j.sa + r * j.stride, j.rowBytes)) ++
    (if drainMx j.df then [(j.sofs, j.rows * j.ncol / 32)] else [])

/-- accdr (R366, R367): the scale bytes are written after the element bytes. -/
def State.runDrain (s : State) (id : Nat) (o : EngineOp) (j : DrainJob) : State :=
  match s.unownedPage j.pages with
  | some f => (s.requestOwnership f).stickOp id
  | none =>
    let (rows, s1) := s.drainRows o.core j
    if j.toRegs then
      let vs := (List.range j.group).flatMap (fun g => (laneList j.live).map (fun r =>
        ((j.vd + g) * 32 + r, BitVec.ofNat 32 (packedAt (rows.getD r (0, [])).1 32 g))))
      (s1.endFill (j.fill.getD 0) vs []).endUnit id o
    else
      let elements := rows.zipIdx.map (fun (x, r) => (j.sa + r * j.stride, toBytes j.rowBytes x.1))
      let scales := rows.zipIdx.map (fun (x, r) => (j.sofs + r * (j.ncol / 32), x.2.map (fun y => BitVec.ofNat 8 y)))
      match s1.engineStash (o.block.getD 0) o.core j.pages (stashPieces (elements ++ scales)) with
      | .error pa => s.starveOp id pa
      | .ok t => t.endUnit id o

/-! ### Operands -/

/-- A bank operand of R349: a bank field, an s register in blocking mode, or another kind, which is illegal. -/
def bankOperand (f : Field) : Operand :=
  if f.toNat < 256 then .bank else if f.toNat < 320 then .data (Gen.sOnly 10) else .offset

/-- A bank operand that names no `n` banks (R349). -/
def bankIllegal (f : Field) (n : Nat) : Bool :=
  decide (320 ≤ f.toNat) || (decide (f.toNat < 32) && decide (32 < f.toNat + n))

/-- The first bank that a bank operand names. -/
def State.bankOf (s : State) (e : Env) (f : Field) : Nat :=
  if f.toNat < 256 then f.toNat else s.uvalue e 10 f % 32

/-- An s register or an integer constant, bits 31:0. -/
def sOrInt : Operand := .source { ty := 10, v := false, fconst := false, special := false, lits := [] }

/-- Runs a matrix-unit word on the issuing block. -/
def onBlock (e : Env) (s : State) (body : Nat → Block → State) : State :=
  match s.issuerBlock with
  | none => s.raise e { code := 1 }
  | some (b, blk) => body b blk

/-- A stash address with bits 31:22 or HOP set, or a span beyond the allocation (R149). -/
def Block.badSpan (blk : Block) (x : Nat × Nat) : Bool :=
  decide (x.1 / 2 ^ 19 ≠ 0) || decide (1024 * blk.stashTiles < x.1 + x.2)

/-- The first span of a list that a block's allocation does not hold: PERM with STASH (step c of R368). -/
def Block.spansCheck (blk : Block) (addr : Nat) (spans : List (Nat × Nat)) (write : Bool) : Check :=
  if decide (addr / 2 ^ 19 ≠ 0) then .trap (stashPerm addr write)
  else match spans.find? blk.badSpan with
    | some x => .trap (stashPerm x.1 write)
    | none => .ok

/-! ### mxa and mxap -/

/-- The fields of a descriptor of mxa or mxap (R356). -/
structure MxaDesc where
  af : Nat
  bf : Nat
  k : Nat
  n : Nat
  m : Nat
  astride : Nat
  rest : Nat
  deriving DecidableEq, Repr

def mxaDesc (d : Nat) : MxaDesc :=
  { af := bitsOf d 63 60, bf := bitsOf d 59 56, k := bitsOf d 55 44 + 1, n := bitsOf d 43 37 + 1, m := 8 * (bitsOf d 36 32 + 1)
    astride := 16 * bitsOf d 31 23, rest := bitsOf d 22 0 }

/-- The registers of a register A (R354). -/
def MxaDesc.group (d : MxaDesc) : Nat := (d.k * mtxBits d.af + 31) / 32

/-- What makes mxa or mxap illegal at step 5 of R78 (R353, R354, R356). -/
def MxaDesc.illegal (d : MxaDesc) (pair regs : Bool) (tags : Nat) (rmask : Bool) : Bool :=
  (if pair then decide (d.n < 65) else decide (64 < d.n)) || decide (mtxPass d.af ≠ mtxPass d.bf) ||
  ((mtxMx d.af || mtxMx d.bf) && decide (d.k % 32 ≠ 0)) ||
  (if regs then !([0, 1, 2, 3, 9].contains d.af) || decide (mtxPass d.af < d.k) || decide (32 < d.m) ||
      decide (d.astride ≠ 0) || decide (tags ≠ 0) || rmask
   else decide (d.astride < packedBytes d.k (mtxBits d.af)) ||
      (rmask && !([16, 32, 64, 128, 256, 512, 1024].contains d.astride)))

/-- FA of mxa names v registers. -/
def regsA (f : FWord) : Bool := decide (f.fa.toNat < 256)

/-- The encoding rules of mxa and mxap (R355, R356). -/
def mxaSpec (f : FWord) (pair : Bool) : OpSpec :=
  let d := mxaDesc (f.ext.getD 0).toNat
  { fd := bankOperand f.fd
    fa := if regsA f then .source (Gen.vOnly 10 d.group 8) else sOrInt
    fb := sOrInt, fc := .quals, qBits := 0xF, desc := true, latency := false
    reserved := bitsOf f.q 2 1 == 3 || (f.ext.isSome && (decide (d.rest ≠ 0) || decide (10 < d.af) || decide (10 < d.bf)))
    illegal := bankIllegal f.fd ((d.m + 31) / 32) || d.illegal pair (regsA f) (bitsOf f.q 2 1) (bitOf f.q 3) }

/-- Step 6 of R78 for mxa: a register A is read in lanes 0 to M − 1, whether live or not (R354). -/
def mxaEmpty (f : FWord) (pair : Bool) (e : Env) (s : State) : Check :=
  let p := mxaSpec f pair
  if !regsA f then s.emptyCheck p e
  else
    let d := mxaDesc (f.ext.getD 0).toNat
    let w := s.turnWave e
    let lanes := maskOf (List.range d.m)
    let group := p.fa.regs f.fa
    (Check.trapIf (f.ea && w.anyEmpty group lanes) { code := 3, lane := w.emptyLane group lanes, aux := f.fa.toNat }).both
    fun _ => (Check.waitIf (w.anyEmpty group lanes) .register).both fun _ => s.emptyCheck { p with fa := .offset } e

/-- The block at the follower position of an mxap (R358). -/
def State.follower (s : State) (b : Nat) (blk : Block) : Option Nat :=
  (s.blocks.find? (fun (i, x) => x.core == Nat.xor blk.core 1 && !x.retired && s.groupOfBlock i == s.groupOfBlock b)).map (·.1)

/-- Bytes of B from its offset on (R345). -/
def MatrixJob.bBytes (j : MatrixJob) : Nat := j.k * (8 * mtxBits j.bf) + (if mtxMx j.bf then 64 * (j.k / 32) else 0)

/-- The checks of R368 for mxa and mxap. -/
def State.mxaCheck (s : State) (e : Env) (b : Nat) (blk : Block) (j : MatrixJob) : Check :=
  let nb := (j.m + 31) / 32
  let tiles := spanTiles j.spans
  (s.counterFull e 1).both fun _ =>
  (Check.trapIf (j.pair && (blk.core % 2 == 1 || !s.clusterLaunch b)) { code := 1 }).both fun _ =>
  (match j.a with
   | .regs _ => Check.ok
   | .stash a => Check.trapIf (decide (a % 16 ≠ 0) || (j.rmask && decide (a % j.astride ≠ 0))) (misalign a true false)).both fun _ =>
  (Check.trapIf (decide (j.bo % 16 ≠ 0)) (misalign j.bo false false)).both fun _ =>
  (match j.a with
   | .regs _ => Check.ok
   | .stash a => blk.spansCheck a j.spans false).both fun _ =>
  (Check.trapIf (decide (2 ^ 21 < j.bo + j.bBytes)) (stashPerm j.bo false)).both fun _ =>
  (s.tilesCheck e.key blk tiles false).both fun _ =>
  (s.unitFull (if j.pair then [blk.core, Nat.xor blk.core 1] else [blk.core])).both fun _ =>
  (s.banksCheck blk.core b j.bank nb).both fun _ =>
  if !j.pair then .ok
  else match s.follower b blk with
    | none => .trap { code := 0x0A, detail := j.bank }
    | some fb => s.banksCheck (Nat.xor blk.core 1) fb j.bank nb

/-- The operation that an mxa or mxap asks for: its operands as they stand, and its descriptor. -/
def State.mxaJob (s : State) (e : Env) (f : FWord) (pair : Bool) : MatrixJob :=
  let d := mxaDesc (f.ext.getD 0).toNat
  let a : MatrixA := if regsA f then
      .regs ((List.range d.m).map (fun m => (List.range d.group).map (fun g => s.vreg e (f.fa.toNat + g) m)))
    else .stash (s.uvalue e 10 f.fa)
  { pair := pair, bank := s.bankOf e f.fd, a := a, bo := s.uvalue e 10 f.fb, m := d.m, n := d.n, k := d.k
    af := d.af, bf := d.bf, astride := d.astride, acc := bitOf f.q 0, tags := bitsOf f.q 2 1, rmask := bitOf f.q 3 }

/-- Issues mxa or mxap. -/
def runMxa (f : FWord) (s : State) (pair : Bool) : Host.Outcome State Fault Refusal :=
  runWordWith (mxaSpec f pair) (mxaEmpty f pair) f s (fun e t => onBlock e t (fun b blk =>
    let j := t.mxaJob e f pair
    let tiles := spanTiles j.spans
    t.atBoundary e (fun u => u.mxaCheck e b blk j) (fun u =>
      (u.touchTiles e.key blk tiles).issueOp e (some 1) (.matrix { j with
        pages := u.tilePages e.key blk tiles, mate := if pair then u.follower b blk else none }))))

/-- mxa (R355 to R357, R359). -/
def execMxa (f : FWord) (s : State) : Host.Outcome State Fault Refusal := runMxa f s false

/-- mxap (R358). -/
def execMxap (f : FWord) (s : State) : Host.Outcome State Fault Refusal := runMxa f s true

/-! ### Bank instructions -/

/-- The encoding rules of accal, and of accfr and acczr (R360). -/
def accalSpec : OpSpec := { fd := .dest (Gen.sOnly 11), fa := .source (Gen.sIntLit 10 1), fc := .quals, latency := false }
def banksSpec (f : FWord) : OpSpec :=
  { fa := bankOperand f.fa, fc := .quals, qBits := 0x1F, latency := false, reserved := f.ea
    illegal := bankIllegal f.fa (f.q % 32 + 1) }

/-- accal (R360, R361). -/
def execAccal (f : FWord) (s : State) : Host.Outcome State Fault Refusal :=
  runWord accalSpec f s (fun e t =>
    onBlock e t (fun _ blk => t.atBoundary e (fun u => u.unitFull [blk.core]) (fun u =>
      let (fill, v) := u.startFill e.key (u.destKeys e 1 f.fd e.act)
      v.issueOp e none (.grant fill (t.uvalue e 10 f.fa)))))

/-- accfr (R362). -/
def execAccfr (f : FWord) (s : State) : Host.Outcome State Fault Refusal :=
  let n := f.q % 32 + 1
  runWord (banksSpec f) f s (fun e t => onBlock e t (fun b blk =>
    let d := t.bankOf e f.fa
    t.atBoundary e (fun u => (u.unitFull [blk.core]).both fun _ => u.banksCheck blk.core b d n) (fun u =>
      let v : State := { u with banks := (List.range n).foldl (fun m i => Cells.put m (bankKey blk.core (d + i)) .freeing) u.banks }
      (v.issueOp e none (.release d n)).settleBanks blk.core)))

/-- acczr (R362). -/
def execAcczr (f : FWord) (s : State) : Host.Outcome State Fault Refusal :=
  let n := f.q % 32 + 1
  runWord (banksSpec f) f s (fun e t => onBlock e t (fun b blk =>
    let d := t.bankOf e f.fa
    t.atBoundary e
      (fun u => (u.counterFull e 1).both fun _ => (u.unitFull [blk.core]).both fun _ => u.banksCheck blk.core b d n)
      (fun u => u.issueOp e (some 1) (.zero d n))))

/-- The encoding rules of accrd and accwr (R360), with what FD holds. -/
def elemSpec (f : FWord) (fd : Operand) : OpSpec :=
  { fd := fd, fa := bankOperand f.fa, fb := sOrInt, fc := .quals, modBits := 3, latency := false, reserved := f.ea
    illegal := bankIllegal f.fa 1 }

/-- MISALIGN of accrd and accwr: the column is out of range or not a multiple of the count (R363). -/
def columnCheck (col cnt : Nat) (write : Bool) : Check :=
  .trapIf (decide (64 ≤ col) || decide (col % cnt ≠ 0)) (misalign col false write)

/-- accrd (R360, R363). -/
def execAccrd (f : FWord) (s : State) : Host.Outcome State Fault Refusal :=
  let cnt := 2 ^ (f.mod % 4)
  runWord (elemSpec f (.dest (Gen.vOnly 10 cnt cnt))) f s (fun e t => onBlock e t (fun b blk =>
    let d := t.bankOf e f.fa
    let col := t.uvalue e 10 f.fb
    t.atBoundary e
      (fun u => (columnCheck col cnt false).both fun _ => (u.unitFull [blk.core]).both fun _ => u.banksCheck blk.core b d 1)
      (fun u =>
        let (fill, v) := u.startFill e.key (u.destKeys e cnt f.fd e.act)
        v.issueOp e none (.readBank fill ((laneList e.act).flatMap (fun l => (List.range cnt).map (fun i =>
          ((f.fd.toNat + i) * 32 + l, accKey 0 d l (col + i)))))))))

/-- accwr (R360, R363). -/
def execAccwr (f : FWord) (s : State) : Host.Outcome State Fault Refusal :=
  let cnt := 2 ^ (f.mod % 4)
  runWord (elemSpec f (.data (Gen.vOnly 10 cnt cnt))) f s (fun e t => onBlock e t (fun b blk =>
    let d := t.bankOf e f.fa
    let col := t.uvalue e 10 f.fb
    t.atBoundary e
      (fun u => (u.counterFull e 1).both fun _ => (columnCheck col cnt true).both fun _ => (u.unitFull [blk.core]).both fun _ =>
        u.banksCheck blk.core b d 1)
      (fun u => u.issueOp e (some 1) (.writeBank ((laneList e.act).flatMap (fun l => (List.range cnt).map (fun i =>
        (accKey 0 d l (col + i), t.vreg e (f.fd.toNat + i) l))))))))

/-! ### accdr -/

/-- The drain that an accdr's descriptor describes (R364); its operands and generator are still to come. -/
def drainDesc (d : Nat) (toRegs : Bool) : DrainJob :=
  { toRegs := toRegs, vd := 0, fill := none, live := 0, bank := 0, sa := 0, df := bitsOf d 63 60, mode := bitsOf d 59 57
    sat := bitOf d 56, rows := 8 * (bitsOf d 55 54 + 1), first := 8 * bitsOf d 53 52, c0 := bitsOf d 51 46
    ncol := bitsOf d 45 39 + 1, stride := bitsOf d 38 26, sofs := bitsOf d 25 7, key := 0, counter := 0 }

/-- A reserved field of an accdr's descriptor (R364, R33). -/
def drainReserved (d : Nat) : Bool :=
  let j := drainDesc d false
  decide (bitsOf d 6 0 ≠ 0) || decide (10 < j.df) || decide (5 < j.mode) || (j.df == 0 && (decide (j.mode ≠ 0) || j.sat)) ||
  (drainMx j.df && j.sat) || (!drainMx j.df && decide (j.sofs ≠ 0))

/-- What makes an accdr illegal at step 5 of R78 (R364). -/
def DrainJob.illegal (j : DrainJob) : Bool :=
  decide (32 < j.first + j.rows) || decide (64 < j.c0 + j.ncol) ||
  (if j.toRegs then decide (j.stride ≠ 0) || drainMx j.df else decide (j.stride % 16 ≠ 0) || decide (j.stride < j.rowBytes)) ||
  (drainMx j.df && (decide (j.c0 % 32 ≠ 0) || decide (j.ncol % 32 ≠ 0)))

/-- The encoding rules of accdr (R364). -/
def accdrSpec (f : FWord) : OpSpec :=
  let toRegs := bitOf f.q 0
  let d := (f.ext.getD 0).toNat
  let j := drainDesc d toRegs
  { fd := if toRegs then .dest (Gen.vOnly 10 j.group 8) else .unused
    fa := bankOperand f.fa, fb := if toRegs then .unused else sOrInt, fc := .quals, qBits := 1, desc := true, latency := false
    reserved := f.ea || (f.ext.isSome && drainReserved d)
    illegal := bankIllegal f.fa 1 || j.illegal }

/-- The live lanes that a register drain writes (R366). -/
def State.drainLanes (s : State) (k rows : Nat) : Word := (s.waveAt k).m0 &&& maskOf (List.range rows)

/-- Step 6 of R78 for accdr: a register drain writes the live lanes below ROWS, whether active or not. -/
def accdrEmpty (f : FWord) (e : Env) (s : State) : Check :=
  let p := accdrSpec f
  let j := drainDesc (f.ext.getD 0).toNat (bitOf f.q 0)
  if !j.toRegs then s.emptyCheck p e
  else (s.emptyCheck { p with fd := .offset } e).both fun _ =>
    .waitIf ((s.turnWave e).anyEmpty (p.fd.regs f.fd) (s.drainLanes e.key j.rows)) .register

/-- A band of another drain that has arrived and not retired (R351). -/
def State.bandClaimed (s : State) (core bank first rows : Nat) : Bool :=
  s.ops.any (fun (_, o) => o.core == core && (match o.kind with
    | .drain j => j.bank == bank && decide (j.first < first + rows) && decide (first < j.first + j.rows)
    | _ => false))

/-- The code of a row band (R351). -/
def bandCode (bank first rows : Nat) : Nat := bank * 16 + first / 8 * 4 + (rows / 8 - 1)

/-- The checks of R368 for accdr. -/
def State.accdrCheck (s : State) (e : Env) (b : Nat) (blk : Block) (j : DrainJob) : Check :=
  (s.counterFull e 1).both fun _ =>
  (Check.trapIf (!j.toRegs && decide (j.sa % 16 ≠ 0)) (misalign j.sa true true)).both fun _ =>
  (if j.toRegs then .ok else blk.spansCheck j.sa j.spans true).both fun _ =>
  (s.tilesCheck e.key blk (spanTiles j.spans) true).both fun _ =>
  (s.unitFull [blk.core]).both fun _ =>
  (s.banksCheck blk.core b j.bank 1).both fun _ =>
  .trapIf (s.bandClaimed blk.core j.bank j.first j.rows)
    { code := 0x0B, detail := j.bank, aux := bandCode j.bank j.first j.rows }

/-- RND of a drain with 0b101 resolved to CTX_FP_CTL.RMODE at issue (R366). -/
def State.drainMode (s : State) (e : Env) (code : Nat) : Nat :=
  if code = 5 then bitsOf (s.ctxOf e).fpCtl.toNat 2 1 else code

/-- accdr arrives: its draws are taken, its registers are empty. -/
def State.acceptDrain (s : State) (e : Env) (blk : Block) (j : DrainJob) : State :=
  let tiles := spanTiles j.spans
  let lane := lowestLane e.act
  let s1 := if j.mode = 4 then s.convAdd e.key lane (j.rows * j.ncol) else s
  if j.toRegs then
    let keys := (List.range j.group).flatMap (fun g => (laneList j.live).map (fun l => (j.vd + g) * 32 + l))
    let (fill, s2) := s1.startFill e.key (keys, [])
    s2.issueOp e (some 1) (.drain { j with fill := some fill })
  else (s1.touchTiles e.key blk tiles).issueOp e (some 1) (.drain { j with pages := s.tilePages e.key blk tiles })

/-- The drain that an accdr asks for: its descriptor, its operands as they stand, and the generator of its draws. -/
def State.accdrJob (s : State) (e : Env) (f : FWord) : DrainJob :=
  let j0 := drainDesc (f.ext.getD 0).toNat (bitOf f.q 0)
  let lane := lowestLane e.act
  { j0 with
    vd := f.fd.toNat, live := s.drainLanes e.key j0.rows, bank := s.bankOf e f.fa
    sa := if j0.toRegs then 0 else s.uvalue e 10 f.fb
    mode := s.drainMode e j0.mode, key := s.srKeyOf e.key lane, counter := s.convOf e.key lane }

/-- accdr (R364 to R367). -/
def execAccdr (f : FWord) (s : State) : Host.Outcome State Fault Refusal :=
  runWordWith (accdrSpec f) (accdrEmpty f) f s (fun e t => onBlock e t (fun b blk =>
    let j := t.accdrJob e f
    t.atBoundary e (fun u => u.accdrCheck e b blk j) (fun u => u.acceptDrain e blk j)))

/-! ### Matrix registers (R371) -/

/-- MTX_BANKS for a core and a block. -/
def State.banksWord (s : State) (core : Nat) (b : Option Nat) : Nat :=
  (List.range 32).foldl (fun n k => match Cells.find s.banks (bankKey core k) with
    | none => n
    | some (.granted x) => n + 2 ^ (32 + k) + (if b = some x then 2 ^ k else 0)
    | some _ => n + 2 ^ (32 + k)) 0

/-- A read of MTX_ERR returns the count and clears it. -/
def State.readMtxErr (s : State) (core : Nat) : Nat × State :=
  (Cells.get 0 s.mtxErr core, { s with mtxErr := Cells.set 0 s.mtxErr core 0 })

/-- MTX_ERR_READ (R371): the count goes out and is cleared. -/
def execMtxErrRead (core : Nat) (s : State) : Host.Outcome State Fault Refusal :=
  let (n, t) := s.readMtxErr core
  .next (t.send (.registerValue (BitVec.ofNat 64 n)))

end Sys2Proof.Machine
end

