-- ==== Sys2Proof/Machine/Attention.lean ====
section
/-! DEFINITION. Attention operations of the matrix unit: amask, smx, cred and the cluster reduction unit (18_attention.md),
and the turn of an operation at its unit (16_matrix.md R342). -/

namespace Sys2Proof.Machine

open Sys2Proof

/-! ### Arithmetic (R392) -/

/-- −∞ in .f32. -/
def negInf32 : Nat := 0xFF800000

/-- e2 of R392: 2^(a − b) for .f32 codes. -/
def e2 (a b : Nat) : Nat :=
  if fmtF32.isNanCode a || fmtF32.isNanCode b then 0x7FC00000
  else if FVal.cmp (fmtF32.decode a) (fmtF32.decode b) == .eq then 0x3F800000
  else if a = negInf32 then 0
  else fexp2_32 (fSub fmtF32 false .rne a b)

/-- fmax.nan of .f32 codes (R103). -/
def maxNan (a b : Nat) : Nat := fMinMax fmtF32 false true true a b

/-- A sum of exact values rounded once to .f32, NaN under R36. -/
def sum32 (xs : List FVal) : Nat := arith fmtF32 (sumExact .rne xs) .rne

/-- The exact product of two .f32 codes. -/
def prod32 (a b : Nat) : FVal := FVal.mul (fmtF32.decode a) (fmtF32.decode b)

/-! ### amask (R400) -/

/-- An element of an amask is masked. -/
def MaskJob.hides (j : MaskJob) (r q : Nat) : Bool :=
  let kp : Int := ((j.k0 + r : Nat) : Int)
  let qp : Int := ((j.q0 + (if j.step then q else 0) : Nat) : Int)
  match j.kind with
  | 0 => decide (qp < kp)
  | 1 => decide (((if j.arg = 0 then 2 ^ 32 else j.arg : Nat) : Int) ≤ qp - kp)
  | _ => !bitOf j.arg r

/-- amask at its turn. -/
def State.runMask (s : State) (id : Nat) (o : EngineOp) (j : MaskJob) : State :=
  ((List.range 32).foldl (fun t r => (List.range j.n).foldl (fun (u : State) q =>
    if j.hides r q then u.accWrite (accKey o.core j.bank r q) negInf32 else u) t) s).endUnit id o

/-- The encoding rules of amask, and the operation that one asks for (R400). -/
def amaskSpec (f : FWord) : OpSpec :=
  { fd := bankOperand f.fd, fa := .source (Gen.sLit 11 0)
    fb := if f.q % 4 = 0 then .unused else .source (Gen.sIntLit 10 1), fc := .quals, qBits := 0x1FF
    latency := false, reserved := f.q % 4 == 3, illegal := bankIllegal f.fd 1 }
def State.amaskJob (s : State) (e : Env) (f : FWord) : MaskJob :=
  let pos := s.uvalue e 11 f.fa
  { bank := s.bankOf e f.fd, k0 := pos % 2 ^ 32, q0 := pos / 2 ^ 32, kind := f.q % 4, step := bitOf f.q 2
    arg := if f.q % 4 = 0 then 0 else s.uvalue e 10 f.fb, n := bitsOf f.q 8 3 + 1 }

/-- amask (R400). -/
def execAmask (f : FWord) (s : State) : Host.Outcome State Fault Refusal :=
  runWord (amaskSpec f) f s (fun e t => onBlock e t (fun b blk =>
    let j := t.amaskJob e f
    t.atBoundary e (fun u => (u.unitFull [blk.core]).both fun _ => u.banksCheck blk.core b j.bank 1)
      (fun u => u.issueOp e none (.mask j))))

/-! ### smx (R401, R402) -/

/-- A `.f32` code is a NaN. -/
def nan32 (x : Nat) : Bool := decide (0x7F800000 < x % 2 ^ 31)

/-- One query of an smx: its accumulator effects and the bytes of its probabilities. -/
def State.softmaxQuery (s : State) (core : Nat) (j : SoftmaxJob) (q : Nat) : State × List Byte :=
  let (xs, s1) := s.accReads ((List.range (32 * j.nb)).map (fun k => accKey core (j.sb + k / 32) (k % 32) q))
  let mKey := accKey core j.tb q (2 * j.tp)
  let (stats, s2) := if j.init then ([negInf32, 0], s1) else s1.accReads [mKey, mKey + 1]
  let m := stats.getD 0 0
  let mn := xs.foldl maxNan m
  let f := e2 m mn
  let ps := xs.map (fun x => if x = negInf32 then 0 else arith fmtBf16 (fmtF32.decode (e2 x mn)) .rne)
  let l := sum32 (prod32 (stats.getD 1 0) f :: ps.map fmtBf16.decode)
  let bad := nan32 mn || nan32 l
  let s3 := (List.range j.dc).foldl (fun (t : State) c =>
    let key := accKey core j.ob q c
    if j.init then t.accWrite key (if bad then 0x7FC00000 else 0)
    else
      let (x, u) := t.accRead key
      u.accWrite key (if bad then 0x7FC00000 else fMul fmtF32 false .rne x f)) s2
  ((s3.accWrite mKey (if bad then 0x7FC00000 else mn)).accWrite (mKey + 1) (if bad then 0x7FC00000 else l),
    ps.flatMap (fun p => toBytes 2 (if bad then 0x7FC0 else p)))

/-- The queries of an smx in turn, with the stash writes they make. -/
def State.softmaxAll (s : State) (core : Nat) (j : SoftmaxJob) : State × List (Nat × List Byte) :=
  (List.range j.n).foldl (fun (acc : State × List (Nat × List Byte)) q =>
    let (t, bs) := acc.1.softmaxQuery core j q
    (t, acc.2 ++ [(j.pa + q * j.stride, bs)])) (s, [])

/-- smx at its turn (R402, R403). -/
def State.runSoftmax (s : State) (id : Nat) (o : EngineOp) (j : SoftmaxJob) : State :=
  match s.unownedPage j.pages with
  | some f => (s.requestOwnership f).stickOp id
  | none =>
    let (s1, ws) := s.softmaxAll o.core j
    match s1.engineStash (o.block.getD 0) o.core j.pages (stashPieces ws) with
    | .error pa => s.starveOp id pa
    | .ok t => t.endUnit id o

/-- The spans of an smx's probability rows. -/
def SoftmaxJob.spans (j : SoftmaxJob) : List (Nat × Nat) := (List.range j.n).map (fun q => (j.pa + q * j.stride, 64 * j.nb))

/-- The fields of an smx's descriptor (R401). -/
def smxDesc (d : Nat) : SoftmaxJob :=
  { sb := 0, pa := 0, ob := bitsOf d 63 59, tb := bitsOf d 58 54, tp := bitsOf d 53 49, nb := bitsOf d 48 46 + 1
    n := bitsOf d 45 41 + 1, dc := bitsOf d 40 35 + 1, stride := bitsOf d 34 22, init := false }

/-- The lowest bank among some that is not granted to a block (R349). -/
def State.lowestUngranted (s : State) (core b : Nat) (banks : List Nat) : Check :=
  match (List.range 32).find? (fun k => banks.contains k &&
      decide (Cells.find s.banks (bankKey core k) ≠ some (.granted b))) with
  | some k => .trap { code := 0x0A, detail := k }
  | none => .ok

/-- The encoding rules of smx, and the operation that one asks for (R401). -/
def smxSpec (f : FWord) : OpSpec :=
  let d := (f.ext.getD 0).toNat
  let j := smxDesc d
  { fd := bankOperand f.fd, fa := sOrInt, fc := .quals, qBits := 1, desc := true, latency := false
    reserved := f.ext.isSome && decide (bitsOf d 21 0 ≠ 0)
    illegal := decide (j.stride % 16 ≠ 0) || decide (j.stride < 64 * j.nb) || bankIllegal f.fd j.nb }
def State.smxJob (s : State) (e : Env) (f : FWord) : SoftmaxJob :=
  { smxDesc (f.ext.getD 0).toNat with sb := s.bankOf e f.fd, pa := s.uvalue e 10 f.fa, init := bitOf f.q 0 }

/-- The checks of smx (R401, R368). -/
def State.smxCheck (s : State) (e : Env) (b : Nat) (blk : Block) (j : SoftmaxJob) : Check :=
  (Check.trapIf (decide (j.pa % 16 ≠ 0)) (misalign j.pa true true)).both fun _ =>
  (blk.spansCheck j.pa j.spans true).both fun _ =>
  (s.tilesCheck e.key blk (spanTiles j.spans) true).both fun _ =>
  (s.unitFull [blk.core]).both fun _ =>
  (Check.trapIf (decide (32 < j.sb + j.nb)) { code := 0x0A, detail := j.sb }).both fun _ =>
  s.lowestUngranted blk.core b ([j.ob, j.tb] ++ (List.range j.nb).map (j.sb + ·))

/-- smx (R401 to R403). The wave issues nothing until it retires (R399). -/
def execSmx (f : FWord) (s : State) : Host.Outcome State Fault Refusal :=
  runWord (smxSpec f) f s (fun e t => onBlock e t (fun b blk =>
    let j := t.smxJob e f
    let tiles := spanTiles j.spans
    t.atBoundary e (fun u => u.smxCheck e b blk j)
      (fun u =>
        let op := u.nextId
        ((u.touchTiles e.key blk tiles).issueOp e none (.softmax { j with pages := u.tilePages e.key blk tiles })).modWave
          e.key (fun w => { w with hold := some (.operation op) }))))

/-! ### cred and the reduction unit (R404 to R409) -/

/-- Fields of a cred's descriptor (R405). -/
def credMask (d : Nat) : Nat := bitsOf d 63 56
def credRoot (d : Nat) : Nat := bitsOf d 55 53
def credTb (d : Nat) : Nat := bitsOf d 52 48
def credTp (d : Nat) : Nat := bitsOf d 47 43
def credRows (d : Nat) : Nat := 8 * (bitsOf d 42 41 + 1)
def credDc (d : Nat) : Nat := bitsOf d 40 35 + 1
def credBytes (d : Nat) : Nat := if bitOf d 34 then 2 else 4
def credStride (d : Nat) : Nat := bitsOf d 33 21
def credLofs (d : Nat) : Nat := bitsOf d 20 2

/-- The spans that a round writes in the root's stash. -/
def credSpans (ro d : Nat) : List (Nat × Nat) :=
  (List.range (credRows d)).map (fun r => (ro + r * credStride d, credDc d * credBytes d)) ++ [(credLofs d, 4 * credRows d)]

/-- The key under which a cluster's unit keeps an open round of a group and TAG. -/
def State.openRound (s : State) (cluster : Nat) (group : Nat × Nat) (tag : Nat) : Option (Nat × Round) :=
  s.rounds.find? (fun (k, r) => k / 16 == cluster && r.group == group && r.tag == tag)

/-- Gives every participant of a round its sd. -/
def State.answerRound (s : State) (r : Round) (x : Nat) : State := r.parts.foldl (fun t p => t.endFillS p.2.1 x) s

/-- The contribution of a cred (R404): rows of m, l and the outputs. -/
def State.contribution (s : State) (core : Nat) (j : ReduceJob) : List (List Word) × State :=
  let d := j.desc.toNat
  (List.range (credRows d)).foldl (fun (acc : List (List Word) × State) r =>
    let (xs, t) := acc.2.accReads ([accKey core (credTb d) r (2 * credTp d), accKey core (credTb d) r (2 * credTp d + 1)] ++
      (List.range (credDc d)).map (fun c => accKey core j.ob r c))
    (acc.1 ++ [xs.map (BitVec.ofNat 32)], t)) ([], s)

/-- cred at its turn: it joins or opens its round, or waits (R404). -/
def State.runReduce (s : State) (id : Nat) (o : EngineOp) (j : ReduceJob) : State :=
  let cluster := clusterOf o.core
  let b := o.block.getD 0
  let group := s.groupOfBlock b
  let pos := o.core % 8
  match s.openRound cluster group j.tag with
  | some (key, r) =>
    if r.parts.any (fun p => p.1 == pos) then s.stickOp id
    else
      let (rows, s1) := s.contribution o.core j
      let r1 : Round := { r with parts := r.parts ++ [(pos, j.fill, b, rows)]
                                 pages := if credRoot j.desc.toNat = pos then j.pages else r.pages }
      if r.ro ≠ j.ro ∨ r.desc ≠ j.desc then
        let t : State := { s1 with rounds := Cells.del s1.rounds key }
        ((t.answerRound r1 (4 * 2 ^ 56)).endUnit id o)
      else
        let t : State := { s1 with rounds := Cells.put s1.rounds key r1 }
        (t.endUnit id o).post (.credRoundComplete cluster key)
  | none =>
    match Cells.lowestFree s.rounds (cluster * 16) 8 with
    | none => s.stickOp id
    | some key =>
      let (rows, s1) := s.contribution o.core j
      let r : Round := { group := group, ro := j.ro, tag := j.tag, desc := j.desc, parts := [(pos, j.fill, b, rows)]
                         pages := if credRoot j.desc.toNat = pos then j.pages else [] }
      let t : State := { s1 with rounds := Cells.put s1.rounds key r }
      (t.endUnit id o).post (.credRoundComplete cluster key)

/-- The merge of one row over the positions of MASK, in core order (R406): m, l and the outputs. -/
def Round.mergeRow (r : Round) (row : Nat) : Nat × Nat × List Nat :=
  let d := r.desc.toNat
  (List.range 8).foldl (fun (acc : Nat × Nat × List Nat) k =>
    if !bitOf (credMask d) k then acc
    else match r.parts.find? (fun p => p.1 == k) with
      | none => acc
      | some (_, _, _, rows) =>
        let (m, l, os) := acc
        let ws := (rows.getD row []).map (·.toNat)
        let mk := ws.getD 0 0
        let mn := maxNan m mk
        let a := e2 m mn
        let b := e2 mk mn
        (mn, sum32 [prod32 l a, prod32 (ws.getD 1 0) b],
         List.zipWith (fun x y => sum32 [prod32 x a, prod32 y b]) os (ws.drop 2))) (negInf32, 0, List.replicate (credDc d) 0)

/-- A finished row (R407): its outputs, its log-sum-exp, and whether every key of it was masked. -/
def finishRow (bf16 : Bool) (x : Nat × Nat × List Nat) : List Nat × Nat × Bool :=
  let (m, l, os) := x
  if (fmtF32.decode l).isZero then (os.map (fun _ => 0), negInf32, true)
  else
    let r := (fmtF32.decode l).recip
    (os.map (fun y => convert (if bf16 then fmtBf16 else fmtF32) (FVal.mul (fmtF32.decode y) r) .rne false),
     fAdd fmtF32 false .rne m (flog2_32 l), false)

/-- The block at a position of a round's group. -/
def State.roundBlock (s : State) (r : Round) (cluster pos : Nat) : Option (Nat × Block) :=
  s.blocks.find? (fun (i, x) => x.core == cluster * 8 + pos && s.groupOfBlock i == r.group)

/-- A position of MASK can no longer contribute (R409). -/
def State.roundDead (s : State) (r : Round) (cluster : Nat) : Bool :=
  (List.range 8).any (fun k => bitOf (credMask r.desc.toNat) k && r.parts.all (fun p => p.1 != k) &&
    (match s.roundBlock r cluster k with
     | none => true
     | some (_, x) => x.retired))

/-- The stash writes of a complete round, and its row bits. -/
def Round.results (r : Round) : List (Nat × List Byte) × Nat :=
  let d := r.desc.toNat
  (List.range (credRows d)).foldl (fun (acc : List (Nat × List Byte) × Nat) row =>
    let (os, lse, masked) := finishRow (bitOf d 34) (r.mergeRow row)
    (acc.1 ++ [(r.ro + row * credStride d, os.flatMap (toBytes (credBytes d))), (credLofs d + 4 * row, toBytes 4 lse)],
     acc.2 + (if masked then 2 ^ row else 0))) ([], 0)

/-- A complete round writes the root's stash, then every participant's sd, an acquire at .cluster for each (R406 to R408). -/
def State.finishRound (s : State) (cluster key : Nat) (r : Round) : State :=
  let (ws, bits) := r.results
  match s.roundBlock r cluster (credRoot r.desc.toNat) with
  | none => s
  | some (b, blk) =>
    match s.unownedPage r.pages with
    | some f => s.requestOwnership f
    | none => match s.engineStash b blk.core r.pages (stashPieces ws) with
      | .error pa =>
        let t := s.restoreLine pa
        let u : State := { t with rounds := Cells.put t.rounds key { r with starves := some pa } }
        u.noteStarved pa
      | .ok t =>
        let u : State := r.parts.foldl (fun v p => v.l0Acquire (cluster * 8 + p.1)) { t with rounds := Cells.del t.rounds key }
        (u.answerRound r bits).wakeOps (fun o => clusterOf o.core == cluster)

/-- CRED_ROUND_COMPLETE (R404, R406, R409): a round whose positions have all contributed, or one of which no longer can,
ends; another waits on. -/
def State.settleRound (s : State) (cluster key : Nat) : State :=
  match Cells.find s.rounds key with
  | none => s
  | some r =>
    if (List.range 8).all (fun k => !bitOf (credMask r.desc.toNat) k || r.parts.any (fun p => p.1 == k)) then
      s.finishRound cluster key r
    else if s.roundDead r cluster then
      let t : State := { s with rounds := Cells.del s.rounds key }
      (t.answerRound r (5 * 2 ^ 56)).wakeOps (fun o => clusterOf o.core == cluster)
    else s

/-- The encoding rules of cred at a position of its cluster (R404, R405). -/
def credSpec (f : FWord) (here : Nat) : OpSpec :=
  let d := (f.ext.getD 0).toNat
  { fd := .dest (Gen.sOnly 11), fa := bankOperand f.fa, fb := sOrInt, fc := .quals, qBits := 0xF, desc := true
    latency := false, reserved := f.ea || (f.ext.isSome && decide (bitsOf d 1 0 ≠ 0))
    illegal := bankIllegal f.fa 1 || credMask d == 0 || !bitOf (credMask d) (credRoot d) ||
      !bitOf (credMask d) here || decide (credStride d % 16 ≠ 0) || decide (credStride d < credDc d * credBytes d) }

/-- The position of the issuing wave's core in its cluster. -/
def State.issuerPosition (s : State) : Nat :=
  match s.issuerBlock with
  | none => 0
  | some (_, blk) => blk.core % 8

/-- The tiles that a cred's results touch in the root's stash. -/
def credTiles (blk : Block) (ro d : Nat) : List (Nat × Nat) :=
  if credRoot d = blk.core % 8 then spanTiles (credSpans ro d) else []

/-- The checks of cred (R405, R368). -/
def State.credCheck (s : State) (e : Env) (b : Nat) (blk : Block) (ob ro d : Nat) : Check :=
  (Check.trapIf (!s.clusterLaunch b) { code := 1 }).both fun _ =>
  (Check.trapIf (decide (ro % 16 ≠ 0)) (misalign ro true true)).both fun _ =>
  (Check.trapIf (decide (credLofs d % 16 ≠ 0)) (misalign (credLofs d) true true)).both fun _ =>
  (if credRoot d = blk.core % 8 then blk.spansCheck ro (credSpans ro d) true else .ok).both fun _ =>
  (s.tilesCheck e.key blk (credTiles blk ro d) true).both fun _ =>
  (s.unitFull [blk.core]).both fun _ => s.lowestUngranted blk.core b [ob, credTb d]

/-- cred (R404, R405). -/
def execCred (f : FWord) (s : State) : Host.Outcome State Fault Refusal :=
  let d := (f.ext.getD 0).toNat
  runWord (credSpec f s.issuerPosition) f s (fun e t => onBlock e t (fun b blk =>
    let ob := t.bankOf e f.fa
    let ro := t.uvalue e 10 f.fb
    let tiles := credTiles blk ro d
    t.atBoundary e (fun u => u.credCheck e b blk ob ro d)
      (fun u =>
        let (fill, v) := (u.touchTiles e.key blk tiles).startFill e.key (u.destKeys e 1 f.fd e.act)
        v.issueOp e none (.reduce { fill := fill, ob := ob, ro := ro, tag := f.q % 16, desc := f.ext.getD 0
                                    pages := u.tilePages e.key blk tiles }))))

/-! ### The turn of an operation -/

/-- An operation at the matrix unit, when its event comes: it waits behind the operations it must follow (R342), or it is
performed. -/
def State.runUnit (s : State) (id : Nat) : State :=
  match Cells.find s.ops id with
  | none => s
  | some o =>
    if o.done then s
    else if s.unitBehind id o then s.stickOp id
    else match o.kind with
      | .matrix j => s.runMatrix id o j
      | .zero bank n => s.runZero id o bank n
      | .writeBank ws => s.runWriteBank id o ws
      | .readBank fill rs => s.runReadBank id o fill rs
      | .drain j => s.runDrain id o j
      | .grant fill n => s.runGrant id o fill n
      | .mask j => s.runMask id o j
      | .softmax j => s.runSoftmax id o j
      | .reduce j => s.runReduce id o j
      | _ => s

/-- MTX_OPERATION (16_matrix.md R342). -/
def execMtxOperation (_core op : Nat) (s : State) : Host.Outcome State Fault Refusal := .next (s.runUnit op)

/-- CRED_ROUND_COMPLETE (R406). -/
def execCredRoundComplete (cluster round : Nat) (s : State) : Host.Outcome State Fault Refusal :=
  .next (s.settleRound cluster round)

end Sys2Proof.Machine
end

