-- ==== Sys2Proof/Machine/Cohort.lean ====
section
/-! DEFINITION. cjoin, cleave and cqry (11_group.md R260 to R265). -/

namespace Sys2Proof.Machine

open Sys2Proof

/-- The status of an instruction of a table, in sd bits 63:56. -/
def statusWord (n : Nat) : Nat := n * 2 ^ 56

/-- The next generation of a table entry that leaves FREE (R258). -/
def nextGen (g : Nat) : Nat := if g = 255 then 1 else g + 1

/-- The entry that a reference names for a wave, unless it is stale (R261). -/
def State.cohortRef (s : State) (w : Wave) (ref : Nat) : Option Nat :=
  let e := ref % 64
  let c := Cells.get {} s.cohorts (clusterOf w.core * 64 + e)
  if bitsOf ref 7 6 = 0 ∧ c.live ∧ c.gen = bitsOf ref 15 8 ∧ c.group = s.groupOf w ∧ c.ctx = w.ctx then some e else none

/-- The LIVE entry of a wave's group with a key (R262). -/
def State.cohortOf (s : State) (w : Wave) (key : Word) : Option Nat :=
  (List.range 64).find? (fun e =>
    let c := Cells.get {} s.cohorts (clusterOf w.core * 64 + e)
    c.live && c.ctx == w.ctx && c.key == key && decide (c.group = s.groupOf w))

/-- The lowest FREE cohort entry of a cluster. -/
def State.freeCohortEntry (s : State) (cluster : Nat) : Option Nat :=
  (List.range 64).find? (fun e => !(Cells.get {} s.cohorts (cluster * 64 + e)).live)

/-- Lanes of a wave join a cohort entry: the state, and sd. -/
def State.joinEntry (s : State) (k entry created : Nat) (lanes : Word) : State × Nat :=
  let w := s.waveAt k
  let c := Cells.get {} s.cohorts (clusterOf w.core * 64 + entry)
  (s.modWave k (fun u => u.setMembers entry (u.memberMask entry ||| lanes)), created * 65536 + c.gen * 256 + entry)

/-- cjoin (R262) of the lanes of a wave: the state, and sd. -/
def State.cjoin (s : State) (k : Nat) (lanes key : Word) : State × Nat :=
  let w := s.waveAt k
  let cluster := clusterOf w.core
  match s.cohortOf w key with
  | some e =>
    if w.memberMask e = 0 ∧ 4 ≤ w.cohorts.length then (s, statusWord 2)
    else
      let (t, v) := s.joinEntry k e 0 lanes
      (t.settleCluster cluster, v)
  | none => match s.freeCohortEntry cluster with
    | none => (s, statusWord 1)
    | some e =>
      let old := Cells.get {} s.cohorts (cluster * 64 + e)
      let c : Cohort := { gen := nextGen old.gen, live := true, ctx := w.ctx, key := key, group := s.groupOf w }
      if 4 ≤ w.cohorts.length then
        ({ s with cohorts := Cells.set {} s.cohorts (cluster * 64 + e) { gen := c.gen } }, statusWord 2)
      else ({ s with cohorts := Cells.set {} s.cohorts (cluster * 64 + e) c } : State).joinEntry k e 1 lanes

/-- cleave (R263) of the lanes of a wave: the state, and sd. -/
def State.cleave (s : State) (k : Nat) (lanes : Word) (ref : Nat) : State × Nat :=
  let w := s.waveAt k
  let cluster := clusterOf w.core
  match s.cohortRef w ref with
  | none => (s, statusWord 3)
  | some e =>
    let t := s.leaveCohort k e (lanes &&& w.memberMask e)
    (t.settleCluster cluster, t.memberCount cluster e)

/-- What cqry reads (R264). -/
def State.cqry (s : State) (k what ref : Nat) : Nat :=
  let w := s.waveAt k
  match s.cohortRef w ref with
  | none => statusWord 3
  | some e => match what with
    | 0 => s.memberCount (clusterOf w.core) e
    | 1 => (w.memberMask e).toNat
    | _ => (Cells.get {} s.cohorts (clusterOf w.core * 64 + e)).key.toNat

/-- The encoding of cleave and cqry: an s register or a 32-bit literal names the reference (R260). -/
def refSpec : OpSpec := { fd := .dest (Gen.sOnly 11), fa := .source (Gen.sLit 10 1), fc := .quals, latency := false }

/-- A boundary instruction that writes sd at long latency. -/
def runTable (p : OpSpec) (f : FWord) (s : State) (act : Env → State → State × Nat) : Host.Outcome State Fault Refusal :=
  runWord p f s (fun e t => t.atBoundary e (fun _ => .ok) (fun u =>
    let (v, x) := act e u
    v.longS e x))

/-! ### Meanings -/

/-- cjoin (R262). -/
def execCjoin (f : FWord) (s : State) : Host.Outcome State Fault Refusal :=
  runTable { refSpec with fa := .source (Gen.sIntLit 10 1) } f s (fun e t =>
    t.cjoin e.key e.act (BitVec.ofNat 32 (t.uvalue e 10 f.fa)))

/-- cleave (R263). -/
def execCleave (f : FWord) (s : State) : Host.Outcome State Fault Refusal :=
  runTable refSpec f s (fun e t => t.cleave e.key e.act (t.uvalue e 10 f.fa))

/-- cqry (R264). -/
def execCqry (f : FWord) (s : State) : Host.Outcome State Fault Refusal :=
  let what := bitsOf f.q 1 0
  runTable { refSpec with qBits := 3, reserved := what == 3 } f s (fun e t =>
    (t, t.cqry e.key what (t.uvalue e 10 f.fa)))

end Sys2Proof.Machine
end

