-- ==== Sys2Proof/Machine/Barrier.lean ====
section
/-! DEFINITION. Barriers on a cohort (12_barrier.md R266 to R275), superstep groups (R276 to R280) and the deadlock watchdog
(R281, R282). -/

namespace Sys2Proof.Machine

open Sys2Proof

/-! ### Barriers -/

/-- The entry that a barrier reference names for a wave, unless it is stale (R269). -/
def State.barrierRefOf (s : State) (w : Wave) (ref : Nat) : Option Nat :=
  let e := ref % 32
  let cluster := clusterOf w.core
  let b := Cells.get {} s.barriers (cluster * 32 + e)
  let c := Cells.get {} s.cohorts (cluster * 64 + b.cohort)
  if !w.latency && bitsOf ref 7 5 == 0 && b.live && b.gen == bitsOf ref 15 8 && b.ctx == w.ctx &&
    decide (c.group = s.groupOf w) then some e else none

/-- The barrier entry of a wave's cluster. -/
def State.barrierAt (s : State) (w : Wave) (e : Nat) : BarrierEntry := Cells.get {} s.barriers (clusterOf w.core * 32 + e)

/-- bmake.new (R270): the state, and sd. -/
def State.makeBarrier (s : State) (k cref arg : Nat) : State × Nat :=
  let w := s.waveAt k
  let cluster := clusterOf w.core
  let key := arg % 256
  let min := bitsOf arg 31 16
  match (if w.latency then none else s.cohortRef w cref) with
  | none => (s, statusWord 3)
  | some co =>
    if 32768 < min then (s, statusWord 4)
    else
      let at' (e : Nat) : BarrierEntry := Cells.get {} s.barriers (cluster * 32 + e)
      match (List.range 32).find? (fun e => (at' e).live && (at' e).cohort == co && (at' e).key == key) with
      | some e => (s, (at' e).gen * 256 + e)
      | none => match (List.range 32).find? (fun e => !(at' e).live) with
        | none => (s, statusWord 1)
        | some e =>
          let b : BarrierEntry :=
            { gen := nextGen (at' e).gen, live := true, ctx := w.ctx, cohort := co, key := key, min := min }
          ({ s with barriers := Cells.set {} s.barriers (cluster * 32 + e) b }, 65536 + b.gen * 256 + e)

/-- bmake.drop (R270): the state, and sd. -/
def State.dropBarrier (s : State) (k ref : Nat) : State × Nat :=
  let w := s.waveAt k
  match s.barrierRefOf w ref with
  | none => (s, statusWord 3)
  | some e => (s.freeBarrier (clusterOf w.core) e, 0)

/-- An arrival (R271): the state before the open phase is tested, the status, the phase and the entry. -/
def State.arriveAt (s : State) (k ref : Nat) (lanes : Word) : State × Nat × Nat × Nat :=
  let w := s.waveAt k
  match s.barrierRefOf w ref with
  | none => (s, 3, 0, 0)
  | some e =>
    let b := s.barrierAt w e
    let members := lanes &&& w.memberMask b.cohort
    if members = 0 then (s, 4, 0, e)
    else
      let old := Cells.get 0 b.arrived k
      let b1 : BarrierEntry := { b with arrived := Cells.set 0 b.arrived k (old ||| members) }
      ({ s with barriers := Cells.set {} s.barriers (clusterOf w.core * 32 + e) b1 },
       if members &&& old = 0 then 0 else 2, b.phase, e)

/-- The value that barr writes (R271). -/
def arrivalWord (status phase ref : Nat) : Nat :=
  if status = 0 ∨ status = 2 then statusWord status + phase * 65536 + ref % 65536 else statusWord status

/-- The result of bwait at once, or none where it waits (R272); of a barw the token holds the arrival's status. -/
def State.phaseNow (s : State) (k tok : Nat) : Option Nat :=
  let w := s.waveAt k
  match s.barrierRefOf w (tok % 65536) with
  | none => some (statusWord 3)
  | some e =>
    let d := ((s.barrierAt w e).phase + 65536 - bitsOf tok 31 16) % 65536
    if d = 0 then none else if d < 32768 then some (tok / 2 ^ 56 * 2 ^ 56 + tok % 2 ^ 32) else some (statusWord 4)

/-- bwait on a token (R272, R274). -/
def State.waitPhase (s : State) (e : Env) (tok : Nat) (barw : Bool) : State :=
  match s.phaseNow e.key tok with
  | some v =>
    let s1 := if v / 2 ^ 56 = 0 ∨ v / 2 ^ 56 = 2 then s.acquire (s.waveAt e.key).core 1 else s
    s1.longS e v
  | none => s.waitOn e (.barrier (tok % 32) (bitsOf tok 15 8) (bitsOf tok 31 16) barw (tok / 2 ^ 56))

/-- The token or step that a trap entry left standing for an instruction (08_context.md R215). -/
def Wave.keptAt (w : Wave) (pc : DWord) (barw : Bool) : Option Kept :=
  w.kept.find? (fun x => x.pc == pc && x.token.isSome == barw)

/-- Takes away what a trap entry left standing for an instruction. -/
def State.dropKept (s : State) (e : Env) : State :=
  s.modWave e.key (fun w => { w with kept := w.kept.filter (fun x => x.pc != e.pc) })

/-- The cluster looks at its open phases (R267). -/
def State.testPhases (s : State) (k : Nat) : State := s.settleCluster (clusterOf (s.waveAt k).core)

/-- barw (R272): the arrival, unless a trap entry left it standing, then the wait. -/
def State.barrierWait (s : State) (e : Env) (ref : Nat) : State :=
  match (s.waveAt e.key).keptAt e.pc true with
  | some x => (s.dropKept e).waitPhase e (x.token.getD 0) true
  | none => match s.arriveAt e.key ref e.act with
    | (t, st, phase, _) =>
      if st = 3 ∨ st = 4 then t.longS e (statusWord st)
      else (t.waitPhase e (statusWord st + phase * 65536 + ref % 65536) true).testPhases e.key

/-- The encoding of the barrier instructions (R269). -/
def barrierSpec : OpSpec := { fd := .dest (Gen.sOnly 11), fa := .source (Gen.sLit 10 1), fc := .quals }

/-- bmake.new (R270). -/
def execBmakeNew (f : FWord) (s : State) : Host.Outcome State Fault Refusal :=
  runTable { barrierSpec with fb := .source (Gen.sIntLit 10 1), qBits := 1 } f s (fun e t =>
    t.makeBarrier e.key (t.uvalue e 10 f.fa) (t.uvalue e 10 f.fb))

/-- bmake.drop (R270). -/
def execBmakeDrop (f : FWord) (s : State) : Host.Outcome State Fault Refusal :=
  runTable { barrierSpec with qBits := 1 } f s (fun e t => t.dropBarrier e.key (t.uvalue e 10 f.fa))

/-- barr (R271). -/
def execBarr (f : FWord) (s : State) : Host.Outcome State Fault Refusal :=
  runTable barrierSpec f s (fun e t =>
    let ref := t.uvalue e 10 f.fa
    match t.arriveAt e.key ref e.act with
    | (u, st, phase, _) => (u.testPhases e.key, arrivalWord st phase ref))

/-- bwait (R272). -/
def execBwait (f : FWord) (s : State) : Host.Outcome State Fault Refusal :=
  runWord barrierSpec f s (fun e t =>
    t.atBoundary e (fun _ => .ok) (fun u => u.waitPhase e (t.uvalue e 10 f.fa % 2 ^ 32) false))

/-- barw (R272). -/
def execBarw (f : FWord) (s : State) : Host.Outcome State Fault Refusal :=
  runWord barrierSpec f s (fun e t =>
    t.atBoundary e (fun _ => .ok) (fun u => u.barrierWait e (t.uvalue e 10 f.fa)))

/-! ### Superstep groups -/

/-- A superstep group of a context. -/
def Context.groupAt (x : Context) (g : Nat) : StepGroup := Cells.get {} x.groups g

/-- Changes a superstep group. -/
def State.modGroup (s : State) (c g : Nat) (f : StepGroup → StepGroup) : State :=
  s.modCtx c (fun x => { x with groups := Cells.set {} x.groups g (f (x.groupAt g)) })

/-- Arrivals a step needs on this package. -/
def StepGroup.local' (y : StepGroup) : Nat := bitsOf y.cfg.toNat 17 0

/-- TAG of a group. -/
def StepGroup.tag (y : StepGroup) : Nat := bitsOf y.cfg.toNat 63 32

/-- TMO of a group, in ms. -/
def StepGroup.tmo (y : StepGroup) : Nat := bitsOf y.cfg.toNat 31 20

/-- Ends the collective rounds of a group of a context with a status (20_link.md R440). -/
def State.endColls (s : State) (c g status : Nat) : State :=
  s.ops.foldl (fun t (id, o) => match o.kind with
    | .coll j =>
      if j.ctx = c ∧ j.group = g ∧ !o.done then
        let u := match Cells.find t.fills j.fill with
          | none => t
          | some x => t.endFill j.fill [] (x.sKeys.map (fun k => (k, BitVec.ofNat 64 (statusWord status))))
        u.endOp id
      else t
    | _ => t) s

/-- Releases the lanes that wait in a group with a value (R277). -/
def State.releaseGroup (s : State) (c g value : Nat) : State :=
  s.releaseWaits c (fun x => match x.obj with
    | .superstep h _ _ => if h = g then some (BitVec.ofNat 64 value) else none
    | _ => none)

/-- A group enters BROKEN with a cause (R277). -/
def State.breakGroup (s : State) (c g cause : Nat) : State :=
  if ((s.ctxAt c).groupAt g).st ≠ .armed then s
  else ((s.modGroup c g (fun y => { y with st := .broken, cause := cause })).releaseGroup c g
    (statusWord (1 + cause))).endColls c g (1 + cause)

/-- RESET (R277): the group and the messages of its rounds. CAUSE becomes 0, also on a group that an invalid ARM left OFF, though R277
names ARM alone as setting it to 0 (log 82). -/
def State.resetGroup (s : State) (c g : Nat) : State :=
  ((s.modGroup c g (fun y => { y with st := .off, cause := 0, members := [], dones := [], msgs := [] })).releaseGroup c g
    (statusWord 1)).endColls c g 1

/-- The lanes of a context that wait for a step of a group end their wait with it, an acquire at .sys (R280). -/
def State.releaseStep (s : State) (c g n : Nat) : State :=
  let here (x : LaneWait) : Bool := decide (x.obj = .superstep g n true)
  let cores := (s.waves.filter (fun e => e.2.ctx == c && e.2.waits.any here)).map (fun e => e.2.core)
  (cores.foldl State.l0Acquire s).releaseWaits c (fun x => if here x then some (BitVec.ofNat 64 n) else none)

/-- The ARMED superstep groups that hold a TAG. -/
def State.taggedGroups (s : State) (tag : Nat) : List (Nat × Nat) :=
  s.ctxs.flatMap (fun (c, x) => x.groups.filterMap (fun (g, y) => if y.st = .armed ∧ y.tag = tag then some (c, g) else none))

/-- DONE(TAG, k) of a node enters every ARMED group of its TAG (R279). -/
def State.enterDone (s : State) (node tag k : Nat) : State :=
  (s.taggedGroups tag).foldl (fun t (c, g) => t.modGroup c g (fun y => { y with dones := y.dones ++ [(node, k)] })) s

/-- The step rule of R279, for at most `n` steps: DONE goes out once LOCAL arrivals are counted, and a step completes once
DONE is in from every member. -/
def State.settleGroup (s : State) (c g : Nat) : Nat → State
  | 0 => s
  | n + 1 =>
    let y := (s.ctxAt c).groupAt g
    if y.st ≠ .armed then s
    else
      let k := y.stepNo
      let s1 := if y.local' ≤ y.arrived ∧ y.sentDone = k then
          ((y.members.foldl (fun (t : State) m => if m = s.node then t else t.sendTo m (.stepDone m y.tag k)) s).modGroup c g
            (fun z => { z with sentDone := (k + 1) % 2 ^ 32 })).enterDone s.node y.tag k
        else s
      let z := (s1.ctxAt c).groupAt g
      if z.local' ≤ z.arrived ∧ z.members.all (fun m => z.dones.contains (m, k)) then
        let s2 := (s1.modGroup c g (fun u => { u with
          stepNo := (k + 1) % 2 ^ 32, arrived := u.arrived - u.local', dones := u.dones.filter (fun d => d.2 != k) })).releaseStep c g k
        State.settleGroup s2 c g n
      else s1

/-- The steps a group may complete at once. -/
def StepGroup.fuel (y : StepGroup) : Nat := y.arrived + y.dones.length + 2

/-- ARM (R277). -/
def State.armGroup (s : State) (c g : Nat) : State :=
  let y := (s.ctxAt c).groupAt g
  let base := bitsOf y.nodes.toNat 51 9 * 512
  if y.st ≠ .off then s
  else
    let bits := ofBytes (s.peek base 512)
    let bad := !s.backed base || s.guarded c ⟨base, none, 0⟩ || !bitOf bits s.node || decide (y.local' = 0) ||
      decide (196608 < y.local')
    if bad then s.modGroup c g (fun z => { z with cause := 3 })
    else
      let kept := s.keptDones.filter (fun (_, t, _) => t == y.tag)
      let s1 : State := { (s.engineRead base 512).2 with
        keptDones := s.keptDones.filter (fun (_, t, _) => t != y.tag)
        collMsgs := s.collMsgs.filter (fun m => m.tag != y.tag) }
      s1.modGroup c g (fun z => { z with
        st := .armed, cause := 0, stepNo := 0, arrived := 0, sentDone := 0, rounds := 0
        members := (List.range 4096).filter (fun n => bitOf bits n)
        dones := kept.map (fun (n, _, k) => (n, k))
        msgs := s.collMsgs.filter (fun m => m.tag == y.tag) })

/-- A command written to SS_CTL (R276). -/
def State.groupCommand (s : State) (c g cmd : Nat) : State :=
  match cmd with
  | 1 => s.armGroup c g
  | 2 => s.resetGroup c g
  | _ => s

/-- A write of SS_NODES, SS_CFG or SS_CTL (R276). -/
def State.groupWrite (s : State) (c g k : Nat) (v : DWord) : State :=
  match k with
  | 0 => s.modGroup c g (fun y => if y.st = .off then { y with nodes := v &&& 0x000FFFFFFFFFFE00 } else y)
  | 1 => s.modGroup c g (fun y => if y.st = .off then { y with cfg := v &&& 0xFFFFFFFFFFF3FFFF } else y)
  | 2 => s.groupCommand c g (v.toNat % 256)
  | _ => s

/-- The code of a superstep group's state (R276). -/
def StepState.code : StepState → Nat
  | .off => 0
  | .armed => 1
  | .broken => 2

/-- A read of SS_NODES, SS_CFG or SS_STAT (R276). -/
def StepGroup.read (y : StepGroup) (k : Nat) : DWord :=
  match k with
  | 0 => y.nodes
  | 1 => y.cfg
  | 3 => BitVec.ofNat 64 (y.stepNo * 2 ^ 32 + y.arrived % 2 ^ 18 * 2 ^ 14 + y.cause * 256 + y.st.code)
  | _ => 0

/-- Every write and put of a wave has been acknowledged, or lost (R278). -/
def State.acknowledged (s : State) (k : Nat) : Bool :=
  !s.nodes.any (fun (_, l) => l.unacked.any (fun p => p.wave == k && !p.withdrawn)) &&
  !s.ops.any (fun (_, o) => o.wave == k && !o.done && (match o.kind with
    | .put _ => true
    | _ => false))

/-- The lanes of a wave that wait in sstep before their arrival arrive once the wave's writes are acknowledged (R278). -/
def State.stepArrive (s : State) (k : Nat) (x : LaneWait) : State :=
  match x.obj with
  | .superstep g _ false =>
    let w := s.waveAt k
    if !s.acknowledged k then s
    else if w.lostSteps ≠ 0 then (s.modWave k (fun u => { u with lostSteps := 0 })).breakGroup w.ctx g 1
    else
      let y := (s.ctxAt w.ctx).groupAt g
      let n := (y.stepNo + y.arrived / y.local') % 2 ^ 32
      let s1 := (s.modWave k (fun u => { u with waits := u.waits.map (fun z =>
        if z = x then { z with obj := .superstep g n true } else z) })).modGroup w.ctx g
        (fun z => { z with arrived := z.arrived + 1 })
      s1.settleGroup w.ctx g (y.fuel + 1)
  | _ => s

/-- The lanes of a wave that wait in sstep are looked at again. -/
def State.settleSteps (s : State) (k : Nat) : State := (s.waveAt k).waits.foldl (fun t x => t.stepArrive k x) s

/-- sstep (R278). An arrival that a trap entry left standing holds for the first issue only (08_context.md R215). -/
def State.superstep (s : State) (e : Env) (g : Nat) : State :=
  let w := s.waveAt e.key
  let y := (s.ctxAt w.ctx).groupAt g
  let t := s.dropKept e
  if 15 < g then t.longS e (statusWord 4)
  else match y.st with
    | .off => t.longS e (statusWord 1)
    | .broken => t.longS e (statusWord (1 + y.cause))
    | .armed => match w.keptAt e.pc false with
      | some x =>
        if (x.stepNo + 2 ^ 32 - y.stepNo) % 2 ^ 32 < 2 ^ 31 then t.waitOn e (.superstep g x.stepNo true)
        else (t.acquire w.core 4).longS e x.stepNo
      | none => (t.waitOn e (.superstep g 0 false)).settleSteps e.key

/-- sstep (R278). -/
def execSstep (f : FWord) (s : State) : Host.Outcome State Fault Refusal :=
  runWord { barrierSpec with fa := .source (Gen.sIntLit 10 1) } f s (fun e t =>
    t.atBoundary e (fun _ => .ok) (fun u => u.superstep e (t.uvalue e 10 f.fa)))

/-- SS_ARM (R277). -/
def execSsArm (ctx group : Nat) (s : State) : Host.Outcome State Fault Refusal := .next (s.armGroup ctx group)
/-- SS_RESET (R277). -/
def execSsReset (ctx group : Nat) (s : State) : Host.Outcome State Fault Refusal := .next (s.resetGroup ctx group)

/-- A DONE message (R279): it reaches the ARMED groups of its TAG, or is kept, the last 64 of them. -/
def State.stepDone (s : State) (node tag k : Nat) : State :=
  let groups := s.taggedGroups tag
  if groups.isEmpty then
    let all := s.keptDones ++ [(node, tag, k)]
    { s with keptDones := all.drop (all.length - 64) }
  else groups.foldl (fun t (c, g) => t.settleGroup c g ((t.ctxAt c).groupAt g).fuel) (s.enterDone node tag k)

/-- SS_DONE (R279). -/
def execSsDone (node tag stepNo : Nat) (s : State) : Host.Outcome State Fault Refusal :=
  .next (if node = s.node || s.hears node then s.stepDone node tag stepNo else s)

/-- SS_TIMEOUT (R279): an arrival's step has not completed within TMO. -/
def execSsTimeout (ctx group : Nat) (s : State) : Host.Outcome State Fault Refusal :=
  let y := (s.ctxAt ctx).groupAt group
  .next (if y.tmo ≠ 0 ∧ 0 < y.arrived then s.breakGroup ctx group 2 else s)

/-- A node is lost to every ARMED group it is a member of (R277, R279). -/
def State.loseMember (s : State) (node : Nat) : State :=
  s.ctxs.foldl (fun t (c, x) => x.groups.foldl (fun u (g, y) =>
    if y.members.contains node then u.breakGroup c g 1 else u) t) s

/-! ### The deadlock watchdog -/

/-- How a wave waits (R281): not at all, on an internal object, on an external one. -/
inductive WaitClass where
  | none
  | internal
  | external
  deriving DecidableEq, Repr

/-- A wait of R281's external column. -/
def WaitObj.isExternal : WaitObj → Bool
  | .superstep _ _ _ => true
  | .signal _ _ _ _ _ _ ext => ext
  | _ => false

/-- How a wave waits: its lanes stand at waits, and its other lanes cannot issue for a reason that is a wait. -/
def Wave.waitClass (w : Wave) : WaitClass :=
  match w.life with
  | .suspended => .external
  | .halted => .external
  | .active =>
    if w.hold.isSome then .none
    else if w.ready ≠ 0 && !(match w.blocked with
        | some .register => true
        | some .counter => true
        | some .handle => true
        | some .shadowOrLine => true
        | _ => false) then .none
    else if w.waits.any (fun x => x.obj.isExternal) then .external else .internal
  | .pending =>
    if w.hold.isSome then .none
    else if w.ready ≠ 0 && !(match w.blocked with
        | some .register => true
        | some .counter => true
        | some .handle => true
        | some .shadowOrLine => true
        | _ => false) then .none
    else if w.waits.any (fun x => x.obj.isExternal) then .external else .internal
  | _ => .none

/-- An operation that waits for something of its own context: a handle, a tile, a tag, or an operation before it (R281). What
waits for an owner, for shadows, for acknowledgements or for other members is pending. -/
def State.waitsInside (s : State) (c : Nat) (o : EngineOp) : Bool :=
  o.stuck && o.starves.isNone && !s.place.any (fun (_, e) => e.ctx == c && e.handover) && (match o.kind with
    | .copy _ => true
    | .matrix _ => true
    | .zero _ _ => true
    | .writeBank _ => true
    | .drain _ => true
    | .grant _ _ => true
    | .mask _ => true
    | .softmax _ => true
    | _ => false)

/-- Work of a context is pending that the watchdog waits for (R282): results in flight, those of waits apart, and operations
but those that wait inside the context. -/
def State.workPending (s : State) (c : Nat) : Bool :=
  let mine (k : Nat) : Bool := (Cells.find s.waves k).isSome && (s.waveAt k).ctx == c
  s.fills.any (fun (_, x) => mine x.wave) ||
  s.fabricWaits.any (fun (_, x) => mine x.wave && !(x.vs.isEmpty && x.ss.isNone)) ||
  s.ops.any (fun (_, o) => (mine o.wave || (s.ctxAt c).grants o.core) && !o.done && !s.waitsInside c o) ||
  s.launches.any (fun (_, l) => l.ctx == c && decide (0 < l.ready)) ||
  s.dieLists.any (fun (_, xs) => xs.any (fun (id, _) => match Cells.find s.launches id with
    | none => false
    | some l => l.ctx == c)) ||
  s.blocks.any (fun (i, b) => b.ctx == c && !b.prologue && !s.waves.any (fun (_, w) => w.block == some i))

/-- The record of DEADLOCK (08_context.md R214). -/
def State.deadlockRecord (s : State) : Record :=
  [BitVec.ofNat 64 (0x30 * 2 ^ 32), 0, 0, 0, 0, 0, 0, BitVec.ofNat 64 s.cycle]

/-- WATCHDOG_EXPIRY (R282): the condition has held for WD_CFG.MS ms. -/
def State.watchdog (s : State) (c : Nat) : State :=
  let x := s.ctxAt c
  let classes := (s.waves.filter (fun (_, w) => w.ctx == c)).map (fun (_, w) => w.waitClass)
  if x.st ≠ .running ∨ x.wdCfg.toNat % 2 ^ 32 = 0 ∨ classes.isEmpty ∨ classes.contains .none ∨ s.workPending c then s
  else if classes.contains .external then s.modCtx c (fun y => { y with quiescent := true })
  else (s.queueRecordC c s.deadlockRecord).faultContext c 0x30

/-- WATCHDOG_EXPIRY (R282). -/
def execWatchdogExpiry (ctx : Nat) (s : State) : Host.Outcome State Fault Refusal := .next (s.watchdog ctx)

end Sys2Proof.Machine
end

