-- ==== Sys2Proof/Machine/Fence.lean ====
section
/-! DEFINITION. fence and waitc (07_consistency.md R186 to R192), and the end of a fence that waits for posted writes
(R189, 20_link.md R442). -/

namespace Sys2Proof.Machine

open Sys2Proof

/-- A posted write that a fence of some lanes of a wave waits for: theirs, not withdrawn (R189). -/
def Posted.waitedBy (p : Posted) (k : Nat) (lanes : Word) : Bool := p.wave == k && !p.withdrawn && p.lanes &&& lanes != 0

/-- A fence of some lanes still waits for a posted write. -/
def State.unacked (s : State) (k : Nat) (lanes : Word) : Bool :=
  s.nodes.any (fun (_, l) => l.unacked.any (fun p => p.waitedBy k lanes))

/-- Ends a fence (R189): pd says whether every write it waited for was performed, and LINK_LOST follows where LNK_CFG.TRAP
enables it (R442). -/
def State.endFence (s : State) (k : Nat) (lanes : Word) (pd : Nat) (pc : DWord) (size : Nat) : State :=
  let w := s.waveAt k
  let lost := (w.lostWrites.filter (fun m => m &&& lanes != 0)).length
  let s1 := s.modWave k (fun u => (laneList (lanes &&& u.m0)).foldl (fun v l => v.setP pd l (decide (lost = 0)))
    { u with hold := none, lostWrites := u.lostWrites.filter (fun m => m &&& lanes == 0) })
  if lost ≠ 0 && bitOf (s.ctxAt w.ctx).lnkCfg.toNat 0 then
    let word := match s.fetchPlace w.ctx w.core pc.toNat with
      | .ok pa => BitVec.ofNat 64 (s.peekNat pa 8)
      | .error _ => 0
    { s1.takeTrap k lanes (pc + BitVec.ofNat 64 size) pc word none { code := 0x0E, lane := lowestLane lanes, aux := lost } with
      last := .trapped }
  else s1

/-- Completes a wave's fence where it waits for nothing more. -/
def State.settleFence (s : State) (k : Nat) : State :=
  match (s.waveAt k).hold with
  | some (.fence lanes pd pc size _) => if s.unacked k lanes then s else s.endFence k lanes pd pc size
  | _ => s

/-- The encoding rules of fence (R186) and waitc (R191). -/
def fenceSpec (f : FWord) : OpSpec :=
  { fd := .pred 1, fc := .quals, qBits := 31, reserved := bitsOf f.q 1 0 == 0 || decide (5 ≤ bitsOf f.q 4 2) }
def waitcSpec (f : FWord) : OpSpec :=
  { fa := .source (Gen.sIntLit 10 1), fc := .quals, qBits := 7, reserved := decide (6 ≤ f.q % 8) }

/-- What a fence does behind its commit (R187, R189): one that acquires makes the core's L0 forget, one that is sequentially
consistent at .pkg or .sys takes a ticket, one that releases at .sys waits for the wave's posted writes; any other writes pd. -/
def State.fenceEffect (s : State) (e : Env) (f : FWord) : State :=
  let kind := bitsOf f.q 1 0
  let scope := bitsOf f.q 4 2
  let u1 := if bitOf kind 0 then s.acquire (s.waveAt e.key).core scope else s
  let u2 : State := if kind = 3 ∧ (scope = 3 ∨ scope = 4) then { u1 with tickets := u1.tickets + 1 } else u1
  if scope = 4 ∧ bitOf kind 1 then
    u2.modWave e.key (fun w => { w with hold := some (.fence e.act f.fd.toNat e.pc e.size 0) })
  else u2.setPredAll e f.fd.toNat true

/-- fence (R186 to R189). -/
def execFence (f : FWord) (s : State) : Host.Outcome State Fault Refusal :=
  runWord (fenceSpec f) f s (fun e t =>
    (t.atBoundary e (fun _ => .ok) (fun u => u.fenceEffect e f)).settleFence e.key)

/-- waitc (R191): the operations it waited for precede what follows for every observer (R192), so the L0 keeps no older copy. -/
def execWaitc (f : FWord) (s : State) : Host.Outcome State Fault Refusal :=
  runWord (waitcSpec f) f s (fun e t =>
    t.checked e (.waitIf (decide (t.uvalue e 10 f.fa < (t.waveAt e.key).counter (f.q % 8))) .counter) (fun u =>
      u.acquire (u.waveAt e.key).core 1))

end Sys2Proof.Machine
end

