-- ==== Sys2Proof/Machine/Spans.lean ====
section
/-! DEFINITION. Mapping stash tiles: stmap, stunmap and stflush (06_memory_access.md R151 to R155). -/

namespace Sys2Proof.Machine

open Sys2Proof

/-- The stash spans of a block that an engine operation of it reads or writes (R153). -/
def EngineOp.stashSpans (o : EngineOp) : List (Nat × Nat) :=
  match o.kind with
  | .copy j => (match j.kind with
    | .bstore => []
    | .boxBstore => []
    | .castBstore => []
    | _ => [(j.offset, 1024 * j.run)])
  | .matrix j => j.spans
  | .drain j => j.spans
  | .softmax j => j.spans
  | .reduce j => if credRoot j.desc.toNat = o.core % 8 then credSpans j.ro j.desc.toNat else []
  | _ => []

/-- A span meets some tiles of a stash allocation. -/
def meetsTiles (first n : Nat) (x : Nat × Nat) : Bool :=
  decide (0 < x.2) && decide (x.1 < 1024 * (first + n)) && decide (1024 * first < x.1 + x.2)

/-- An operation of a block that has passed its checks and touches a tile of a range has not retired; an open round whose
root is the block counts for the tiles it will write (R153). -/
def State.tilesBusy (s : State) (b : Nat) (blk : Block) (first n : Nat) : Bool :=
  s.ops.any (fun (_, o) => o.block == some b && o.stashSpans.any (meetsTiles first n)) ||
  s.rounds.any (fun (k, r) => k / 16 == clusterOf blk.core && credRoot r.desc.toNat == blk.core % 8 &&
    r.group == s.groupOfBlock b && (credSpans r.ro r.desc.toNat).any (meetsTiles first n))

/-- write_back_dirty of R153: the stores of a tile have been performed as they were made (R152), so the lines are clean. -/
def State.flushTile (s : State) (b t : Nat) : State :=
  s.modTile b t (fun x => { x with lines := x.lines.map (fun l => (l.1, if l.2 = .dirty then .clean else l.2)) })

/-- A tile becomes MAPPED onto an address (R153). -/
def State.mapTile (s : State) (b t : Nat) (va : DWord) : State :=
  s.modTile b t (fun x => { x with st := .mapped, va := va, lines := [], pas := [], old := [] })

/-- A uniform operand of R153: an s register, an integer constant or a literal. -/
def tileOperand (ty : Nat) : Operand := .source { ty := ty, v := false, fconst := false, special := false }

/-- The encoding rules of stmap, stunmap and stflush (R153). -/
def tilesSpec (fb : Operand) : OpSpec :=
  { fa := tileOperand 10, fb := fb, fc := .quals, qBits := 0x1FF, latency := false }

/-- The checks of R153, in the order of R172, and the wait for the operations on the tiles and for a fill under way, during which
the wave stays in the active set. -/
def State.remapCheck (s : State) (b : Nat) (blk : Block) (sa ga n : Nat) : Check :=
  (Check.trapIf (decide (sa % 1024 ≠ 0)) { misalign sa true true with step := 1 }).both fun _ =>
  (Check.trapIf (decide (ga % 1024 ≠ 0)) { misalign ga false false with step := 1 }).both fun _ =>
  (Check.trapIf (blk.badRun sa n) { stashPerm sa true with step := 2 }).both fun _ =>
  (match blk.clash none (sa / 1024) n with
   | some h => Check.trap (blk.handleTrap h)
   | none => .ok).both fun _ => .waitIf (s.tilesBusy b blk (sa / 1024) n ||
      (List.range n).any (fun i => (s.tileAt b (sa / 1024 + i)).st == TileState.filling)) .cache

/-- stmap, stunmap and stflush: the checks of R153, the wait for the operations on the tiles, and the effect on each. -/
def runTiles (f : FWord) (s : State) (fb : Operand) (act : State → Nat → Nat → Nat → DWord → State) :
    Host.Outcome State Fault Refusal :=
  let n := f.q % 512 + 1
  runWord (tilesSpec fb) f s (fun e t => onBlock e t (fun b blk =>
    let sa := t.uvalue e 10 f.fa
    let ga : Nat := match fb with
      | .unused => 0
      | _ => t.uvalue e 11 f.fb
    let first := sa / 1024
    t.atBoundary e (fun u => u.remapCheck b blk sa ga n)
      (fun u => (List.range n).foldl (fun v i => act v b (first + i) i (BitVec.ofNat 64 ga)) u)))

/-- stmap (R153). -/
def execStmap (f : FWord) (s : State) : Host.Outcome State Fault Refusal :=
  runTiles f s (tileOperand 11) (fun u b t i ga => (u.flushTile b t).mapTile b t (ga + BitVec.ofNat 64 (1024 * i)))

/-- stunmap (R153). -/
def execStunmap (f : FWord) (s : State) : Host.Outcome State Fault Refusal :=
  runTiles f s .unused (fun u b t _ _ => (u.flushTile b t).unmapTile b t)

/-- stflush (R153): the tiles stay mapped, their lines clean. -/
def execStflush (f : FWord) (s : State) : Host.Outcome State Fault Refusal :=
  runTiles f s .unused (fun u b t _ _ => u.flushTile b t)

end Sys2Proof.Machine
end

