-- ==== Sys2Proof/Machine/Pool.lean ====
section
/-! DEFINITION. Block pools (17_block_pool.md) and the residency map kvld (18_attention.md R393 to R395). A pool operation
arrives at the engine by an event of its own, behind those of its wave before it (R374). -/

namespace Sys2Proof.Machine

open Sys2Proof

/-! ### Pools and their registers (R372 to R379) -/

def Pool.nblk (p : Pool) : Nat := bitsOf p.cfg.toNat 23 0 + 1
def Pool.nseq (p : Pool) : Nat := bitsOf p.cfg.toNat 43 24 + 1
def Pool.maxblk (p : Pool) : Nat := bitsOf p.cfg.toNat 59 44 + 1
def Pool.bsize (p : Pool) : Nat := 2 ^ (12 + bitsOf p.layout.toNat 31 28)
def Pool.tpb (p : Pool) : Nat := 2 ^ bitsOf p.layout.toNat 27 24
def Pool.heads (p : Pool) : Nat := bitsOf p.layout.toNat 23 16 + 1
def Pool.tokb (p : Pool) : Nat := 16 * (bitsOf p.layout.toNat 15 8 + 1)
def Pool.trape (p : Pool) : Bool := bitOf p.layout.toNat 32
def Pool.base (p : Pool) : Nat := bitsOf p.vbase.toNat 54 12 * 4096
def Pool.metaBase (p : Pool) : Nat := bitsOf p.metaReg.toNat 51 12 * 4096

/-- POOL_METASZ. -/
def Pool.metaBytes (p : Pool) : Nat := (4096 + 8 * p.nblk + (128 + 4 * p.maxblk) * p.nseq + 4095) / 4096 * 4096

/-- A pool of a context. -/
def Context.poolAt (x : Context) (n : Nat) : Pool := Cells.get {} x.pools n

/-- Changes a pool of a context. -/
def State.modPool (s : State) (c n : Nat) (f : Pool → Pool) : State :=
  s.modCtx c (fun x => { x with pools := Cells.set {} x.pools n (f (x.poolAt n)) })

/-- FREE blocks: those not listed (R377). -/
def Pool.freeBlocks (p : Pool) : Nat := if p.live then p.nblk - p.blocks.length else 0

/-- The lowest-numbered FREE block. -/
def Pool.lowestBlock (p : Pool) : Option Nat := Cells.lowestFree p.blocks 0 p.nblk

/-- A sequence of a pool. -/
def Pool.seqAt (p : Pool) (i : Nat) : Sequence := Cells.get {} p.seqs i

/-- The LIVE sequences. -/
def Pool.liveSeqs (p : Pool) : Nat := (p.seqs.filter (fun (_, q) => q.live)).length

/-- The lowest-numbered FREE sequence, tried from one on. -/
def Pool.lowestSeq (p : Pool) : Nat → Nat → Option Nat
  | _, 0 => none
  | i, n + 1 => if (p.seqAt i).live then Pool.lowestSeq p (i + 1) n else some i

/-- POOL_STAT (R376). -/
def Pool.stat (p : Pool) : Nat :=
  (if p.live then p.freeBlocks * 2 ^ 39 + p.liveSeqs * 2 ^ 18 + 1 else 0) + p.cause * 2 ^ 8

/-- The CAUSE of a CREATE (R373), 0 for a valid one; `guest` is that of the issuing context. -/
def State.createCause (s : State) (c n guest : Nat) : Nat :=
  let x := s.ctxAt c
  let p := x.poolAt n
  let frames := (List.range ((p.metaBase % 65536 + p.metaBytes + 65535) / 65536)).map (p.metaBase / 65536 + ·)
  let last (q : Pool) : Nat := q.base + q.nblk * q.bsize
  if 9 < bitsOf p.layout.toNat 31 28 ∨ 12 < bitsOf p.layout.toNat 27 24 ∨ p.bsize < p.heads * p.tpb * p.tokb ∨
      p.base % p.bsize ≠ 0 ∨ 2 ^ 55 < last p then 1
  else if !frames.all (fun f => match Cells.find s.place f with
      | none => false
      | some e => e.tier == 2 && (s.ctxAt e.ctx).guest == guest) then 2
  else if x.pools.any (fun (m, q) => m != n && q.live && decide (q.base < last p) && decide (p.base < last q)) then 3
  else 0

/-- CREATE (R373). -/
def State.createPool (s : State) (c n guest : Nat) : State :=
  let p := (s.ctxAt c).poolAt n
  if p.live then s
  else
    let cause := s.createCause c n guest
    if cause ≠ 0 then s.modPool c n (fun q => { q with cause := cause })
    else
      let frames := (List.range ((p.metaBase % 65536 + p.metaBytes + 65535) / 65536)).map (p.metaBase / 65536 + ·)
      let t : State := frames.foldl (fun u f => u.modPlace f (fun e => { e with pin := true })) s
      t.modPool c n (fun q => { q with live := true, cause := 0, blocks := [], seqs := [] })

/-- RESET (R373). -/
def State.resetPool (s : State) (c n : Nat) : State :=
  s.modPool c n (fun q => { q with live := false, blocks := [], seqs := [] })

/-- A write of a pool register (R376); a command is performed at once. -/
def State.poolWrite (s : State) (c num guest : Nat) (v : DWord) : State :=
  let n := num / 16 % 16
  let off := !((s.ctxAt c).poolAt n).live
  let keep (hi lo : Nat) : DWord := BitVec.ofNat 64 (bitsOf v.toNat hi lo * 2 ^ lo)
  match num % 16 with
  | 0 => if off then s.modPool c n (fun q => { q with vbase := keep 54 12 }) else s
  | 1 => if off then s.modPool c n (fun q => { q with cfg := keep 59 0 }) else s
  | 2 => if off then s.modPool c n (fun q => { q with layout := keep 32 8 }) else s
  | 3 => if off then s.modPool c n (fun q => { q with metaReg := keep 51 12 }) else s
  | 5 => if v.toNat % 256 = 1 then s.createPool c n guest else if v.toNat % 256 = 2 then s.resetPool c n else s
  | _ => s

/-- A read of a pool register (R376). -/
def Context.poolRead (x : Context) (num : Nat) : Nat :=
  let p := x.poolAt (num / 16 % 16)
  match num % 16 with
  | 0 => p.vbase.toNat
  | 1 => p.cfg.toNat
  | 2 => p.layout.toNat
  | 3 => p.metaReg.toNat
  | 4 => p.metaBytes
  | 6 => p.stat
  | _ => 0

/-! ### Handles and positions (R378 to R380) -/

/-- The handle of a sequence. -/
def seqHandle (pool gen index : Nat) : Nat := pool * 2 ^ 32 + gen * 2 ^ 20 + index

/-- The sequence that a handle names: its pool, index and state; none where the handle is stale. -/
def Context.seqOf (x : Context) (h : Nat) : Option (Nat × Nat × Pool × Sequence) :=
  let n := bitsOf h 35 32
  let p := x.poolAt n
  let i := bitsOf h 19 0
  let q := p.seqAt i
  if p.live && decide (i < p.nseq) && q.live && q.gen == bitsOf h 31 20 then some (n, i, p, q) else none

/-- The address of the block that holds block number `b` of a sequence. -/
def Pool.blockAddr (p : Pool) (q : Sequence) (b : Nat) : Nat := p.base + p.bsize * Cells.get 0 q.table (b % p.maxblk)

/-- The token slot of a head and position (R380). -/
def Pool.slotAddr (p : Pool) (q : Sequence) (head pos : Nat) : Nat :=
  p.blockAddr q (pos / p.tpb) + (head * p.tpb + pos % p.tpb) * p.tokb

/-- ceil(len / TPB). -/
def Pool.blocksFor (p : Pool) (len : Nat) : Nat := (len + p.tpb - 1) / p.tpb

/-- The sequence enters FREE: its generation rises, from 4,095 to 1 (R379). -/
def Sequence.drop (q : Sequence) : Sequence := { gen := if q.gen = 4095 then 1 else q.gen + 1 }

/-- A pool with a sequence replaced. -/
def Pool.setSeq (p : Pool) (i : Nat) (q : Sequence) : Pool := { p with seqs := Cells.set {} p.seqs i q }

/-- Lowers the RC of a block; at 0 it is FREE (R377). -/
def Pool.lower (p : Pool) (b : Nat) : Pool :=
  let rc := Cells.get 0 p.blocks b
  { p with blocks := if rc ≤ 1 then Cells.del p.blocks b else Cells.put p.blocks b (rc - 1) }

/-- Lowers the RC of the blocks with numbers `lo` to `hi` − 1 of a sequence; the pool and how many became FREE. -/
def Pool.releaseRange (p : Pool) (q : Sequence) (lo hi : Nat) : Pool × Nat :=
  let p1 := (List.range (hi - lo)).foldl (fun u k => u.lower (Cells.get 0 q.table ((lo + k) % p.maxblk))) p
  (p1, p1.freeBlocks - p.freeBlocks)

/-- Allocates the lowest FREE blocks for the numbers `lo` to `lo + n − 1` of a sequence (R386). -/
def Pool.extend (p : Pool) (q : Sequence) (lo : Nat) : Nat → Pool × Sequence
  | 0 => (p, q)
  | n + 1 => match p.lowestBlock with
    | none => (p, q)
    | some b => Pool.extend { p with blocks := Cells.put p.blocks b 1 }
        { q with table := Cells.put q.table (lo % p.maxblk) b } (lo + 1) n

/-! ### Issue (R381, R382) -/

/-- The word of a status and a value. -/
def poolWord (status value : Nat) : Nat := if status = 0 then value else status * 2 ^ 56

/-- A pool number, position, length or count. -/
def poolNumber : Operand := .source (Gen.sIntLit 10 1)

/-- A sequence handle or block address. -/
def poolHandle : Operand := .source (Gen.sLit 11 0)

/-- The encoding rules of a pool instruction (R381), its sources given. -/
def poolSpec (p : OpSpec) : OpSpec := { p with fd := .dest (Gen.sOnly 11), fc := .quals }

/-- The context of the issuing wave. -/
def State.myCtx (s : State) (e : Env) : Nat := (s.waveAt e.key).ctx

/-- The seat of an operation at the pool engine: its context and the core of the issuing wave. -/
def State.poolSeat (s : State) (e : Env) : Nat × Nat := s.seat e.key

/-- An operation of a pool number: status 4 above 15, status 3 where the pool is not LIVE. -/
def State.onPool (s : State) (c n : Nat) (body : Pool → State × Nat) : State × Nat :=
  if 15 < n then (s, poolWord 4 0)
  else
    let p := (s.ctxAt c).poolAt n
    if p.live then body p else (s, poolWord 3 0)

/-- An operation of a sequence: status 3 where the handle is stale. -/
def State.onSeq (s : State) (c h : Nat) (body : Nat → Nat → Pool → Sequence → State × Nat) : State × Nat :=
  match (s.ctxAt c).seqOf h with
  | none => (s, poolWord 3 0)
  | some (n, i, p, q) => body n i p q

/-- Replaces a pool of a context. -/
def State.setPool (s : State) (c n : Nat) (p : Pool) : State := s.modPool c n (fun _ => p)

/-- An allocation is an acquire at .pkg (R389). -/
def State.poolAcquire (s : State) (core : Nat) : State := s.acquire core 3

/-- The block at an address of a pool (R383). -/
def Pool.blockOf (p : Pool) (a : Nat) : Option Nat :=
  if a < p.base || decide (p.base + p.nblk * p.bsize ≤ a) || decide ((a - p.base) % p.bsize ≠ 0) then none
  else some ((a - p.base) / p.bsize)

/-! ### What the pool engine does (R383 to R388) -/

/-- balloc (R383). -/
def State.doBalloc (s : State) (c core n : Nat) : State × Nat :=
  s.onPool c n (fun p => match p.lowestBlock with
    | none => (s, poolWord 1 0)
    | some b => ((s.setPool c n { p with blocks := Cells.put p.blocks b 0 }).poolAcquire core, p.base + b * p.bsize))

/-- bfree (R383). -/
def State.doBfree (s : State) (c n a : Nat) : State × Nat :=
  s.onPool c n (fun p => match p.blockOf a with
    | none => (s, poolWord 4 0)
    | some b =>
      if Cells.get 0 p.blocks b ≠ 0 then (s, poolWord 8 0)
      else
        let p1 : Pool := { p with blocks := Cells.del p.blocks b }
        (s.setPool c n p1, p1.freeBlocks))

/-- seqnew (R384). -/
def State.doSeqnew (s : State) (c n : Nat) : State × Nat :=
  s.onPool c n (fun p => match p.lowestSeq 0 p.nseq with
    | none => (s, poolWord 2 0)
    | some i =>
      let gen := (p.seqAt i).gen
      (s.setPool c n (p.setSeq i { gen := gen, live := true }), seqHandle n gen i))

/-- seqdrop (R385). -/
def State.doSeqdrop (s : State) (c h : Nat) (head : Option Nat) : State × Nat :=
  s.onSeq c h (fun n i p q => match head with
    | none =>
      let (p1, freed) := p.releaseRange q (q.start / p.tpb) (p.blocksFor q.len)
      (s.setPool c n (p1.setSeq i q.drop), freed)
    | some pos =>
      if q.len < pos then (s, poolWord 4 0)
      else
        let st := Nat.max q.start (pos / p.tpb * p.tpb)
        let (p1, _) := p.releaseRange q (q.start / p.tpb) (st / p.tpb)
        (s.setPool c n (p1.setSeq i { q with start := st }), st))

/-- seqfork (R384). -/
def State.doSeqfork (s : State) (c h len : Nat) : State × Nat :=
  s.onSeq c h (fun n _ p q =>
    if len < q.start ∨ q.pub < len then (s, poolWord 4 0)
    else match p.lowestSeq 0 p.nseq with
      | none => (s, poolWord 2 0)
      | some i =>
        let lo := q.start / p.tpb
        let slots := (List.range (p.blocksFor len - lo)).map (fun k => (lo + k) % p.maxblk)
        let p1 : Pool := { p with blocks := slots.foldl (fun m k =>
          let b := Cells.get 0 q.table k
          Cells.put m b (Cells.get 0 m b + 1)) p.blocks }
        let gen := (p.seqAt i).gen
        let child : Sequence := { gen := gen, live := true, len := len, pub := len, start := q.start
                                  table := slots.foldl (fun m k => Cells.put m k (Cells.get 0 q.table k)) [] }
        (s.setPool c n (p1.setSeq i child), seqHandle n gen i))

/-- What an append finds: the status of a failure, or the first new block number, how many, and the shared block that
must be copied with the block its copy takes. -/
def Pool.appendPlan (p : Pool) (q : Sequence) (n : Nat) : Except Nat (Nat × Nat × Option (Nat × Nat)) :=
  if n = 0 ∨ 65536 < n ∨ 2 ^ 32 - 1 < q.len + n then .error 4
  else
    let lo := q.start / p.tpb
    let had := p.blocksFor q.len
    let needed := p.blocksFor (q.len + n)
    let old := Cells.get 0 q.table ((had - 1) % p.maxblk)
    let cow := decide (q.len % p.tpb ≠ 0) && decide (1 < Cells.get 0 p.blocks old)
    if p.maxblk < needed - lo then .error 5
    else if p.freeBlocks < (needed - had) + b2n cow then .error 1
    else .ok (had, needed - had, if cow then p.lowestBlock.map (fun new => (old, new)) else none)

/-- The pages of the source and of the target of a copy. -/
def Pool.copyPages (p : Pool) (cp : Nat × Nat) : List Nat × List Nat :=
  (spanPages (p.base + cp.1 * p.bsize) p.bsize, spanPages (p.base + cp.2 * p.bsize) p.bsize)

/-- The checks of a copy through the issuing context's translation: a fault, or a wait for ownership. -/
def State.copyLook (s : State) (seat : Nat × Nat) (p : Pool) (cp : Nat × Nat) : Check :=
  (s.pagesCheckFor seat { read := true, here := true } (p.copyPages cp).1).both fun _ =>
  s.pagesCheckFor seat { write := true, here := true } (p.copyPages cp).2

/-- The copy of kvapp: a block's bytes, read and written as an engine; and the frames it is written to. -/
def State.copyBlock (s : State) (seat : Nat × Nat) (p : Pool) (cp : Nat × Nat) : State × List Nat :=
  let (from', to') := p.copyPages cp
  let rd := s.pageFramesFor seat { read := true, here := true } from'
  let wr := s.pageFramesFor seat { write := true, here := true } to'
  let src := pagedPieces rd (p.base + cp.1 * p.bsize) p.bsize
  let dst := pagedPieces wr (p.base + cp.2 * p.bsize) p.bsize
  let s1 := (s.touchPagesFor seat (from' ++ to')).noteRead src
  ((List.zipWith (fun a b => (a, b)) src dst).foldl (fun (t : State) x => t.engineWrite x.2.1 (s1.peek x.1.1 x.1.2)) s1,
   wr.map (·.2))

/-- The copy that a kvapp needs (R386). -/
def State.appendCopy (s : State) (c h n : Nat) : Option (Pool × (Nat × Nat)) :=
  match (s.ctxAt c).seqOf h with
  | none => none
  | some (_, _, p, q) => match p.appendPlan q n with
    | .ok (_, _, some cp) => some (p, cp)
    | _ => none

/-- The accesses for whose frames a kvapp waits: none where it needs no copy, and none any longer once the time of one has run
out (R386). -/
def State.appendStalls (s : State) (seat : Nat × Nat) (h n : Nat) : List Stall :=
  match s.appendCopy seat.1 h n with
  | none => []
  | some (p, cp) => match s.copyLook seat p cp with
    | .wait _ xs => if (s.overdue xs).isSome then [] else xs
    | _ => []

/-- kvapp at its turn (R386): the state, the word of sd, and what of it is still to retire. -/
def State.doKvapp (s : State) (seat : Nat × Nat) (h n : Nat) : State × Nat × OpKind :=
  let c := seat.1
  match (s.ctxAt c).seqOf h with
  | none => (s, poolWord 3 0, .performed)
  | some (m, i, p, q) => match p.appendPlan q n with
    | .error st => (s, poolWord st 0, .performed)
    | .ok (had, more, none) =>
      let (p1, q1) := p.extend q had more
      (((s.setPool c m (p1.setSeq i { q1 with len := q.len + n })).poolAcquire seat.2), q.len, .performed)
    | .ok (had, more, some cp) => match s.copyLook seat p cp with
      | .trap _ => (s, poolWord 6 0, .performed)
      | .wait _ xs => match s.overdue xs with
        | some x => (s.endStall x, poolWord 6 0, .performed)
        | none => (s, poolWord 6 0, .performed)
      | .ok =>
        let (s1, frames) := s.copyBlock seat p cp
        let p0 : Pool := { p.lower cp.1 with blocks := Cells.put (p.lower cp.1).blocks cp.2 1 }
        let q0 : Sequence := { q with table := Cells.put q.table ((had - 1) % p.maxblk) cp.2 }
        let (p1, q1) := p0.extend q0 had more
        (((s1.setPool c m (p1.setSeq i { q1 with len := q.len + n })).poolAcquire seat.2), q.len, .copied frames)

/-- The package address of a sequence's descriptor line (R387): the lines of the descriptors stand behind the first 4,096 bytes of the
metadata area (DESIGN CHOICE, log 72: the layout is the implementation's). -/
def Pool.descriptor (p : Pool) (i : Nat) : Nat := p.metaBase + 4096 + 128 * i

/-- The party of a core (R184). -/
def State.party (s : State) (seat : Nat × Nat) : Nat × Nat := (s.node, (s.ctxAt seat.1).agentOf seat.2)

/-- kvpub (R387). -/
def State.doKvpub (s : State) (seat : Nat × Nat) (h len scope : Nat) : State × Nat :=
  s.onSeq seat.1 h (fun n i p q =>
    if q.len < len then (s, poolWord 4 0)
    else
      let pub := Nat.max q.pub len
      ((s.setPool seat.1 n (p.setSeq i { q with pub := pub })).syncUpdate (p.descriptor i) scope (s.party seat), pub))

/-- seqlen (R388). -/
def State.doSeqlen (s : State) (c h what pos : Nat) : State × Nat :=
  s.onSeq c h (fun _ _ p q =>
    (s, match what with
      | 0 => q.len
      | 1 => q.pub
      | 2 => q.start
      | _ => if pos < q.start ∨ q.len ≤ pos then poolWord 7 0 else p.blockAddr q (pos / p.tpb)))

/-- poolq (R388). -/
def State.doPoolq (s : State) (c n what : Nat) : State × Nat :=
  let p := (s.ctxAt c).poolAt n
  (s, if 15 < n then poolWord 4 0 else match what with
    | 0 => p.freeBlocks
    | 1 => if p.live then p.liveSeqs else 0
    | _ => b2n p.live)

/-- An operation at its place in arrival order (R374): the state, the word of sd, and what of it is still to retire. -/
def State.poolAct (s : State) (seat : Nat × Nat) (a : PoolAct) : State × Nat × OpKind :=
  let plain (r : State × Nat) : State × Nat × OpKind := (r.1, r.2, .performed)
  match a with
  | .balloc n => plain (s.doBalloc seat.1 seat.2 n)
  | .bfree n x => plain (s.doBfree seat.1 n x)
  | .seqnew n => plain (s.doSeqnew seat.1 n)
  | .seqdrop h head => plain (s.doSeqdrop seat.1 h head)
  | .seqfork h len => plain (s.doSeqfork seat.1 h len)
  | .kvapp h n => s.doKvapp seat h n
  | .kvpub h len scope => plain (s.doKvpub seat h len scope)
  | .seqlen h what pos => plain (s.doSeqlen seat.1 h what pos)
  | .poolq n what => plain (s.doPoolq seat.1 n what)

/-! ### Arrival (R374) -/

/-- An operation of a wave on its way to the pool engine, of those before `id`: a wave's operations arrive in program order. -/
def State.poolAhead (s : State) (k id : Nat) : Bool := s.ops.any (fun (i, o) => decide (i < id) && o.wave == k && o.toPool)

/-- The frames a pool operation waits for. -/
def State.poolStalls (s : State) (seat : Nat × Nat) (a : PoolAct) : List Stall :=
  match a with
  | .kvapp h n => s.appendStalls seat h n
  | _ => []

/-- A pool operation arrives (R374): behind those that its wave issued before it, and, a kvapp, once this package owns the frames of its
copy; its result is on its way, and what it wrote has still to be performed before it retires. -/
def State.runPoolOp (s : State) (id : Nat) (o : EngineOp) (j : PoolJob) : State :=
  let seat := (j.ctx, o.core)
  let stalls := s.poolStalls seat j.act
  if s.poolAhead o.wave id then s.stickOp id
  else if !stalls.isEmpty then (s.requestFrames stalls).stickOp id
  else
    let (t, x, kind) := s.poolAct seat j.act
    let u : State := t.endFillS j.fill x
    (({ u with ops := Cells.modify u.ops id (fun y => { y with kind := kind }) } : State).wakeOps (fun y =>
      y.wave == o.wave && y.toPool)).post (.engineOpRetire id)

/-- Issues a pool operation that the wave does not wait for (R382). -/
def State.startPool (s : State) (e : Env) (cls : Option Nat) (a : PoolAct) : State :=
  let (fill, v) := s.startFill e.key (s.destKeys e 1 e.f.fd e.act)
  v.issueOp e cls (.pool { ctx := s.myCtx e, act := a, fill := fill })

/-- A pool instruction that goes on before the engine has performed it. -/
def State.poolLater (s : State) (e : Env) (cls : Option Nat) (a : PoolAct) : State :=
  s.atBoundary e (fun u => if cls.isSome then u.counterFull e 4 else .ok) (fun u => u.startPool e cls a)

/-- A pool instruction that holds its wave until the engine has performed it (R382): behind the wave's earlier ones. -/
def State.poolNow (s : State) (e : Env) (check : State → Check) (a : PoolAct) : State :=
  s.atBoundary e
    (fun u => (u.counterFull e 4).both fun _ =>
      (Check.waitIf (u.poolAhead e.key u.nextId) .engine).both fun _ => check u)
    (fun u =>
      let (v, x, kind) := u.poolAct (u.poolSeat e) a
      (v.longS e x).issueOp e (some 4) kind)

/-! ### The pool instructions -/

/-- balloc (R383): with TRAPE it holds the wave. -/
def execBalloc (f : FWord) (s : State) : Host.Outcome State Fault Refusal :=
  runWord (poolSpec { fa := poolNumber }) f s (fun e t =>
    let n := t.uvalue e 10 f.fa
    if decide (n ≤ 15) && ((t.ctxOf e).poolAt n).trape then
      t.poolNow e (fun u =>
        let p := (u.ctxOf e).poolAt n
        .trapIf (p.live && p.lowestBlock.isNone) { code := 0x0D, aux := n }) (.balloc n)
    else t.poolLater e (some 4) (.balloc n))

/-- bfree (R383). -/
def execBfree (f : FWord) (s : State) : Host.Outcome State Fault Refusal :=
  runWord (poolSpec { fa := poolNumber, fb := poolHandle }) f s (fun e t =>
    let n := t.uvalue e 10 f.fa
    let a := t.uvalue e 11 f.fb
    t.poolNow e (fun u =>
      let p := (u.ctxOf e).poolAt n
      match p.blockOf a with
      | none => .ok
      | some b => .trapIf (decide (n ≤ 15) && p.live && (Cells.find p.blocks b).isNone) { code := 0x0C, addr := a, aux := n })
      (.bfree n a))

/-- seqnew (R384). -/
def execSeqnew (f : FWord) (s : State) : Host.Outcome State Fault Refusal :=
  runWord (poolSpec { fa := poolNumber }) f s (fun e t => t.poolLater e (some 4) (.seqnew (t.uvalue e 10 f.fa)))

/-- seqdrop (R385). -/
def execSeqdrop (f : FWord) (s : State) : Host.Outcome State Fault Refusal :=
  let head := bitOf f.q 0
  runWord (poolSpec { fa := poolHandle, fb := if head then poolNumber else .unused, qBits := 1 }) f s (fun e t =>
    t.poolLater e (some 4) (.seqdrop (t.uvalue e 11 f.fa) (if head then some (t.uvalue e 10 f.fb) else none)))

/-- seqfork (R384). -/
def execSeqfork (f : FWord) (s : State) : Host.Outcome State Fault Refusal :=
  runWord (poolSpec { fa := poolHandle, fb := poolNumber }) f s (fun e t =>
    t.poolLater e (some 4) (.seqfork (t.uvalue e 11 f.fa) (t.uvalue e 10 f.fb)))

/-- kvapp (R386). -/
def execKvapp (f : FWord) (s : State) : Host.Outcome State Fault Refusal :=
  runWord (poolSpec { fa := poolHandle, fb := poolNumber }) f s (fun e t =>
    t.poolLater e (some 4) (.kvapp (t.uvalue e 11 f.fa) (t.uvalue e 10 f.fb)))

/-- kvpub (R387). -/
def execKvpub (f : FWord) (s : State) : Host.Outcome State Fault Refusal :=
  let scope := bitsOf f.q 4 2
  runWord (poolSpec { fa := poolHandle, fb := poolNumber, qBits := 0x1C, reserved := decide (5 ≤ scope), illegal := decide (scope < 3) })
    f s (fun e t =>
      let h := t.uvalue e 11 f.fa
      let len := t.uvalue e 10 f.fb
      t.poolNow e (fun u => match (u.ctxOf e).seqOf h with
        | none => .ok
        | some (_, i, p, q) =>
          let m := u.lineMetaAt (p.descriptor i)
          .trapIf (decide (len ≤ q.len) && !m.syncOk scope (u.party (u.poolSeat e))) { code := 7, detail := scope, aux := m.record })
        (.kvpub h len scope))

/-- seqlen (R388). -/
def execSeqlen (f : FWord) (s : State) : Host.Outcome State Fault Refusal :=
  let what := f.q % 4
  runWord (poolSpec { fa := poolHandle, fb := if what = 3 then poolNumber else .unused, qBits := 3 }) f s (fun e t =>
    t.poolLater e none (.seqlen (t.uvalue e 11 f.fa) what (if what = 3 then t.uvalue e 10 f.fb else 0)))

/-- poolq (R388). -/
def execPoolq (f : FWord) (s : State) : Host.Outcome State Fault Refusal :=
  let what := f.q % 4
  runWord (poolSpec { fa := poolNumber, qBits := 3, reserved := what == 3 }) f s (fun e t =>
    t.poolLater e none (.poolq (t.uvalue e 10 f.fa) what))

/-! ### kvld (R393 to R395) -/

/-- The word that kvld writes for a position of a sequence that is not stale (R394). -/
def State.residency (s : State) (k : Nat) (p : Pool) (q : Sequence) (head pos : Nat) : Nat :=
  if p.heads ≤ head then poolWord 5 0
  else if pos < q.start then poolWord 2 0
  else if q.pub ≤ pos then poolWord 1 0
  else
    let a := p.slotAddr q head pos
    let (c, core) := s.seat k
    match s.resolve c core a 1 { read := true } with
    | .error _ => 3 * 2 ^ 56 + a
    | .ok pl => if pl.remote.isSome || s.unowned pl.pa then 3 * 2 ^ 56 + a else a

/-- The acquire of kvld enters the record of the sequence's descriptor line (R184, R394). -/
def State.readPub (s : State) (e : Env) (scope : Nat) (p : Pool) (i : Nat) : State :=
  (s.syncUpdate (p.descriptor i) scope (s.party (s.poolSeat e))).acquire (s.waveAt e.key).core scope

/-- The encoding rules of kvld (R393). -/
def kvldSpec : OpSpec :=
  { fd := .dest (Gen.vOnly 11 2 2), fa := poolHandle, fb := .source { ty := 6, fconst := false, special := false, lits := [1] }
    fc := .quals, qBits := 0x1FF, latency := false }

/-- kvld (R393, R394). -/
def execKvld (f : FWord) (s : State) : Host.Outcome State Fault Refusal :=
  let scope := if bitOf f.q 8 then 4 else 3
  runWord kvldSpec f s (fun e t =>
    let lanes := laneList e.act
    let found := (t.ctxOf e).seqOf (t.uvalue e 11 f.fa)
    let check : Check := match found with
      | none => .ok
      | some (_, i, p, _) =>
        let m := t.lineMetaAt (p.descriptor i)
        .trapIf (!m.syncOk scope (t.party (t.poolSeat e))) { code := 7, lane := lowestLane e.act, detail := scope, aux := m.record }
    t.checked e check (fun u =>
      let word (l : Nat) : Nat := match found with
        | none => poolWord 4 0
        | some (_, _, pl, q) => u.residency e.key pl q (f.q % 256) (u.value e 6 f.fb l)
      let v := match found with
        | none => u
        | some (_, i, p, _) => u.readPub e scope p i
      let n := f.fd.toNat
      v.longResult e.key (u.destKeys e 2 f.fd e.act)
        (lanes.flatMap (fun l => [(n * 32 + l, BitVec.ofNat 32 (word l)), ((n + 1) * 32 + l, BitVec.ofNat 32 (word l / 2 ^ 32))])) []))

/-! ### Events -/

/-- POOL_CREATE (R373), for a context's own guest. -/
def execPoolCreate (ctx pool : Nat) (s : State) : Host.Outcome State Fault Refusal :=
  .next (s.createPool ctx pool (s.ctxAt ctx).guest)

/-- POOL_RESET (R373). -/
def execPoolReset (ctx pool : Nat) (s : State) : Host.Outcome State Fault Refusal := .next (s.resetPool ctx pool)

end Sys2Proof.Machine
end

