-- ==== Sys2Proof/Machine/Shutter.lean ====
section
/-! DEFINITION. Shutters: snap, sacc, srej, sqry, sgrow, restores and scrubs, and the shutter registers (19_shutter.md). The
rule of a write to a line of a shutter stands in Machine/Memory.lean. -/

namespace Sys2Proof.Machine

open Sys2Proof

/-- A shutter of a context. -/
def Context.shutterAt (x : Context) (i : Nat) : Shutter := Cells.get {} x.shutters i

/-- The context and the shutter that a reference names; none where it is stale (R412). -/
def State.shutterRefOf (s : State) (e : Env) (useCtx : Bool) (r : Nat) : Option (Nat × Nat × Shutter) :=
  let c := if useCtx then bitsOf r 23 16 else s.myCtx e
  let sh := (s.ctxAt c).shutterAt (r % 16)
  if bitsOf r 7 4 ≠ 0 ∨ sh.st ≠ .opened ∨ sh.gen ≠ bitsOf r 15 8 then none else some (c, r % 16, sh)

/-- The depth of a shutter. -/
def Shutter.depth (sh : Shutter) : Nat := sh.levels.length

/-- A FREE epoch of a context, the choice being free (R422). -/
def State.freeEpoch (s : State) (c : Nat) : Option Nat :=
  let free := ((List.range 255).map (· + 1)).filter (fun e => (Cells.find (s.ctxAt c).epochs e).isNone)
  if free.isEmpty then none else free[Config.epoch s.tick % free.length]?

/-- Marks epochs of a context LIVE (1) or RETIRED (2). -/
def State.markEpochs (s : State) (c : Nat) (es : List Nat) (st : Nat) : State :=
  s.modCtx c (fun x => { x with epochs := es.foldl (fun m e => Cells.put m e st) x.epochs })

/-- The word that snap writes (R422). -/
def snapWord (c i : Nat) (sh : Shutter) : Nat := sh.depth * 2 ^ 24 + c * 2 ^ 16 + sh.gen * 2 ^ 8 + i

/-- The next generation of a shutter (R412). -/
def nextShutterGen (g : Nat) : Nat := if g = 255 then 1 else g + 1

/-- What waits for shadows looks again. -/
def State.roomChanged (s : State) : State := s.wakeAll

/-! ### snap (R422) -/

/-- The pages of a range of frames. -/
def framePages (va n : Nat) : List Nat := (List.range n).map (fun f => (va + 65536 * f) % 2 ^ 64)

/-- The package frames of a range that translates. -/
def State.rangeFrames (s : State) (k va n : Nat) : List Nat :=
  let (c, core) := s.seat k
  ((framePages va n).map (fun a => match s.resolve c core a 1 {} with
    | .error _ => 0
    | .ok p => p.pa / 65536)).eraseDups

/-- The traps and waits of snap.new: a misaligned address; a page that does not translate, or is privileged; a frame in
tier C, shared or remote; and a migration of a frame or a CLOSING shutter over one, which it waits for. -/
def State.snapCheck (s : State) (k va n : Nat) : Check :=
  let (c, core) := s.seat k
  if va % 65536 ≠ 0 then .trap (misalign va false false)
  else if n = 0 ∨ 2 ^ 20 < n then .ok
  else
    (Check.lanes (framePages va n) (fun a => match s.resolve c core a 1 {} with
      | .error f => some (f.trap 0 a false)
      | .ok _ => none)).both fun _ =>
    (Check.lanes (framePages va n) (fun a => match s.resolve c core a 1 {} with
      | .error _ => none
      | .ok p =>
        let bad : Bool := p.remote.isSome || (match Cells.find s.place (p.pa / 65536) with
          | none => true
          | some e => e.tier == 3 || e.shr)
        if bad then some { code := 0x23, addr := a, step := 4 } else none)).both fun _ =>
    let frames := s.rangeFrames k va n
    let moving := frames.any (fun f => match Cells.find s.place f with
      | none => false
      | some e => decide (e.mig ≠ .idle))
    let closing := (s.ctxAt c).shutters.any (fun (_, sh) => decide (sh.st = .closing) && frames.any (fun f => sh.frames.contains f))
    .waitIf (moving || closing) .cache

/-- What a shutter operation finds: the status of a failure, or the shutter, entered and its epoch taken, and what is to be done to its
levels once the caches have taken the update. -/
abbrev LevelPlan := Except Nat (State × Nat × Nat × LevelAct)

/-- snap.new (R422): a FREE shutter takes the frames and an epoch; its level is still to be opened. -/
def State.snapNew (s : State) (k va n : Nat) : LevelPlan :=
  let (c, _) := s.seat k
  if n = 0 ∨ 2 ^ 20 < n then .error 4
  else
    let frames := s.rangeFrames k va n
    if frames.any (fun f => match Cells.find s.place f with
      | none => true
      | some e => e.ctx != c || e.shut) then .error 4
    else match (List.range 16).find? (fun i => decide (((s.ctxAt c).shutterAt i).st = .free)), s.freeEpoch c with
      | some i, some ep =>
        let sh : Shutter := { st := .opened, gen := nextShutterGen ((s.ctxAt c).shutterAt i).gen, frames := frames }
        .ok (((s.setShut frames true).markEpochs c [ep] 1).setShutter c i sh, c, i, .opens ep)
      | _, _ => .error 5

/-- snap.nest (R422): an epoch is taken for the level to be opened. -/
def State.snapNest (s : State) (e : Env) (r : Nat) : LevelPlan :=
  match s.shutterRefOf e false r with
  | none => .error 3
  | some (c, i, sh) => match s.freeEpoch c with
    | none => .error 5
    | some ep => if sh.depth = 8 then .error 5 else .ok (s.markEpochs c [ep] 1, c, i, .opens ep)

/-- sacc or srej (R423, R424) of a level that `ok` admits. -/
def State.levelPlan (s : State) (e : Env) (useCtx : Bool) (r k : Nat) (ok : Shutter → Nat → Bool) (act : LevelAct) : LevelPlan :=
  match s.shutterRefOf e useCtx r with
  | none => .error 3
  | some (c, i, sh) => if ok sh k then .ok (s, c, i, act) else .error 4

/-- A shutter reference (R420). -/
def shutterOperand : Operand := .source (Gen.sLit 10 1)

/-- The encoding rules of snap, sacc and srej, sqry, and sgrow (R420). -/
def snapSpec (nest : Bool) : OpSpec :=
  { fd := .dest (Gen.sOnly 11), fa := if nest then shutterOperand else poolHandle
    fb := if nest then .unused else poolNumber, fc := .quals, qBits := 1 }
def levelSpec (f : FWord) : OpSpec :=
  { fd := .dest (Gen.sOnly 11), fa := shutterOperand, fb := poolNumber, fc := .quals, qBits := 1, system := bitOf f.q 0 }
def sqrySpec (f : FWord) : OpSpec :=
  { fd := .dest (Gen.sOnly 11), fa := shutterOperand, fb := if f.q % 4 = 1 then poolNumber else .unused
    fc := .quals, qBits := 7, reserved := f.q % 4 == 3, system := bitOf f.q 2 }
def sgrowSpec : OpSpec :=
  { fd := .dest (Gen.sOnly 11), fa := poolNumber, fb := poolNumber, fc := .quals, qBits := 1, system := true }

/-! ### sacc and srej (R423 to R425) -/

/-- A shadow of a level. -/
def Shutter.hasShadow (sh : Shutter) (line level : Nat) : Bool := sh.shadows.any (fun x => x.line == line && x.level == level)

/-- sacc at the innermost level: the shutter, the shadows freed, the epochs that become RETIRED. -/
def Shutter.accept (sh : Shutter) (k : Nat) : Shutter × Nat :=
  let keep := sh.shadows.filterMap (fun x =>
    if x.level ≠ k then some x
    else if 1 < k ∧ !sh.hasShadow x.line (k - 1) then some { x with level := k - 1 } else none)
  let freed := sh.shadows.length - keep.length
  if 1 < k then
    ({ sh with shadows := keep
               levels := sh.levels.take (k - 2) ++ [sh.levels.getD (k - 2) [] ++ sh.levels.getD (k - 1) []] }, freed)
  else
    ({ sh with st := .closing, shadows := keep, levels := []
               scrub := (sh.shadows.filter (fun x => x.level == 1)).map (·.line)
               retired := sh.retired ++ sh.levels.flatten }, freed)

/-- srej at a level: the shutter and the lines that await restore. A line that already awaited one takes the older bytes, and the
epochs of the srej it awaited then go with this one's, since it may carry them until its restore (R414). -/
def Shutter.reject (sh : Shutter) (k : Nat) : Shutter × Nat :=
  let back := sh.shadows.filter (fun x => x.level == k)
  let lines := back.map (·.line)
  let taken (x : List Nat × List Nat) : Bool := x.2.any lines.contains
  let earlier := sh.rejects
  let tag := if k = 1 then 0 else sh.ownEpoch (k - 1)
  let keep := sh.shadows.filter (fun x => decide (x.level < k) && !(x.level == 0 && back.any (fun y => y.line == x.line)))
  ({ sh with st := if k = 1 then .closing else .opened
             shadows := keep ++ back.map (fun x => { x with level := 0, tag := tag })
             levels := sh.levels.take (k - 1)
             rejects := (earlier.filter (fun x => !taken x)) ++ [((sh.levels.drop (k - 1)).flatten ++ (earlier.filter taken).flatMap (·.1),
               lines ++ (earlier.filter taken).flatMap (fun x => x.2.filter (fun l => !lines.contains l)))] }, back.length)

/-- The RETIRED epochs of a shutter. -/
def Shutter.retiredEpochs (sh : Shutter) : List Nat := sh.retired ++ sh.rejects.flatMap (·.1)

/-! ### The update of the caches (R416) -/

/-- The caches that hold a line. -/
def State.lineAgents (s : State) : List Nat := (s.cache.map (fun (k, _) => k / 2 ^ 46)).eraseDups

/-- Opens or closes a level: the state and the word of sd. -/
def State.actLevel (s : State) (c i : Nat) (sh : Shutter) (act : LevelAct) : State × Nat :=
  match act with
  | .opens ep =>
    let sh1 : Shutter := { sh with levels := sh.levels ++ [[ep]] }
    (s.setShutter c i sh1, snapWord c i sh1)
  | .accept k =>
    let (sh1, n) := sh.accept k
    ((((s.setShutter c i sh1).markEpochs c sh1.retiredEpochs 2).settleShutter c i).roomChanged, n)
  | .reject k =>
    let (sh1, n) := sh.reject k
    ((((s.setShutter c i sh1).markEpochs c sh1.retiredEpochs 2).settleShutter c i).roomChanged, n)

/-- Every cache has taken the update of a shutter: the level counts as open or closed, sd is written at once for a snap, and the
operation retires. -/
def State.endUpdate (s : State) (c i : Nat) : State :=
  let sh := (s.ctxAt c).shutterAt i
  match sh.pending with
  | none => s
  | some j =>
    let (t, x) := s.actLevel c i { sh with pending := none, updating := [] } j.act
    let u := t.endFillS j.fill x
    let v := match j.act with
      | .opens _ => u.finishFill j.fill
      | _ => u
    ({ v with ops := Cells.modify v.ops j.op (fun o => { o with kind := .performed }) } : State).post (.engineOpRetire j.op)

/-- The update of a shutter goes to every cache that holds a line; the others have nothing to judge by it. -/
def State.beginUpdate (s : State) (c i : Nat) (j : LevelJob) : State :=
  let agents := s.lineAgents
  let t := s.setShutter c i { (s.ctxAt c).shutterAt i with pending := some j, updating := agents }
  if agents.isEmpty then t.endUpdate c i else { t with agenda := t.agenda ++ agents.map (fun a => .shutterUpdate a c i) }

/-- A cache takes the update of a shutter. -/
def State.takeUpdate (s : State) (agent c i : Nat) : State :=
  let sh := (s.ctxAt c).shutterAt i
  if !sh.updating.contains agent then s
  else
    let sh1 := { sh with updating := sh.updating.erase agent }
    let t := s.setShutter c i sh1
    if sh1.updating.isEmpty then t.endUpdate c i else t

/-- Issues a shutter operation (R420): one that fails answers at once; the wave of a snap issues nothing before sd is written. -/
def State.startLevel (s : State) (e : Env) (snap : Bool) (p : LevelPlan) : State :=
  match p with
  | .error st =>
    let x := poolWord st 0
    (if snap then s.write e 11 e.f.fd (lowestLane e.act) x else s.longS e x).issueOp e (some 5) .performed
  | .ok (t, c, i, act) =>
    let (fill, u) := t.startFill e.key (t.destKeys e 1 e.f.fd e.act)
    let op := u.nextId
    let v := u.issueOp e (some 5) (.level c i)
    let w := if snap then v.modWave e.key (fun y => { y with hold := some (.operation op) }) else v
    w.beginUpdate c i { op := op, fill := fill, act := act }

/-- An operation on a shutter waits while the update of one before it is on its way (R427). -/
def State.levelBusy (s : State) (e : Env) (useCtx : Bool) (r : Nat) : Check :=
  match s.shutterRefOf e useCtx r with
  | none => .ok
  | some (_, _, sh) => .waitIf sh.pending.isSome .engine

/-- Issues snap.new or snap.nest (R420, R422). -/
def runSnap (nest : Bool) (f : FWord) (s : State) : Host.Outcome State Fault Refusal :=
  runWord (snapSpec nest) f s (fun e t =>
    let va := t.uvalue e 11 f.fa
    let n := t.uvalue e 10 f.fb
    let r := t.uvalue e 10 f.fa
    t.atBoundary e
      (fun u => (u.counterFull e 5).both fun _ => if nest then u.levelBusy e false r else u.snapCheck e.key va n)
      (fun u =>
        let u1 := if nest then u else u.touchPages e.key (framePages va n)
        u1.startLevel e true (if nest then u1.snapNest e r else u1.snapNew e.key va n)))

/-- snap.new (R422). -/
def execSnapNew (f : FWord) (s : State) : Host.Outcome State Fault Refusal := runSnap false f s

/-- snap.nest (R422). -/
def execSnapNest (f : FWord) (s : State) : Host.Outcome State Fault Refusal := runSnap true f s

/-- Issues sacc or srej: which levels it accepts, and what it does to the shutter. -/
def runLevel (f : FWord) (s : State) (ok : Shutter → Nat → Bool) (act : Nat → LevelAct) : Host.Outcome State Fault Refusal :=
  let useCtx := bitOf f.q 0
  runWord (levelSpec f) f s (fun e t =>
    let r := t.uvalue e 10 f.fa
    let k := t.uvalue e 10 f.fb
    t.atBoundary e (fun u => (u.counterFull e 5).both fun _ => u.levelBusy e useCtx r)
      (fun u => u.startLevel e false (u.levelPlan e useCtx r k ok (act k))))

/-- sacc (R423). -/
def execSacc (f : FWord) (s : State) : Host.Outcome State Fault Refusal :=
  runLevel f s (fun sh k => decide (k = sh.depth)) .accept

/-- srej (R424). -/
def execSrej (f : FWord) (s : State) : Host.Outcome State Fault Refusal :=
  runLevel f s (fun sh k => decide (0 < k) && decide (k ≤ sh.depth)) .reject

/-! ### sqry and sgrow (R426) -/

/-- sqry (R426). -/
def execSqry (f : FWord) (s : State) : Host.Outcome State Fault Refusal :=
  let what := f.q % 4
  let useCtx := bitOf f.q 2
  runWord (sqrySpec f) f s (fun e t =>
    t.atBoundary e (fun _ => .ok) (fun u =>
      let x : Nat := match u.shutterRefOf e useCtx (t.uvalue e 10 f.fa) with
        | none => poolWord 3 0
        | some (c, _, sh) => match what with
          | 0 => sh.depth
          | 1 =>
            let k := t.uvalue e 10 f.fb
            if k = 0 ∨ sh.depth < k then poolWord 4 0 else (sh.shadows.filter (fun y => y.level == k)).length
          | _ => sh.shadows.length + (u.ctxAt c).freeShadows * 2 ^ 25
      u.longS e x))

/-- The lowest `n` free tier-L frames for a guest, each taken; none if there are too few. -/
def State.takeLow (s : State) (c : Nat) : Nat → Option State
  | 0 => some s
  | n + 1 => match s.freeFrame c 2 with
    | none => none
    | some d => State.takeLow ((s.giveFrame 2 d (s.ctxAt c).guest).modCtx c (fun x =>
        { x with shadowFrames := x.shadowFrames ++ [d] })) c n

/-- sgrow (R426): the state and the word of sd. -/
def State.grow (s : State) (c n : Nat) : State × Nat :=
  let x := s.ctxAt c
  if 255 < c ∨ x.st = .empty ∨ x.st = .destroying ∨ n = 0 ∨ 65536 < x.shadowFrames.length + n then (s, poolWord 4 0)
  else match s.takeLow c n with
    | none => (s, poolWord 1 0)
    | some t =>
      if bitsOf x.quota.toNat 24 0 < t.charged c 2 then (s, poolWord 2 0)
      else (t.roomChanged, 504 * (x.shadowFrames.length + n))

/-- The highest of some numbers removed, `n` times. -/
def dropHighest : Nat → List Nat → List Nat
  | 0, xs => xs
  | n + 1, xs => dropHighest n (xs.erase (xs.foldl Nat.max 0))

/-- sgrow.trim (R426): how many of the frames that may go do go is a free value. -/
def State.trim (s : State) (c n : Nat) : State × Nat :=
  let x := s.ctxAt c
  if 255 < c ∨ x.st = .empty ∨ x.st = .destroying ∨ n = 0 ∨ 65536 < x.shadowFrames.length then (s, poolWord 4 0)
  else
    let most := Nat.min n (x.shadowFrames.length - (x.heldShadows + 503) / 504)
    let m := Config.trim s.tick % (most + 1)
    let keep := dropHighest m x.shadowFrames
    let gone := x.shadowFrames.filter (fun d => !keep.contains d)
    let t := gone.foldl (fun u d => u.takeFrame 2 d) s
    (t.modCtx c (fun y => { y with shadowFrames := keep }), 504 * keep.length)

/-- Issues sgrow or sgrow.trim (R420, R426): what it does to the pool of the named context. -/
def runPoolFrames (act : State → Nat → Nat → State × Nat) (f : FWord) (s : State) : Host.Outcome State Fault Refusal :=
  runWord sgrowSpec f s (fun e t =>
    t.atBoundary e (fun u => u.counterFull e 5) (fun u =>
      let c := t.uvalue e 10 f.fa
      let n := t.uvalue e 10 f.fb
      let (v, x) := act u c n
      (v.longS e x).issueOp e (some 5) .performed))

/-- sgrow (R426). -/
def execSgrow (f : FWord) (s : State) : Host.Outcome State Fault Refusal := runPoolFrames State.grow f s

/-- sgrow.trim (R426). -/
def execSgrowTrim (f : FWord) (s : State) : Host.Outcome State Fault Refusal := runPoolFrames State.trim f s

/-! ### Background work (R418, R424, R425) -/

/-- SHUTTER_RESTORE: the next line awaiting restore of a shutter is restored. -/
def State.restoreNext (s : State) (c i : Nat) : State :=
  match ((s.ctxAt c).shutterAt i).shadows.find? (fun x => x.level == 0) with
  | none => s
  | some x => (s.restoreLine (x.line * 128)).roomChanged

/-- SHUTTER_SCRUB: the next line of a CLOSING shutter loses a RETIRED tag; a line that awaits restore is restored first. -/
def State.scrubNext (s : State) (c i : Nat) : State :=
  match ((s.ctxAt c).shutterAt i).scrub with
  | [] => s
  | l :: ls =>
    let t := s.restoreLine (l * 128)
    let sh := (t.ctxAt c).shutterAt i
    let u := t.modMeta (l * 128) (fun m => if sh.retiredEpochs.contains m.epoch then { m with epoch := 0 } else m)
    ((u.setShutter c i { sh with scrub := ls }).settleShutter c i).roomChanged

/-- The writes that wait for a context's shadows, in order: those that have room are performed (R418); a later write to the
line of one that waits on waits behind it. -/
def State.proceedWaits (s : State) (c : Nat) : State :=
  let mine := s.shadowWaits.filter (fun x => x.ctx == c)
  let t : State := { s with shadowWaits := s.shadowWaits.filter (fun x => x.ctx != c) }
  mine.foldl (fun u x =>
    let stays : State := { u with shadowWaits := u.shadowWaits ++ [x] }
    if u.shadowWaits.any (fun y => y.ctx == c && y.pa / 128 == x.pa / 128) then stays
    else match u.tryWrite x.pa x.bytes with
      | some v => v.homeWrite x.pa
      | none => stays) t

/-- The package addresses for whose shadows engine operations and reduction rounds wait. -/
def State.starvedPlaces (s : State) : List Nat :=
  s.ops.filterMap (fun (_, o) => if o.done then none else o.starves) ++ s.rounds.filterMap (fun (_, r) => r.starves)

/-- A waiting write of a context would find room now. -/
def State.waitsHaveRoom (s : State) (c : Nat) : Bool :=
  s.shadowWaits.any (fun x => x.ctx == c && (s.tryWrite x.pa x.bytes).isSome) ||
  s.starvedPlaces.any (fun pa => (s.tryWrite pa [0]).isSome && (((Cells.find s.place (pa / 65536)).map (·.ctx)).getD 0) == c &&
    s.agenda.all (fun i => match i with
      | .copyTileWrite _ => false
      | .mtxOperation _ _ => false
      | .credRoundComplete _ _ => false
      | _ => true))

/-- SHUTTER_RESTORE (R424). -/
def execShutterRestore (ctx shutter : Nat) (s : State) : Host.Outcome State Fault Refusal := .next (s.restoreNext ctx shutter)

/-- SHUTTER_SCRUB (R425). -/
def execShutterScrub (ctx shutter : Nat) (s : State) : Host.Outcome State Fault Refusal := .next (s.scrubNext ctx shutter)

/-- SHADOW_WAIT_PROCEED (R418): the writes that waited, and the operations that retire with them, go on. -/
def execShadowWaitProceed (ctx : Nat) (s : State) : Host.Outcome State Fault Refusal := .next (s.proceedWaits ctx).wakeAll

/-- SHUTTER_UPDATE (R416): a cache takes a shutter's range and sets; with the last of them the level counts as open or closed. -/
def execShutterUpdate (agent ctx shutter : Nat) (s : State) : Host.Outcome State Fault Refusal :=
  .next (s.takeUpdate agent ctx shutter)

/-- The events that the shutters owe. -/
def State.shutterEvents (s : State) : List Instr :=
  s.ctxs.flatMap (fun (c, x) =>
    (x.shutters.flatMap (fun (i, sh) =>
      (if sh.shadows.any (fun y => y.level == 0) then [.shutterRestore c i] else []) ++
      (if sh.scrub.isEmpty then [] else [.shutterScrub c i]))) ++
    (if s.waitsHaveRoom c then [.shadowWaitProceed c] else []))

/-- A write would wait for shadows of a context. -/
def State.starvesFor (s : State) (c pa : Nat) (bs : List Byte) : Bool :=
  (s.tryWrite pa bs).isNone && (match s.shadowNeed pa with
    | some (a, _, _) => a == c
    | none => false)

/-- The parts of the writes that the host and other packages wait with (07_consistency.md R199, 20_link.md R434). -/
def State.outerWrites (s : State) : List (Nat × List Byte) :=
  (match s.hostIn with
    | .write pa bs _ :: _ => splitLines (bs.length + 1) pa bs
    | _ => []) ++
  s.fabricIn.flatMap (fun r => match r.op with
    | .store bytes => (byteRuns bytes).map (fun (o, bs) => (r.addr + o, bs))
    | .atomic _ _ ty _ _ _ => [(r.addr, toBytes (typeWidth ty / 8) 0)]
    | _ => [])

/-- A write that waits for the shadows of a context goes on waiting (R418). -/
def State.stillStarved (s : State) (c : Nat) : Bool :=
  s.shadowWaits.any (fun x => x.ctx == c) || s.outerWrites.any (fun (pa, bs) => s.starvesFor c pa bs) ||
  s.starvedPlaces.any (fun pa => (((Cells.find s.place (pa / 65536)).map (·.ctx)).getD 0) == c) ||
  s.ctxs.any (fun (d, x) => x.queues.any (fun (_, y) => y.entries.any (fun en => en.kind == 2 &&
    (let (k, pa) := s.entryWord d en true
     k == .ok && s.starvesFor c pa (toBytes 8 0)))))

/-- STARVED clears when no write of a context waits any longer, and a record of the device that waits sets it (R418). -/
def State.settleStarved (s0 : State) : State :=
  let s := s0.settlePublish
  let t : State := { s with ctxs := s.ctxs.map (fun (c, x) =>
    (c, if x.starved && !s.stillStarved c then { x with starved := false } else x)) }
  t.shadowWaits.foldl (fun u x => u.noteStarved x.pa) t

/-! ### Registers (R429) -/

/-- SHT_POOL. -/
def Context.shtPool (x : Context) : Nat := x.freeShadows * 2 ^ 32 + x.shadowFrames.length

/-- SHT_STAT. -/
def Context.shtStat (x : Context) : Nat :=
  let bits (st : ShutterState) : Nat := (List.range 16).foldl (fun n i => if (x.shutterAt i).st = st then n + 2 ^ i else n) 0
  b2n x.starved * 2 ^ 40 + (255 - x.epochs.length) * 2 ^ 32 + bits .closing * 2 ^ 16 + bits .opened

/-- A read of a shutter register. -/
def Context.shutterRead (x : Context) (num : Nat) : Nat :=
  match num with
  | 0xA000 => x.shtCfg.toNat
  | 0xA001 => x.shtPool
  | 0xA002 => x.shtStat
  | _ => 0

end Sys2Proof.Machine
end

