-- ==== Sys2Proof/Machine/Link.lean ====
section
/-! DEFINITION. Solon ports and node links (20_link.md R430 to R434), the ends of posted writes and of requests to other
packages (R434 to R436), fences toward an unreachable peer (R189, R442), sessions (R443, R444), linkq and the link registers
(R441, R444). -/

namespace Sys2Proof.Machine

open Sys2Proof

/-! ### The ends of writes and requests -/

/-- Lets one operation that waits try again. -/
def State.wakeOp (s : State) (id : Nat) : State :=
  match Cells.find s.ops id with
  | none => s
  | some o =>
    if !o.stuck then s
    else { s with ops := Cells.put s.ops id { o with stuck := false }, agenda := s.agenda ++ (o.event id).toList }

/-- A line of a put or get has been acknowledged, written or lost (R438). -/
def State.endPutLine (s : State) (op : Option Nat) (lost : Bool) : State :=
  match op with
  | none => s
  | some id => match Cells.find s.ops id with
    | none => s
    | some o => match o.kind with
      | .put j =>
        let t : State := { s with ops := Cells.put s.ops id { o with kind := .put { j with outstanding := j.outstanding - 1 } } }
        let u := if lost then t.modWave o.wave (fun w => { w with lostSteps := w.lostSteps + 1 }) else t
        (u.wakeOp id).wakeColls
      | _ => s

/-- A posted write is lost, withdrawn or refused (R434, R436): it is counted and recorded, once. -/
def State.losePosted (s : State) (node kind : Nat) (p : Posted) : State :=
  if p.withdrawn then s
  else
    let t := s.lostWrite p.ctx p.seq kind node p.addr
    (if p.op.isNone then t.noteLost p.wave p.lanes else t)

/-- The context of a wave or of the operation that a request serves. -/
def State.waitCtx (s : State) (x : FabricWait) : Nat :=
  match x.getLine with
  | none => (s.waveAt x.wave).ctx
  | some (id, _, _) => match Cells.find s.ops id with
    | none => 0
    | some o => match o.kind with
      | .put j => j.ctx
      | _ => 0

/-- A get line is lost (R438): kind 3, or 11 where the peer refused it. -/
def State.loseGetLine (s : State) (kind : Nat) (x : FabricWait) : State :=
  match x.getLine with
  | none => s
  | some (id, _, _) => (s.lostWrite (s.waitCtx x) 0 kind x.node x.addr).endPutLine (some id) true

/-- Hands a request that waited to the ports. -/
def State.emitWait (s : State) (id : Nat) (x : FabricWait) : State :=
  if x.emitted then s
  else
    let c := s.ctxAt (s.waitCtx x)
    let n := match x.getLine with
      | none => 8
      | some (_, _, n) => n
    let sync : Option (Nat × Nat) := if x.scope = 7 then none else some (x.scope, c.agentOf (s.waveAt x.wave).core)
    ({ s with fabricWaits := Cells.put s.fabricWaits id { x with emitted := true } } : State).transmit x.node
      (.fabricRequest x.node id c.tag x.addr (.load n) sync)

/-! ### Node links (R433, R434) -/

/-- The route ports of a node that are in a state. -/
def State.routesIn (s : State) (n : Nat) (st : PortState) : Nat :=
  ((Cells.get [] s.fabric n).filter (fun p => decide ((Cells.get {} s.ports p).st = st))).length

/-- A session goes to ERROR with a cause (R443): the writes of its context in flight to the node are lost. -/
def State.failSession (s : State) (slot cause : Nat) : State :=
  let x := Cells.get {} s.sessions slot
  let node := bitsOf x.reg.toNat 11 0
  let c := bitsOf x.reg.toNat 23 16
  let mine := (s.nodeAt node).unacked.filter (fun p => p.ctx == c && !p.withdrawn)
  let t : State := mine.foldl (fun u p => (u.losePosted node p.kind p).endPutLine p.op true) s
  let t1 := t.modNode node (fun l => { l with unacked := l.unacked.map (fun p =>
    if p.ctx = c then { p with withdrawn := true, op := none } else p) })
  { t1 with sessions := Cells.set {} t1.sessions slot { x with st := .error, cause := cause } }

/-- The sessions with a node that run: KEYING, OPEN or LOCKED. -/
def State.sessionsTo (s : State) (node : Nat) : List Nat :=
  (s.sessions.filter (fun (_, x) => decide (x.st ≠ .idle) && decide (x.st ≠ .error) &&
    bitsOf x.reg.toNat 11 0 == node)).map (·.1)

/-- What a request serves still waits for it. -/
def State.waitStands (s : State) (x : FabricWait) : Bool :=
  x.getLine.isSome || (Cells.find s.fills x.fill).isSome || (match (s.waveAt x.wave).signalWait with
    | none => false
    | some y => match y.obj with
      | .signal _ pa (some n) _ _ _ _ => pa == x.addr && n == x.node
      | _ => false)

/-- A request to a node will get no reply (R436): a get line is lost; an instruction that waits raises XLATE. -/
def State.cutWait (s : State) (id : Nat) : State :=
  match Cells.find s.fabricWaits id with
  | none => s
  | some x =>
    let t : State := { s with fabricWaits := Cells.del s.fabricWaits id }
    if !s.waitStands x then t
    else if x.getLine.isSome then t.loseGetLine 3 x
    else (t.recede x.wave x.pc).asyncFault x.wave x.pc ((AddrFault.xlate false).trap x.lane x.va x.write)

/-- A node link enters DOWN or FENCED (R433, R434): its unacknowledged writes are lost, its requests get no reply, its node is
lost to superstep groups (12_barrier.md R279), its sessions fail. -/
def State.cutNode (s : State) (n : Nat) (st : NodeState) : State :=
  let old := (s.nodeAt n).unacked
  let s1 := s.modNode n (fun l => { l with st := st, unacked := [], waiting := [] })
  let s2 : State := old.foldl (fun t p => (t.losePosted n p.kind p).endPutLine p.op true) s1
  let s3 : State := ((s2.fabricWaits.filter (fun (_, x) => x.node == n)).map (·.1)).foldl State.cutWait s2
  let s4 : State := { s3 with fabricIn := s3.fabricIn.filter (fun r => r.node != n) }
  ((s4.sessionsTo n).foldl (fun t i => t.failSession i 4) (s4.loseMember n)).wakeColls

/-- A node link enters TRAINING: the sequence numbers restart at 1 (R433). -/
def State.trainNode (s : State) (n : Nat) : State :=
  s.modNode n (fun l => { l with st := .training, sent := 0, acked := 0, received := 0, unacked := [], waiting := [] })

/-- A node link enters ACTIVE (R433, R434): the writes that waited are sent, a withdrawn one as a void write, and so is the
other traffic that waited. -/
def State.startNode (s : State) (n : Nat) : State :=
  let l := s.nodeAt n
  let s1 := s.modNode n (fun x =>
    { x with st := .active, waiting := [], unacked := x.unacked.map (fun p => { p with emitted := true }) })
  let s2 : State := l.unacked.foldl (fun t p =>
    if p.withdrawn then t.transmit n (.fabricAccess n p.seq (t.ctxAt p.ctx).tag p.addr .void none)
    else if p.emitted then t
    else t.transmit n (.fabricAccess n p.seq (t.ctxAt p.ctx).tag p.addr p.fop p.sync)) s1
  let s3 : State := l.waiting.foldl (fun t m => t.transmit n m) s2
  (s3.fabricWaits.filter (fun (_, x) => x.node == n)).foldl (fun t (id, x) => t.emitWait id x) s3

/-- A node link follows the ports of its route (R433). A link that enters DOWN with a route port ACTIVE trains at once. -/
def State.followRoute (s : State) (n : Nat) : State :=
  if n = s.node then s
  else
    let up : Bool := decide (0 < s.routesIn n .active)
    let re : Bool := decide (0 < s.routesIn n .retraining)
    match (s.nodeAt n).st with
    | .down => if up then s.trainNode n else s
    | .training => if up || re then s else s.cutNode n .down
    | .active => if up then s
        else if re then s.modNode n (fun l => { l with st := .retraining, retrains := (l.retrains + 1) % 65536 })
        else s.cutNode n .down
    | .retraining => if up then s.startNode n else if re then s else s.cutNode n .down
    | .fenced => s

/-- The node links whose route holds a port follow its new state. -/
def State.followPort (s : State) (p : Nat) : State :=
  (s.fabric.filter (fun (_, rs) => rs.contains p)).foldl (fun t (n, _) => t.followRoute n) s

/-- NODE_HANDSHAKE_DONE (R433). -/
def execNodeHandshakeDone (node : Nat) (s : State) : Host.Outcome State Fault Refusal :=
  .next (if (s.nodeAt node).st = .training then s.startNode node else s)

/-- NODE_TRAINING_TIMEOUT (R433). -/
def execNodeTrainingTimeout (node : Nat) (s : State) : Host.Outcome State Fault Refusal :=
  .next (if (s.nodeAt node).st = .training then (s.cutNode node .down).followRoute node else s)

/-- NODE_RETRAIN_TIMEOUT (R433). -/
def execNodeRetrainTimeout (node : Nat) (s : State) : Host.Outcome State Fault Refusal :=
  .next (if (s.nodeAt node).st = .retraining then (s.cutNode node .down).followRoute node else s)

/-- A command of LNK_CMD (R433): UNFENCE and DOWN act on a FENCED link, FENCE on one that is ACTIVE or RETRAINING; a command
that the present state does not list is ignored. -/
def State.nodeCommand (s : State) (n cmd : Nat) : State :=
  if n = s.node ∨ 4095 < n then s
  else match cmd, (s.nodeAt n).st with
    | 1, .fenced => (s.trainNode n).followRoute n
    | 2, .fenced => (s.cutNode n .down).followRoute n
    | 3, .active => s.cutNode n .fenced
    | 3, .retraining => s.cutNode n .fenced
    | _, _ => s

/-- A shootdown fences a node (13_page.md R289). -/
def State.fenceNode (s : State) (n : Nat) : State :=
  if n = s.node ∨ (s.nodeAt n).st = .fenced then s else s.cutNode n .fenced

/-- LNK_UNFENCE (R433). -/
def execLnkUnfence (node : Nat) (s : State) : Host.Outcome State Fault Refusal := .next (s.nodeCommand node 1)
/-- LNK_DOWN (R433). -/
def execLnkDown (node : Nat) (s : State) : Host.Outcome State Fault Refusal := .next (s.nodeCommand node 2)
/-- LNK_FENCE (R433). -/
def execLnkFence (node : Nat) (s : State) : Host.Outcome State Fault Refusal := .next (s.nodeCommand node 3)

/-! ### Ports (R430, R431) -/

/-- A port; one that nothing has touched is DOWN. -/
def State.portAt (s : State) (p : Nat) : Port := Cells.get {} s.ports p

/-- A port goes from one state to another (R431): its replay buffer stays while it retrains, and what the buffer holds goes out
again when it is ACTIVE; a port that is DOWN has none. -/
def State.portMove (s : State) (p : Nat) (old new : PortState) : State :=
  let x := s.portAt p
  if x.st ≠ old ∨ 63 < p then s
  else
    let kept := if new = .down then [] else x.replay
    let t : State := { s with ports := Cells.set {} s.ports p { st := new, replay := kept } }
    (if new = .active ∧ !kept.isEmpty then t.send (.replay p kept.length) else t).followPort p

/-- PORT_LOCK (R431). -/
def execPortLock (port : Nat) (s : State) : Host.Outcome State Fault Refusal := .next (s.portMove port .down .training)
/-- PORT_TRAINING_DONE (R431). -/
def execPortTrainingDone (port : Nat) (s : State) : Host.Outcome State Fault Refusal :=
  .next (s.portMove port .training .active)
/-- PORT_TRAINING_TIMEOUT (R431). -/
def execPortTrainingTimeout (port : Nat) (s : State) : Host.Outcome State Fault Refusal :=
  .next (s.portMove port .training .down)
/-- PORT_LOSS_OF_LOCK (R431): from ACTIVE. -/
def execPortLossOfLock (port : Nat) (s : State) : Host.Outcome State Fault Refusal :=
  .next (s.portMove port .active .down)
/-- PORT_RETRAIN_DONE (R431). -/
def execPortRetrainDone (port : Nat) (s : State) : Host.Outcome State Fault Refusal :=
  .next (s.portMove port .retraining .active)
/-- PORT_RETRAIN_TIMEOUT (R431). -/
def execPortRetrainTimeout (port : Nat) (s : State) : Host.Outcome State Fault Refusal :=
  .next (s.portMove port .retraining .down)

/-- A session whose integrity check a flit fails goes to ERROR (R443). -/
def State.damageSession (s : State) (slot : Nat) : State :=
  let st := (Cells.get {} s.sessions slot).st
  if st = .opened ∨ st = .locked then s.failSession slot 3 else s

/-- The far end of a port acknowledges the oldest flits of its replay buffer, and may ask for the rest again (R430). -/
def State.portAck (s : State) (p acked : Nat) (again : Bool) : State :=
  let x := s.portAt p
  let rest := x.replay.drop acked
  let t : State := { s with ports := Cells.set {} s.ports p { x with replay := rest } }
  if again then t.send (.replay p rest.length) else t

/-- FLIT_RECEIVE (R430, R431, R443): a flit whose CRC fails is requested again, and after 8 failed replays the port retrains;
one that passes its CRC acknowledges flits of the port and may ask for others again; where it fails the integrity check of the
session that protects it, it is discarded and the session fails. -/
def State.receiveFlit (s : State) (p : Nat) (crcOk intact : Bool) (slot acked : Nat) (again : Bool) : State :=
  let x := s.portAt p
  if x.st ≠ .active ∨ 63 < p then s
  else if !crcOk then
    if x.failed = 8 then s.portMove p .active .retraining
    else ({ s with ports := Cells.set {} s.ports p { x with failed := x.failed + 1 } } : State).send (.replayRequest p)
  else
    let t := ({ s with ports := Cells.set {} s.ports p { x with failed := 0 } } : State).portAck p acked again
    if intact then t else t.damageSession slot

/-- FLIT_RECEIVE (R430). -/
def execFlitReceive (port : Nat) (crcOk intact : Bool) (flit : FlitRest) (s : State) : Host.Outcome State Fault Refusal :=
  .next (s.receiveFlit port crcOk intact flit.slot flit.acked flit.again)

/-! ### Acknowledgements and replies (R434, R436) -/

/-- FABRIC_ACK (R434, R436). -/
def State.fabricAck (s : State) (node seq : Nat) (refused : List Nat) : State :=
  let l := s.nodeAt node
  let n := (seq + 2 ^ 32 - l.acked) % 2 ^ 32
  if !s.hears node ∨ n = 0 ∨ l.unacked.length < n then s
  else
    let t := s.modNode node (fun x => { x with acked := seq, unacked := x.unacked.drop n })
    ((l.unacked.take n).foldl (fun (u : State) p =>
      let no := refused.contains p.seq
      (if no then u.losePosted node (8 + p.kind) p else u).endPutLine p.op no) t).wakeColls

/-- FABRIC_ACK (R434). -/
def execFabricAck (node seq : Nat) (refused : List Nat) (s : State) : Host.Outcome State Fault Refusal :=
  .next (s.fabricAck node seq refused)

/-- The waiting lanes of the instruction that a request serves. -/
def State.waitLanes (s : State) (x : FabricWait) : Word :=
  let w := s.waveAt x.wave
  match w.hold, w.signalWait with
  | some (.reply _ lanes _ _), _ => lanes
  | _, some y => y.lanes
  | _, none => 0

/-- SCOPE_MISMATCH that a peer reports for an access that waits (07_consistency.md R184): precise, at the instruction. -/
def State.remoteMismatch (s : State) (x : FabricWait) (record : Nat) : State :=
  let lanes := s.waitLanes x
  let t := (s.cancelFill x.fill).modWave x.wave (fun w =>
    let u := w.dropSignals
    { (u.setPcs (laneList lanes) (fun _ => x.pc)) with hold := none })
  let (word, ext) := t.wordsAt x.wave x.pc
  t.takeTrap x.wave lanes x.pc x.pc word ext
    { code := 7, lane := x.lane, detail := x.scope, addr := x.va, aux := record, write := x.write, step := 5 }

/-- The values that a reply's bytes give the registers of a request. -/
def FabricWait.values (x : FabricWait) (bs : List Byte) : List (Nat × Word) × List (Nat × DWord) :=
  readValues x.vs x.ss x.ty (overlay x.heldBytes 0 bs)

/-- A reply brings the bytes of a request: a get line is written, a waitsig looks at its word, a load's registers fill. -/
def State.replyData (s : State) (x : FabricWait) (bs : List Byte) : State :=
  match x.getLine with
  | some (id, dst, _) => match Cells.find s.ops id with
    | none => s
    | some o => match o.kind with
      | .put j =>
        let t := (pagedPieces j.pages dst bs.length).foldl (fun (acc : State × List Byte) (pa, n) =>
          (acc.1.engineWrite pa (acc.2.take n), acc.2.drop n)) (s, bs)
        t.1.endPutLine (some id) false
      | _ => s
  | none =>
    if x.vs.isEmpty && x.ss.isNone then
      match (s.waveAt x.wave).signalWait with
      | none => s
      | some y => match y.obj with
        | .signal _ pa (some _) cond value scope _ =>
          if signalHolds cond (ofBytes bs) value then s.endSignal x.wave y pa false scope (ofBytes bs) else s.startPoll x.wave
        | _ => s
    else
      let (vs, ss) := x.values bs
      let t := if x.scope = 7 then s else s.acquire (s.waveAt x.wave).core x.scope
      if t.fabricWaits.any (fun (_, y) => y.fill == x.fill && y.getLine.isNone) then
        { t with fills := Cells.modify t.fills x.fill (fun z => { z with vs := z.vs ++ vs, ss := z.ss ++ ss }) }
      else t.endFill x.fill vs ss

/-- FABRIC_REPLY (R436). -/
def State.fabricReply (s : State) (id : Nat) (r : FabricReply) : State :=
  match Cells.find s.fabricWaits id with
  | none => s
  | some x =>
    if !s.hears x.node then s
    else
      let t : State := { s with fabricWaits := Cells.del s.fabricWaits id }
      if !s.waitStands x then t
      else match r with
      | .data bs => t.replyData x bs
      | .refused => if x.getLine.isSome then t.loseGetLine 11 x
          else (t.recede x.wave x.pc).asyncFault x.wave x.pc ((AddrFault.perm true).trap x.lane x.va x.write)
      | .mismatch m => if x.getLine.isSome then t.loseGetLine 11 x else t.remoteMismatch x m

/-- FABRIC_REPLY (R436). -/
def execFabricReply (request : Nat) (reply : FabricReply) (s : State) : Host.Outcome State Fault Refusal :=
  .next (s.fabricReply request reply)

/-- The Lintel marks the withdrawn writes in the replay buffers of the ports (R434). -/
def State.voidReplays (s : State) : State :=
  let mark (m : OutMsg) : OutMsg := match m with
    | .fabricAccess node seq tag addr _ _ =>
      if (s.nodeAt node).unacked.any (fun p => p.seq == seq && p.withdrawn) then .fabricAccess node seq tag addr .void none else m
    | x => x
  { s with ports := s.ports.map (fun (p, x) => (p, { x with replay := x.replay.map mark })) }

/-- FENCE_BOUND_EXPIRY (R189, R434): the fence's unacknowledged writes are lost and withdrawn, and the fence completes. -/
def State.fenceExpires (s : State) (k : Nat) : State :=
  match (s.waveAt k).hold with
  | some (.fence lanes _ _ _ _) =>
    let t : State := s.nodes.foldl (fun u (n, l) =>
      (l.unacked.filter (fun p => p.waitedBy k lanes)).foldl (fun v p => v.losePosted n p.kind p) u) s
    let u : State := { t with nodes := t.nodes.map (fun (n, l) => (n, { l with unacked := l.unacked.map (fun p =>
      if p.waitedBy k lanes then { p with withdrawn := true } else p) })) }
    (u.voidReplays.settleFence k).wakeColls
  | _ => s

/-- FENCE_BOUND_EXPIRY (R189). -/
def execFenceBoundExpiry (wave : Nat) (s : State) : Host.Outcome State Fault Refusal := .next (s.fenceExpires wave)

/-! ### Accesses from other packages (R434, R436) -/

/-- The peer package may act on a frame (R436): its placement entry's context names the source node in SHD_NODES, carries the
tag, and is not locked to another node (R444); and the line is backed and in no other guest's rows. -/
def State.admits (s : State) (node tag pa : Nat) : Bool :=
  match Cells.find s.place (pa / 65536) with
  | none => false
  | some e =>
    let x := s.ctxAt e.ctx
    let map := bitsOf x.shdNodes.toNat 51 9 * 512
    x.tag != 0 && x.tag == tag && bitOf (s.peekNat (map + node / 8) 1) (node % 8) && !s.guarded e.ctx ⟨pa, none, 0⟩ &&
    !s.sessions.any (fun (_, y) => decide (y.st = .locked) && bitsOf y.reg.toNat 23 16 == e.ctx &&
      bitsOf y.reg.toNat 11 0 != node)

/-- What comes of a fabric access: it waits, it is refused, its synchronisation fails, or it is performed and gives bytes. -/
inductive Served where
  | wait (s : State)
  | refused
  | mismatch (record : Nat)
  | done (s : State) (bytes : List Byte)

/-- Writes runs of bytes of one line for a peer, which ignores RESV (19_shutter.md R418); or the address whose shadows are
missing. -/
def State.peerStore (s : State) (pa : Nat) : List (Nat × List Byte) → Except Nat State
  | [] => .ok s
  | (o, bs) :: rest => match s.tryWrite (pa + o) bs with
    | none => .error (pa + o)
    | some t => State.peerStore (t.homeWrite (pa + o)) pa rest

/-- Serves a fabric access at its home (R436, 07_consistency.md R184). -/
def State.servePeer (s : State) (r : FabricReq) : Served :=
  match r.op with
  | .void => .done s []
  | _ =>
    if !s.admits r.node r.tag r.addr then .refused
    else if s.unowned r.addr then .wait (s.requestOwnership (r.addr / 65536))
    else
      let bad : Option Nat := match r.sync with
        | none => none
        | some (sc, agent) =>
          let m := s.lineMetaAt r.addr
          if m.syncOk sc (r.node, agent) then none else some m.record
      let synced (t : State) : State := match r.sync with
        | none => t
        | some (sc, agent) => t.syncUpdate r.addr sc (r.node, agent)
      match bad with
      | some m => .mismatch m
      | none => match r.op with
        | .load n =>
          let (bs, t) := s.engineRead r.addr n
          .done (synced t) bs
        | .store bytes => match s.peerStore r.addr (byteRuns bytes) with
          | .error pa => .wait (s.noteStarved pa)
          | .ok t => .done (synced t) []
        | .atomic op md ty a b _ =>
          let n := typeWidth ty / 8
          let t := s.restoreLine r.addr
          let old := t.peekNat r.addr n
          (match t.tryWrite r.addr (toBytes n (atomicNew op md ty old a b)) with
           | none => .wait (t.noteStarved r.addr)
           | some u => .done (synced (u.homeWrite r.addr)) (toBytes n old))
        | .void => .done s []

/-- The access wants a reply. -/
def wantsReply : FabricOp → Bool
  | .load _ => true
  | .atomic _ _ _ _ _ old => old
  | _ => false

/-- Tries an access that has arrived: none where it waits. A posted write waits for its predecessor, and a repeat of one that
has been performed is acknowledged again (R434). -/
def State.tryAccess (s : State) (r : FabricReq) : State × Bool :=
  if wantsReply r.op then
    match s.servePeer r with
    | .wait t => (t, false)
    | .refused => (s.sendTo r.node (.fabricReply r.node r.seq .refused), true)
    | .mismatch m => (s.sendTo r.node (.fabricReply r.node r.seq (.mismatch m)), true)
    | .done t bs => (t.sendTo r.node (.fabricReply r.node r.seq (.data bs)), true)
  else
    let ahead := (r.seq + 2 ^ 32 - (s.nodeAt r.node).received) % 2 ^ 32
    let took (t : State) (refused : List Nat) : State :=
      (t.modNode r.node (fun l => { l with received := r.seq })).sendTo r.node (.fabricAck r.node r.seq refused)
    if ahead = 0 ∨ 2 ^ 31 ≤ ahead then (s.sendTo r.node (.fabricAck r.node (s.nodeAt r.node).received []), true)
    else if ahead ≠ 1 then (s, false)
    else match s.servePeer r with
      | .wait t => (t, false)
      | .refused => (took s [r.seq], true)
      | .mismatch _ => (took s [r.seq], true)
      | .done t _ => (took t [], true)

/-- Looks at the accesses that wait once, in the order in which they arrived. -/
def State.tryAccesses (s : State) : List FabricReq → State
  | [] => s
  | r :: rs =>
    let (t, done) := s.tryAccess r
    State.tryAccesses (if done then t else { t with fabricIn := t.fabricIn ++ [r] }) rs

/-- The accesses that wait are looked at again. -/
def State.settleFabric (s : State) : State :=
  if s.fabricIn.isEmpty then s else State.tryAccesses { s with fabricIn := [] } s.fabricIn

/-- FABRIC_ACCESS (R434, R436): accesses are taken while traffic with the node flows (R433). -/
def execFabricAccess (req : FabricReq) (s : State) : Host.Outcome State Fault Refusal :=
  .next (if s.hears req.node then State.settleFabric { s with fabricIn := s.fabricIn ++ [req] } else s)

/-! ### Sessions (R443, R444) -/

/-- A session slot. -/
def State.sessionAt (s : State) (i : Nat) : Session := Cells.get {} s.sessions i

/-- Replaces a session slot. -/
def State.setSession (s : State) (i : Nat) (x : Session) : State := { s with sessions := Cells.set {} s.sessions i x }

/-- OPEN (R443): the exchange begins; a slot that names this package's own node or an EMPTY context is badly configured, and a
node link that is DOWN or FENCED is lost. -/
def State.openSession (s : State) (i : Nat) : State :=
  let x := s.sessionAt i
  let node := bitsOf x.reg.toNat 11 0
  if x.st ≠ .idle then s
  else if node = s.node ∨ (s.ctxAt (bitsOf x.reg.toNat 23 16)).st = .empty then
    s.setSession i { x with st := .error, cause := 5 }
  else if (s.nodeAt node).st = .down ∨ (s.nodeAt node).st = .fenced then s.setSession i { x with st := .error, cause := 4 }
  else (s.setSession i { x with st := .keying, cause := 0 }).send (.keyExchange i)

/-- A command of LNK_SCMD (R443). CLOSE of a session that runs sends END_SESSION, KEYUPD sends KEY_UPDATE. -/
def State.sessionCommand (s : State) (i cmd : Nat) : State :=
  let x := s.sessionAt i
  match cmd, x.st with
  | 1, _ => s.openSession i
  | 2, .opened => s.setSession i { x with st := .locked }
  | 3, .locked => s.setSession i { x with st := .opened }
  | 4, .opened => (s.setSession i { reg := x.reg }).send (.endSession i)
  | 4, .locked => (s.setSession i { reg := x.reg }).send (.endSession i)
  | 4, .error => s.setSession i { reg := x.reg }
  | 5, .opened => (s.setSession i { x with keys := x.keys + 1 }).send (.keyUpdate i)
  | 5, .locked => (s.setSession i { x with keys := x.keys + 1 }).send (.keyUpdate i)
  | _, _ => s

/-- SESSION_OPEN (R443). -/
def execSessionOpen (slot : Nat) (s : State) : Host.Outcome State Fault Refusal := .next (s.sessionCommand slot 1)
/-- SESSION_LOCK (R444). -/
def execSessionLock (slot : Nat) (s : State) : Host.Outcome State Fault Refusal := .next (s.sessionCommand slot 2)
/-- SESSION_UNLOCK (R443). -/
def execSessionUnlock (slot : Nat) (s : State) : Host.Outcome State Fault Refusal := .next (s.sessionCommand slot 3)
/-- SESSION_CLOSE (R443). -/
def execSessionClose (slot : Nat) (s : State) : Host.Outcome State Fault Refusal := .next (s.sessionCommand slot 4)
/-- KEYUPD (R443). -/
def execKeyupd (slot : Nat) (s : State) : Host.Outcome State Fault Refusal := .next (s.sessionCommand slot 5)

/-- A message of the peer in a session that runs (R443): KEY_UPDATE changes the keys, and KEY_UPDATE, HEARTBEAT and END_SESSION
are answered. None of them is an event that R443 lists for OPEN or LOCKED, so the state stays (00_scope.md R10). -/
def State.spdmRunning (s : State) (i : Nat) (m : SpdmMsg) : State :=
  match m with
  | .keyUpdate => (s.setSession i { s.sessionAt i with keys := (s.sessionAt i).keys + 1 }).send (.spdmAnswer i)
  | .heartbeat => s.send (.spdmAnswer i)
  | .endSession => s.send (.spdmAnswer i)
  | _ => s

/-- SPDM_MESSAGE (R443): a verified FINISH opens a session in KEYING, a failure ends it. Slot 64 stands for the responder on the
PCIe port, which answers each message and holds no state that the spec gives (22_platform.md R454, log 74). -/
def State.spdm (s : State) (i : Nat) (m : SpdmMsg) : State :=
  let x := s.sessionAt i
  if i = 64 then s.send (if s.power = .running then .doeAnswer m else .hostRefused)
  else match x.st with
  | .opened => s.spdmRunning i m
  | .locked => s.spdmRunning i m
  | .keying => (match m with
    | .progress => s.send (.keyExchange i)
    | .finishVerified => s.setSession i { x with st := .opened, keys := x.keys + 1 }
    | .peerRefused => s.failSession i 1
    | .badSignature => s.failSession i 2
    | .endSession => s.failSession i 1
    | _ => s)
  | _ => s

/-- SPDM_MESSAGE (R443). -/
def execSpdmMessage (slot : Nat) (msg : SpdmMsg) (s : State) : Host.Outcome State Fault Refusal := .next (s.spdm slot msg)

/-! ### linkq and the registers (R441, R444) -/

/-- The code of a node link's state. -/
def NodeState.code : NodeState → Nat
  | .down => 0
  | .training => 1
  | .active => 2
  | .retraining => 3
  | .fenced => 4

/-- The code of a session's state. -/
def SessionState.code : SessionState → Nat
  | .idle => 0
  | .keying => 1
  | .opened => 2
  | .locked => 3
  | .error => 4

/-- LNK_NODE for a node (R444). -/
def State.nodeWord (s : State) (n : Nat) : Nat :=
  s.routesIn n .active * 2 ^ 32 + (s.nodeAt n).retrains * 65536 + (s.nodeAt n).st.code

/-- LNK_PORTS (R444). -/
def State.portsWord (s : State) : Nat :=
  (List.range 64).foldl (fun n p => if (s.portAt p).st = .active then n + 2 ^ p else n) 0

/-- A read of a link register (R444); a selected node that is this package's own reads as 0. -/
def State.linkRead (s : State) (c num : Nat) : Nat :=
  let x := s.ctxAt c
  let n := s.lnkNsel.toNat
  match num % 256 with
  | 0x00 => s.node
  | 0x01 => s.portsWord
  | 0x02 => n
  | 0x03 => if n = s.node then 0 else s.nodeWord n
  | 0x05 => x.lnkCfg.toNat
  | 0x06 => x.lostq.toNat
  | 0x07 => x.lostCons * 2 ^ 32 + x.lostProd
  | 0x08 => x.lostCount
  | 0x10 => s.lnkSsel.toNat
  | 0x11 => (s.sessionAt s.lnkSsel.toNat).reg.toNat
  | 0x13 => (s.sessionAt s.lnkSsel.toNat).cause * 256 + (s.sessionAt s.lnkSsel.toNat).st.code
  | _ => 0

/-- A write of a link register (R444). -/
def State.linkWrite (s : State) (c num : Nat) (v : DWord) : State :=
  let n := v.toNat
  match num % 256 with
  | 0x02 => { s with lnkNsel := BitVec.ofNat 64 (n % 4096) }
  | 0x04 => s.nodeCommand s.lnkNsel.toNat (n % 256)
  | 0x05 => if (s.ctxAt c).st = .destroying then s else s.modCtx c (fun x => { x with lnkCfg := BitVec.ofNat 64 (n % 2) })
  | 0x06 => if (s.ctxAt c).st = .empty ∨ (s.ctxAt c).st = .bound then
        s.modCtx c (fun x => { x with lostq := BitVec.ofNat 64 (bitsOf n 51 12 * 4096 + n % 16) }) else s
  | 0x07 => if (s.ctxAt c).st = .destroying then s else s.modCtx c (fun x => { x with lostCons := n / 2 ^ 32 % 2 ^ 32 })
  | 0x10 => { s with lnkSsel := BitVec.ofNat 64 (n % 64) }
  | 0x11 =>
    let i := s.lnkSsel.toNat
    if (s.sessionAt i).st = .idle then
      s.setSession i { s.sessionAt i with
        reg := BitVec.ofNat 64 (bitsOf n 63 32 * 2 ^ 32 + bitsOf n 23 16 * 65536 + n % 4096) } else s
  | 0x12 => s.sessionCommand s.lnkSsel.toNat (n % 256)
  | _ => s

/-- The encoding rules of linkq (R441). -/
def linkqSpec (f : FWord) : OpSpec :=
  { fd := .dest (Gen.sOnly 11), fa := .source (Gen.sIntLit 10 1), fc := .quals, qBits := 3, reserved := f.q % 4 == 3 }

/-- linkq (R441). -/
def execLinkq (f : FWord) (s : State) : Host.Outcome State Fault Refusal :=
  let what := f.q % 4
  runWord (linkqSpec f) f s (fun e t =>
    t.atBoundary e (fun _ => .ok) (fun u =>
      let n := u.uvalue e 10 f.fa
      let v := if 4095 < n ∨ n = u.node then statusWord 4
        else match what with
          | 0 => u.nodeWord n
          | 1 => (u.nodeAt n).sent
          | _ => (u.nodeAt n).acked
      u.longS e v))

end Sys2Proof.Machine
end

