-- ==== Sys2Proof/Machine/Remote.lean ====
section
/-! DEFINITION. put, get and coll (20_link.md R437 to R440): engine operations that move bytes to and from other packages, line
by line, and the collective rounds of a superstep group. -/

namespace Sys2Proof.Machine

open Sys2Proof

/-! ### Pages of a put or get (R438) -/

/-- The checks of one page, in order: translation, permission, REMOTE on the side that must be local, a link that is DOWN or
FENCED, and ownership. -/
def State.linePageCheck (s : State) (k : Nat) (need : Need) (va : Nat) : Check :=
  let (c, core) := s.seat k
  match s.resolve c core va 1 need with
  | .error f => .ofTrap (f.trap 0 va need.write)
  | .ok p => match s.linkOf p with
    | some .down => .trap ((AddrFault.xlate false).trap 0 va need.write)
    | some .fenced => .trap ((AddrFault.xlate false).trap 0 va need.write)
    | some _ => .ok
    | none => if s.unowned p.pa then .wait .ownership [{ frame := p.pa / 65536, addr := va, write := need.write }] else .ok

/-- The checks of several pages, in order. -/
def State.linePagesCheck (s : State) (k : Nat) (need : Need) (vas : List Nat) : Check :=
  vas.foldl (fun r va => r.both fun _ => s.linePageCheck k need va) .ok

/-- The frames behind pages: of this package, and of others with their nodes. -/
def State.lineFrames (s : State) (k : Nat) (need : Need) (vas : List Nat) : Cells Nat × Cells (Nat × Nat) :=
  let (c, core) := s.seat k
  vas.foldl (fun m va => match s.resolve c core va 1 need with
    | .error _ => m
    | .ok p => match p.remote with
      | none => (Cells.put m.1 (va / 65536) (p.pa / 65536), m.2)
      | some n => (m.1, Cells.put m.2 (va / 65536) (n, p.pa / 65536))) ([], [])

/-- The lines of a put or get on its remote side: address and length. -/
def PutJob.lines (j : PutJob) : List (Nat × Nat) :=
  vPieces (j.bytes / 128 + 2) (if j.isGet then j.src else j.dst).toNat j.bytes

/-- The address on the other side of a line that begins at an address. -/
def PutJob.other (j : PutJob) (a : Nat) : Nat :=
  if j.isGet then (j.dst.toNat + (a + 2 ^ 64 - j.src.toNat)) % 2 ^ 64
  else (j.src.toNat + (a + 2 ^ 64 - j.dst.toNat)) % 2 ^ 64

/-- A deferred write of a put or get still waits for shadows (19_shutter.md R418). -/
def State.putDeferred (s : State) (j : PutJob) : Bool :=
  s.shadowWaits.any (fun w => j.pages.any (fun (_, f) => f == w.pa / 65536))

/-- Sends or requests one line, or moves it within the package; the operation goes on or waits. -/
def State.putLine (s : State) (id : Nat) (o : EngineOp) (j : PutJob) (a n : Nat) : State :=
  let b := j.other a
  let near := pagedPieces j.pages b n
  let going (t : State) (out : Nat) : State :=
    ({ t with ops := Cells.put t.ops id { o with kind := .put { j with next := j.next + 1, outstanding := j.outstanding + out } } } : State).post
      (.engineOpRetire id)
  match s.missingFrame near with
  | some f => (s.requestOwnership f).stickOp id
  | none => match Cells.find j.remotePages (a / 65536) with
    | none =>
      let far := pagedPieces j.pages a n
      let src := if j.isGet then far else near
      let dst := if j.isGet then near else far
      (match s.missingFrame far with
       | some f => (s.requestOwnership f).stickOp id
       | none =>
         let t := src.foldl (fun (u : State) p => (u.engineRead p.1 p.2).2) s
         match t.pagedStore dst (t.pagedBytes src) with
         | .error pa => t.starveOp id pa
         | .ok u => going u 0)
    | some (node, fr) =>
      let pa := fr * 65536 + a % 65536
      if j.isGet then
        let (w, s1) := s.fresh
        let x : FabricWait := { node := node, addr := pa, wave := goneWave, fill := w, lane := 0, pc := 0, vs := [], ss := none,
                                ty := 4, scope := 7, getLine := some (id, b, n), emitted := false }
        let st := (s.nodeAt node).st
        if st = .down ∨ st = .fenced then going (s1.loseGetLine 3 x) 0
        else if s.sessionRefused j.ctx node then going (s1.loseGetLine 11 x) 0
        else
          let s2 : State := { s1 with fabricWaits := Cells.put s1.fabricWaits w x }
          going (if st = .active then s2.emitWait w x else s2) 1
      else
        let t := near.foldl (fun (u : State) p => (u.engineRead p.1 p.2).2) s
        let (u, lost) := t.postWrite node j.ctx goneWave 2 pa (.store ((t.pagedBytes near).zipIdx.map (fun (x, i) => (i, x)))) none
          (some id)
        if lost then going (u.modWave o.wave (fun w => { w with lostSteps := w.lostSteps + 1 })) 0 else going u 1

/-- A put or get goes on (R438): its next line, or, with every line ended, its retirement. -/
def State.stepPut (s : State) (id : Nat) (o : EngineOp) (j : PutJob) : State :=
  match j.lines[j.next]? with
  | some (a, n) => s.putLine id o j a n
  | none => if j.outstanding = 0 ∧ !s.putDeferred j then (s.endOp id).wakeColls else s.stickOp id

/-- The encoding rules of put and get (R437), and what their sides must admit. -/
def putSpec : OpSpec :=
  { fd := .source (Gen.sIntLit 10 1), fa := .source (Gen.sLit 11 0), fb := .source (Gen.sOnly 11), fc := .quals }
def srcNeed (isGet : Bool) : Need := { read := true, here := !isGet }
def dstNeed (isGet : Bool) : Need := { write := true, here := isGet }

/-- The checks of a put or get (R438). -/
def State.putCheck (s : State) (e : Env) (isGet : Bool) (dst src n : Nat) : Check :=
  (s.counterFull e 3).both fun _ =>
  (Check.trapIf (decide (dst % 16 ≠ 0)) (misalign dst false true)).both fun _ =>
  (Check.trapIf (decide (src % 16 ≠ 0)) (misalign src false false)).both fun _ =>
  (Check.trapIf (n == 0 || decide (2 ^ 24 < n) || decide (n % 16 ≠ 0)) (misalign n false false)).both fun _ =>
  (s.linePagesCheck e.key (srcNeed isGet) (spanPages src n)).both fun _ =>
  s.linePagesCheck e.key (dstNeed isGet) (spanPages dst n)

/-- The operation of a put or get, with the translations of its checks. -/
def State.putJob (s : State) (k : Nat) (isGet : Bool) (dst src n : Nat) : PutJob :=
  let a := s.lineFrames k (srcNeed isGet) (spanPages src n)
  let b := s.lineFrames k (dstNeed isGet) (spanPages dst n)
  { isGet := isGet, ctx := (s.waveAt k).ctx, dst := BitVec.ofNat 64 dst, src := BitVec.ofNat 64 src, bytes := n
    pages := merge a.1 b.1, remotePages := merge a.2 b.2 }

/-- put and get (R437, R438). -/
def runPut (f : FWord) (s : State) (isGet : Bool) : Host.Outcome State Fault Refusal :=
  runWord putSpec f s (fun e t =>
    let n := t.uvalue e 10 f.fd
    let dst := t.uvalue e 11 f.fa
    let src := t.uvalue e 11 f.fb
    t.atBoundary e (fun u => u.putCheck e isGet dst src n) (fun u =>
      ((u.touchPages e.key (spanPages src n)).touchPages e.key (spanPages dst n)).issueOp e (some 3)
        (.put (u.putJob e.key isGet dst src n))))

/-- put (R438). -/
def execPut (f : FWord) (s : State) : Host.Outcome State Fault Refusal := runPut f s false
/-- get (R438). -/
def execGet (f : FWord) (s : State) : Host.Outcome State Fault Refusal := runPut f s true

/-! ### Collectives (R439, R440) -/

/-- KIND, OPR, TY, GROUP and N of a descriptor. -/
def collKind (d : Nat) : Nat := bitsOf d 63 62
def collOpr (d : Nat) : Nat := bitsOf d 61 60
def collTy (d : Nat) : Nat := bitsOf d 59 58
def collGroup (d : Nat) : Nat := bitsOf d 57 54
def collCount (d : Nat) : Nat := bitsOf d 53 29 + 1

/-- Bytes of an element. -/
def collSize (d : Nat) : Nat := if collTy d = 1 then 2 else 4

/-- The elements of send and of recv, with M members. -/
def collSend (d m : Nat) : Nat := if collKind d = 2 then m * collCount d else collCount d
def collRecv (d m : Nat) : Nat := if collKind d = 1 then m * collCount d else collCount d

/-- An element of bf16 widened to f32. -/
def collWiden (d x : Nat) : Nat := if collTy d = 1 then x * 65536 else x

/-- step of R440. -/
def collStep (d acc x : Nat) : Nat :=
  if collTy d ≤ 1 then match collOpr d with
    | 0 => fAdd fmtF32 false .rne acc x
    | 1 => fMinMax fmtF32 false true false acc x
    | _ => fMinMax fmtF32 false false false acc x
  else
    let less (a b : Nat) : Bool := if collTy d = 2 then decide (signedOf 32 a < signedOf 32 b) else decide (a < b)
    match collOpr d with
    | 0 => (acc + x) % 2 ^ 32
    | 1 => if less acc x then x else acc
    | _ => if less x acc then x else acc

/-- The reduction of one element over the members, in rank order. -/
def collReduce (d : Nat) (xs : List Nat) : Nat :=
  match xs.map (collWiden d) with
  | [] => 0
  | x :: rest =>
    let acc := rest.foldl (collStep d) x
    if collTy d = 1 then convert fmtBf16 (fmtF32.decode acc) .rne false else acc

/-- What a member receives: `sends` in rank order, its own rank. -/
def collResult (d : Nat) (sends : List (List Nat)) (rank : Nat) : List Nat :=
  let n := collCount d
  let column (i : Nat) : List Nat := sends.map (fun xs => xs.getD i 0)
  match collKind d with
  | 1 => sends.flatMap (fun xs => xs.take n)
  | 2 => (List.range n).map (fun i => collReduce d (column (rank * n + i)))
  | _ => (List.range n).map (fun i => collReduce d (column i))

/-- Elements of a size in bytes. -/
def collElements (size : Nat) : Nat → List Byte → List Nat
  | 0, _ => []
  | n + 1, bs => ofBytes (bs.take size) :: collElements size n (bs.drop size)

/-- The messages of a round of a group, its own contribution among them. -/
def StepGroup.roundMsgs (y : StepGroup) (round : Nat) : List CollMsg := y.msgs.filter (fun m => m.round == round)

/-- A member has sent a message of a later round, so it needs none of this one again. -/
def StepGroup.past (y : StepGroup) (node round : Nat) : Bool := y.msgs.any (fun m => m.node == node && decide (round < m.round))

/-- Forgets messages of ended rounds: those of other members, and its own once every member has gone on. -/
def StepGroup.trim (y : StepGroup) (self round : Nat) : StepGroup :=
  { y with msgs := y.msgs.filter (fun m => m.round != round || (m.node == self && !y.members.all (fun n => n == self || y.past n round))) }

/-- A round ends with a status: sd, the retirement, and the messages of others are dropped. -/
def State.endColl (s : State) (id : Nat) (j : CollJob) (status : Nat) : State :=
  let t : State := s.modGroup j.ctx j.group (fun y => y.trim s.node j.round)
  let u := match Cells.find t.fills j.fill with
    | none => t
    | some x => t.endFill j.fill [] (x.sKeys.map (fun k => (k, BitVec.ofNat 64 (statusWord status))))
  u.endOp id

/-- Sends this package's elements to the members, once. -/
def State.sendRound (s : State) (j : CollJob) (y : StepGroup) : State :=
  let d := j.desc.toNat
  let pieces := pagedPieces j.pages j.send.toNat (collSize d * collSend d y.members.length)
  let t := pieces.foldl (fun (u : State) p => (u.engineRead p.1 p.2).2) s
  let msg : CollMsg := { node := s.node, tag := y.tag, round := j.round, desc := j.desc,
                         send := collElements (collSize d) (collSend d y.members.length) (t.pagedBytes pieces) }
  let u := y.members.foldl (fun (v : State) m => if m = s.node then v else v.sendTo m (.collective m msg)) t
  u.modGroup j.ctx j.group (fun z => { z with msgs := z.msgs ++ [msg] })

/-- What precedes a coll in its wave has been acknowledged: its posted writes and its puts (R440: every access before it
precedes what follows the round's retirement). -/
def State.collFree (s : State) (id : Nat) (o : EngineOp) (j : CollJob) : Bool :=
  j.writes.all (fun (n, q) => !(s.nodeAt n).unacked.any (fun p => p.seq == q && !p.withdrawn)) &&
  !s.ops.any (fun (i, p) => p.wave == o.wave && decide (i < id) && !p.done && (match p.kind with
    | .put _ => true
    | _ => false))

/-- A coll goes on (R440): its elements go out, and once those of every member are there the result is written. -/
def State.stepColl (s : State) (id : Nat) (o : EngineOp) (j : CollJob) : State :=
  let y := (s.ctxAt j.ctx).groupAt j.group
  let d := j.desc.toNat
  let m := y.members.length
  if y.st = .off then s.endColl id j 1
  else if y.st = .broken then s.endColl id j (1 + y.cause)
  else if j.timedOut then s.endColl id j 3
  else if !s.collFree id o j then s.stickOp id
  else
    let out := pagedPieces j.pages j.send.toNat (collSize d * collSend d m)
    let into := pagedPieces j.pages j.recv.toNat (collSize d * collRecv d m)
    match s.missingFrame (out ++ into) with
    | some f => (s.requestOwnership f).stickOp id
    | none =>
      let t := if (y.roundMsgs j.round).any (fun x => x.node == s.node) then s else s.sendRound j y
      let msgs := ((t.ctxAt j.ctx).groupAt j.group).roundMsgs j.round
      let found := y.members.filterMap (fun n => msgs.find? (fun x => x.node == n))
      if found.length < m then t.stickOp id
      else if found.any (fun x => x.desc != j.desc) then t.endColl id j 4
      else
        let rank := (y.members.filter (fun n => decide (n < t.node))).length
        let bytes := (collResult d (found.map (·.send)) rank).flatMap (toBytes (collSize d))
        match t.pagedStore into bytes with
        | .error pa => t.starveOp id pa
        | .ok u => u.endColl id j 0

/-- The encoding rules of coll (R439). -/
def collSpec (f : FWord) : OpSpec :=
  let d := (f.ext.getD 0).toNat
  { fd := .dest (Gen.sOnly 11), fa := .source (Gen.sOnly 11), fb := .source (Gen.sOnly 11), fc := .quals, desc := true
    reserved := f.ext.isSome && (collKind d == 3 || collOpr d == 3 || (collKind d == 1 && collOpr d != 0) ||
      decide (d % 2 ^ 29 ≠ 0)) }

/-- The pages of the bytes that a coll on a group of `m` members sends and receives. -/
def collSrcs (d m send : Nat) : List Nat := spanPages send (collSize d * collSend d m)
def collDsts (d m recv : Nat) : List Nat := spanPages recv (collSize d * collRecv d m)

/-- The checks of a coll (R439). -/
def State.collCheck (s : State) (e : Env) (d m recv send : Nat) : Check :=
  (s.counterFull e 3).both fun _ =>
  (Check.trapIf (decide (recv % 16 ≠ 0)) (misalign recv false true)).both fun _ =>
  (Check.trapIf (decide (send % 16 ≠ 0)) (misalign send false false)).both fun _ =>
  (s.linePagesCheck e.key { read := true, here := true } (collSrcs d m send)).both fun _ =>
  s.linePagesCheck e.key { write := true, here := true } (collDsts d m recv)

/-- coll (R439). -/
def execColl (f : FWord) (s : State) : Host.Outcome State Fault Refusal :=
  let d := (f.ext.getD 0).toNat
  runWord (collSpec f) f s (fun e t =>
    let recv := t.uvalue e 11 f.fa
    let send := t.uvalue e 11 f.fb
    let c := (t.waveAt e.key).ctx
    let y := (t.ctxAt c).groupAt (collGroup d)
    let srcs := collSrcs d y.members.length send
    let dsts := collDsts d y.members.length recv
    t.atBoundary e (fun u => u.collCheck e d y.members.length recv send)
      (fun u =>
        let (fill, v) := ((u.touchPages e.key srcs).touchPages e.key dsts).startFill e.key (u.destKeys e 1 f.fd e.act)
        let job : CollJob := { fill := fill, ctx := c, group := collGroup d, round := y.rounds, recv := BitVec.ofNat 64 recv
                               send := BitVec.ofNat 64 send, desc := f.ext.getD 0
                               pages := merge (u.lineFrames e.key { read := true } srcs).1
                                 (u.lineFrames e.key { write := true } dsts).1
                               writes := u.nodes.flatMap (fun (n, l) =>
                                 (l.unacked.filter (fun p => p.wave == e.key && !p.withdrawn)).map (fun p => (n, p.seq))) }
        (v.issueOp e (some 3) (.coll job)).modGroup c (collGroup d) (fun z =>
          if z.st = .armed then { z with rounds := z.rounds + 1 } else z)))

/-- A round of a group has ended on this package. -/
def State.roundOver (s : State) (c g round : Nat) : Bool :=
  decide (round < ((s.ctxAt c).groupAt g).rounds) && !s.ops.any (fun (_, o) => match o.kind with
    | .coll j => j.ctx == c && j.group == g && j.round == round && !o.done
    | _ => false)

/-- A message of a member reaches a group: it is kept for its round, once; one of a round that has ended is dropped. For a
party that is SAVED it is deferred (R440): the member is told, and sends it again after the restore. -/
def State.enterMessage (s : State) (m : CollMsg) (c g : Nat) : State :=
  let x := s.ctxAt c
  if x.st = .saved then
    (s.modCtx c (fun z => { z with collDeferred := z.collDeferred ++ [(m.node, m.tag, m.round)] })).sendTo m.node
      (.collDefer m.node m.tag m.round)
  else if s.roundOver c g m.round || ((x.groupAt g).roundMsgs m.round).any (fun z => z.node == m.node) then s
  else s.modGroup c g (fun y => { y with msgs := y.msgs ++ [m] })

/-- A restored member asks for this package's message of a round again. -/
def State.repeatMessage (s : State) (m : CollMsg) (c g : Nat) : State :=
  match (((s.ctxAt c).groupAt g).roundMsgs m.round).find? (fun z => z.node == s.node) with
  | none => s
  | some z => s.sendTo m.node (.collective m.node z)

/-- COLL_MESSAGE (R440): it reaches the ARMED groups of its TAG; where there is none it is kept until one is armed. -/
def State.collMessage (s : State) (m : CollMsg) : State :=
  let groups := s.taggedGroups m.tag
  if !s.hears m.node then s
  else if m.again then groups.foldl (fun t (c, g) => t.repeatMessage m c g) s
  else if groups.isEmpty then
    if s.collMsgs.any (fun x => x.node == m.node && x.tag == m.tag && x.round == m.round) then s
    else { s with collMsgs := s.collMsgs ++ [m] }
  else (groups.foldl (fun t (c, g) => t.enterMessage m c g) s).wakeColls

/-- COLL_MESSAGE (R440). -/
def execCollMessage (msg : CollMsg) (s : State) : Host.Outcome State Fault Refusal := .next (s.collMessage msg)

/-- The oldest round of a group that has not ended, among some operations. -/
def oldestColl (ops : List (Nat × EngineOp)) (c g : Nat) : Option (Nat × EngineOp × CollJob) :=
  ops.findSome? (fun (id, o) => match o.kind with
    | .coll j => if j.ctx = c ∧ j.group = g ∧ !o.done then some (id, o, j) else none
    | _ => none)

/-- The time of a round has run out while its context is SAVED (R440: "TMO keeps counting meanwhile"). -/
def Context.timeOutColl (x : Context) (c g : Nat) : Context :=
  { x with image := x.image.map (fun im => match oldestColl im.ops c g with
      | none => im
      | some (id, o, j) => { im with ops := Cells.put im.ops id { o with kind := .coll { j with timedOut := true } } }) }

/-- COLL_TIMEOUT (R440): status 3, where SS_CFG.TMO sets a time. -/
def execCollTimeout (ctx group : Nat) (s : State) : Host.Outcome State Fault Refusal :=
  .next (if ((s.ctxAt ctx).groupAt group).tmo = 0 then s
    else match oldestColl s.ops ctx group with
      | some (id, _, j) => s.endColl id j 3
      | none => s.modCtx ctx (fun x => x.timeOutColl ctx group))

end Sys2Proof.Machine
end

