-- ==== Sys2Proof/Machine/Shootdown.lean ====
section
/-! DEFINITION. Shootdowns: tlbinv (08_context.md R221), what every core, cluster and die does for one (13_page.md R288), and
the tree by which it reaches the peer packages (R289). -/

namespace Sys2Proof.Machine

open Sys2Proof

/-! ### On this package (R288) -/

/-- A context is meant by a shootdown that this package runs for a local requester. -/
def shootsLocal (kind : ShootKind) (target c : Nat) : Bool :=
  match kind with
  | .all => true
  | _ => c == target

/-- A removed translation held an address of a context: it lies outside the heap window, and in the page for a shootdown of one
page. -/
def State.pageShot (s : State) (c : Nat) (kind : ShootKind) (va : Nat) (pages : List (Nat × Nat)) (x : Nat) : Bool :=
  let (lo, hi, _) := (s.ctxAt c).window
  !(decide (lo ≤ x) && decide (x < hi)) && (match kind with
    | .page => decide (x / 65536 = va / 65536) || pages.any (fun (b, n) => x / 2 ^ n == b / 2 ^ n)
    | _ => true)

/-- The virtual 64 KiB pages whose translations an engine operation has taken. -/
def OpKind.pages : OpKind → List Nat
  | .copy j => j.pages.map (·.1)
  | .matrix j => j.pages.map (·.1)
  | .drain j => j.pages.map (·.1)
  | .softmax j => j.pages.map (·.1)
  | .reduce j => j.pages.map (·.1)
  | .put j => j.pages.map (·.1) ++ j.remotePages.map (·.1)
  | .coll j => j.pages.map (·.1)
  | _ => []

/-- The context an engine operation belongs to. -/
def State.opCtx (s : State) (o : EngineOp) : Option Nat :=
  match o.kind, o.block.bind (Cells.find s.blocks), Cells.find s.waves o.wave with
  | .put j, _, _ => some j.ctx
  | .coll j, _, _ => some j.ctx
  | .pool j, _, _ => some j.ctx
  | _, some blk, _ => some blk.ctx
  | _, none, some w => some w.ctx
  | _, none, none => none

/-- What is in flight and has translated through the entries that a shootdown removes (R288 step 2), noted in it. A command's
translations count as in flight until it has ended, and so does every posted write of the contexts. -/
def State.noteFlight (s : State) (d : Shootdown) (hits : Nat → Bool) (pages : List (Nat × Nat)) : Shootdown :=
  let shot (c x : Nat) : Bool := hits c && s.pageShot c d.kind d.va.toNat pages x
  { d with
    ops := (s.ops.filter (fun (_, o) => !o.done && (match s.opCtx o with
      | none => false
      | some c => o.kind.pages.any (fun p => shot c (65536 * p)) || (hits c && (match o.kind with
        | .copied _ => true
        | _ => false))))).map (·.1)
    rounds := (s.rounds.filter (fun (_, r) => match Cells.find s.launches r.group.1 with
      | none => false
      | some l => r.pages.any (fun p => shot l.ctx (65536 * p.1)))).map (·.1)
    requests := (s.fabricWaits.filter (fun (_, x) => x.getLine.isNone && (Cells.find s.fills x.fill).isSome &&
      shot (s.waveAt x.wave).ctx x.va)).map (·.1)
    writes := s.nodes.flatMap (fun (n, l) => (l.unacked.filter (fun p => hits p.ctx && !p.withdrawn)).map (fun p => (n, p.seq)))
    tiles := s.blocks.flatMap (fun (b, blk) => blk.tiles.flatMap (fun (t, x) =>
      if shot blk.ctx x.va.toNat then (x.lines.filter (fun (_, st) => st == .filling)).map (fun (n, _) => (b, t, n)) else [])) }

/-- All that a shootdown has found in flight here has been performed. -/
def State.flightOver (s : State) (d : Shootdown) : Bool :=
  d.ops.all (fun i => match Cells.find s.ops i with
    | none => true
    | some o => o.done) &&
  d.rounds.all (fun k => (Cells.find s.rounds k).isNone) && d.requests.all (fun i => (Cells.find s.fabricWaits i).isNone) &&
  d.writes.all (fun (n, q) => (s.nodeAt n).unacked.all (fun p => p.seq != q || p.withdrawn)) &&
  d.tiles.all (fun (b, t, n) => Cells.get .invalid (s.tileAt b t).lines n != .filling)

/-- Step 3 of R288 for one wave: its pending lines are committed, without a boundary; lines whose shadows are missing abort
its region with SHADOW_FULL. -/
def State.shootCommit (s : State) (k : Nat) : State :=
  match s.commit k with
  | (t, none) => t
  | (t, some f) => if f.restart then t.restartRegion k else t.asyncFault k ((t.waveAt k).pcOf f.lane) f

/-- A waitsig whose word was found through a removed entry translates anew: it is issued again. -/
def State.shootSignal (s : State) (k : Nat) (shot : Nat → Bool) : State :=
  match (s.waveAt k).signalWait with
  | none => s
  | some x => match x.obj with
    | .signal va _ _ _ _ _ _ => if shot va.toNat then s.modWave k Wave.dropSignals else s
    | _ => s

/-- R288: removes the translations of the contexts that `hits` names, notes in the shootdown what is in flight through them, commits
the pending lines held through them, and drops the instruction lines of their pages. -/
def State.shootHere (s : State) (d : Shootdown) (hits : Nat → Bool) : Shootdown × State :=
  let va := d.va.toNat
  let gone (x : TlbEntry) : Bool := hits x.ctx && (match d.kind with
    | .page => x.covers x.ctx va
    | _ => true)
  let pages := (s.tlb.filter gone).map (fun x => (x.base, x.bits))
  let shot (c x : Nat) : Bool := hits c && s.pageShot c d.kind va pages x
  let t : State := { s with tlb := s.tlb.filter (fun x => !gone x)
                            icache := s.icache.filter (fun x => !shot x.ctx (128 * x.va)) }
  let waves := (t.waves.filter (fun (_, w) => w.held.any (fun h => shot w.ctx h.va))).map (·.1)
  let u := (t.waves.map (·.1)).foldl (fun v k => v.shootSignal k (shot (v.waveAt k).ctx)) (waves.foldl State.shootCommit t)
  (u.noteFlight d hits pages, u)

/-! ### The tree (R289) -/

/-- The children of a member among M + 1 members. -/
def shootChildren (members member : Nat) : List Nat :=
  ((List.range 8).map (fun i => 8 * member + 1 + i)).filter (fun m => decide (m < members))

/-- Sends the request to members. -/
def State.shootSend (s : State) (d : Shootdown) (kids : List Nat) : State :=
  kids.foldl (fun (t : State) m => t.sendTo (d.members.getD m 0) (.shootdown (d.members.getD m 0)
    { serial := d.serial, parent := t.node, tag := d.tag, kind := d.kind, va := d.va, member := m, members := d.members })) s

/-- Replaces a shootdown in progress. -/
def State.setShoot (s : State) (d : Shootdown) : State :=
  { s with shootdowns := s.shootdowns.map (fun x => if x.serial = d.serial then d else x) }

/-- Completes a tlbinv: pd, and the notices of the fenced nodes to every member, the requester included (R289). -/
def State.endTlbinv (s : State) (k : Nat) (d : Shootdown) : State :=
  let t := s.modWave k (fun w => match w.hold with
    | some (.tlbinv lanes pd n) =>
      if n = d.serial then
        (laneList (lanes &&& w.m0)).foldl (fun (u : Wave) l => u.setP pd l d.fenced.isEmpty) { w with hold := none }
      else w
    | _ => w)
  d.fenced.foldl (fun u f => (d.members.filter (fun m => m != u.node && !d.fenced.contains m)).foldl
    (fun (v : State) m => v.sendTo m (.fencedNotice m f)) (u.fenceNode f)) t

/-- A shootdown whose accesses in flight have been performed and whose children have all acknowledged or been fenced ends: the requester's tlbinv completes, another member
acknowledges to its parent. -/
def State.settleShoot (s : State) (serial : Nat) : State :=
  match s.shootdowns.find? (fun d => d.serial == serial) with
  | none => s
  | some d =>
    if !d.waiting.isEmpty || !s.flightOver d then s
    else
      let t : State := { s with shootdowns := s.shootdowns.filter (fun x => x.serial != serial) }
      match d.wave with
      | some k => t.endTlbinv k d
      | none => t.sendTo d.parent (.shootdownAck d.parent d.reply d.member (d.count + 1) d.fenced)

/-- The shootdowns that wait only for accesses in flight. -/
def State.settleShoots (s : State) : State := s.shootdowns.foldl (fun t d => t.settleShoot d.serial) s

/-- Starts a member's part of a shootdown. -/
def State.startShoot (s : State) (d : Shootdown) : State :=
  let kids := shootChildren d.members.length d.member
  let e : Shootdown := { d with waiting := kids }
  (({ s with shootdowns := s.shootdowns ++ [e] } : State).shootSend e kids).settleShoot d.serial

/-- The peers that the SHD_NODES bitmap of a context names, in increasing order; none where its tag is 0. -/
def State.shootPeers (s : State) (c : Nat) : List Nat :=
  let x := s.ctxAt c
  if x.tag = 0 then []
  else
    let bits := s.peekNat (bitsOf x.shdNodes.toNat 51 9 * 512) 512
    (List.range 4096).filter (fun n => bitOf bits n && n != s.node)

/-- tlbinv (R221): the shootdown on this package, and the request to the peers. Where the issuing wave's own commit fails, its
region is aborted, and the shootdown goes on without it. -/
def State.shoot (s : State) (e : Env) (kind : ShootKind) (va c pd : Nat) : State :=
  let (serial, s0) := s.fresh
  let peers := if kind = .all then [] else s0.shootPeers c
  let (d, s1) := s0.shootHere { serial := serial, wave := some e.key, parent := s0.node, tag := (s0.ctxAt c).tag, kind := kind
                                va := BitVec.ofNat 64 va, member := 0, members := s0.node :: peers, waiting := [], count := 0
                                fenced := [] } (shootsLocal kind c)
  let aborted := decide ((s1.waveAt e.key).life = .suspended) || (s1.waveAt e.key).pendingRec.isSome
  let s2 : State := if aborted then { s1 with last := .trapped }
    else (s1.advance e).modWave e.key (fun w => { w with hold := some (.tlbinv e.act pd serial) })
  s2.startShoot d

/-- The encoding rules of tlbinv, and the kind of shootdown that a word asks for (R221). -/
def tlbinvSpec (f : FWord) : OpSpec :=
  { fd := .pred 1, fa := if f.q % 4 = 0 then .source (Gen.sLit 11 0) else .unused
    fb := if f.q % 4 = 2 then .unused else .source (Gen.sIntLit 10 1), fc := .quals, qBits := 3, system := true
    reserved := f.q % 4 == 3 }
def shootKindOf (f : FWord) : ShootKind :=
  match f.q % 4 with
  | 0 => .page
  | 1 => .context
  | _ => .all

/-- tlbinv (R221). -/
def execTlbinv (f : FWord) (s : State) : Host.Outcome State Fault Refusal :=
  let what := f.q % 4
  runWord (tlbinvSpec f) f s (fun e t =>
    t.shoot e (shootKindOf f) (if what = 0 then t.uvalue e 11 f.fa else 0) (if what = 2 then 0 else t.uvalue e 10 f.fb) f.fd.toNat)

/-! ### Messages -/

/-- SHOOTDOWN_REQUEST (R288, R289): it acts on the contexts that carry its tag. -/
def State.shootRequest (s : State) (r : ShootReq) : State :=
  if !s.hears r.parent then s
  else
    let (serial, s1) := s.fresh
    let (d, s2) := s1.shootHere { serial := serial, reply := r.serial, wave := none, parent := r.parent, tag := r.tag, kind := r.kind
                                  va := r.va, member := r.member, members := r.members, waiting := [], count := 0, fenced := [] }
      (fun c => (s1.ctxAt c).tag == r.tag && r.tag != 0)
    s2.startShoot d

/-- SHOOTDOWN_REQUEST (R288). -/
def execShootdownRequest (req : ShootReq) (s : State) : Host.Outcome State Fault Refusal := .next (s.shootRequest req)

/-- SHOOTDOWN_ACK (R289). -/
def State.shootAck (s : State) (serial child count : Nat) (fenced : List Nat) : State :=
  match s.shootdowns.find? (fun d => d.serial == serial) with
  | none => s
  | some d =>
    if !d.waiting.contains child then s
    else (s.setShoot { d with waiting := d.waiting.filter (fun m => m != child), count := d.count + count
                              fenced := d.fenced ++ fenced }).settleShoot serial

/-- SHOOTDOWN_ACK (R289). -/
def execShootdownAck (serial child count : Nat) (fenced : List Nat) (s : State) : Host.Outcome State Fault Refusal :=
  .next (s.shootAck serial child count fenced)

/-- SHOOTDOWN_CHILD_TIMEOUT (R289): the child is fenced, and its children are asked directly. -/
def State.shootTimeout (s : State) (serial child : Nat) : State :=
  match s.shootdowns.find? (fun d => d.serial == serial) with
  | none => s
  | some d =>
    if !d.waiting.contains child then s
    else
      let node := d.members.getD child 0
      let kids := shootChildren d.members.length child
      let e : Shootdown := { d with waiting := d.waiting.filter (fun m => m != child) ++ kids, fenced := d.fenced ++ [node] }
      (((s.fenceNode node).setShoot e).shootSend e kids).settleShoot serial

/-- SHOOTDOWN_CHILD_TIMEOUT (R289). -/
def execShootdownChildTimeout (serial child : Nat) (s : State) : Host.Outcome State Fault Refusal :=
  .next (s.shootTimeout serial child)

/-- FENCED_NODE_NOTICE (R289). -/
def execFencedNodeNotice (node : Nat) (s : State) : Host.Outcome State Fault Refusal := .next (s.fenceNode node)

end Sys2Proof.Machine
end

