-- ==== Sys2Proof/Machine/Devices.lean ====
section
/-! DEFINITION. Memory devices (21_memory_devices.md R445 to R450): corrected and uncorrectable errors, layer map-out, capacity,
and the memory-device registers. -/

namespace Sys2Proof.Machine

open Sys2Proof

/-! ### Capacity (R448) -/

/-- The guard rows of a tier: the free frames within two of an allocated one (a device frame is one row, log 7). -/
def State.guardRows (s : State) (tier top : Nat) : List Nat :=
  let mine := s.alloc.filter (fun (k, _) => k / 2 ^ 30 == tier)
  mine.foldl (fun gs (k, _) =>
    let d := k % 2 ^ 30
    [d + 1, d + 2, d - 1, d - 2].foldl (fun hs g =>
      if g = d ∨ top ≤ g ∨ (Cells.find s.alloc (allocKey tier g)).isSome ∨ hs.contains g then hs else hs ++ [g]) gs) []

/-- The layers of tier H that are not mapped out. -/
def Platform.layersIn (p : Platform) : Nat :=
  ((List.range 128).filter (fun i => !p.layerOut (i / 16) (i % 16))).length

/-- MEM_CAP.H: the frames of the layers, less guard rows. -/
def State.capH (s : State) : Nat :=
  65536 * s.plat.layersIn - ((s.guardRows 1 (2 ^ 23)).filter (fun d =>
    !s.plat.layerOut (layerOf d / 16) (layerOf d % 16))).length

/-- MEM_CAP.L. -/
def State.capL (s : State) : Nat := s.plat.memCapL - (s.guardRows 2 s.plat.memCapL).length

/-! ### Map-out (R449) -/

/-- Sets a layer's bit in MEM_MAPOUT0 or MEM_MAPOUT1. -/
def Platform.outLayer (p : Platform) (i : Nat) : Platform :=
  if i < 64 then { p with mapout0 := Nat.lor p.mapout0 (2 ^ i) } else { p with mapout1 := Nat.lor p.mapout1 (2 ^ (i - 64)) }

/-- Enters a value where a list is in rising order of its first parts. -/
def insertByKey : List (Nat × Nat) → Nat × Nat → List (Nat × Nat)
  | [], x => [x]
  | y :: ys, x => if x.1 < y.1 then x :: y :: ys else y :: insertByKey ys x

/-- The frames on a layer, or moving to it or off it, in rising order of their device frames. -/
def State.layerFrames (s : State) (i : Nat) : List Nat :=
  (s.place.foldl (fun xs (f, e) =>
    if e.tier = 1 ∧ layerOf e.dframe = i then insertByKey xs (e.dframe, f)
    else if e.mig ≠ .idle ∧ e.otherTier = 1 ∧ layerOf e.otherFrame = i then insertByKey xs (e.otherFrame, f)
    else xs) []).map (·.2)

/-- Starts the map-out of a layer: its bit and MEM_CAP.H, the MAPOUT event, and the evacuation of its frames. -/
def State.startMapout (s : State) (i : Nat) : State :=
  let t : State := { s with plat := s.plat.outLayer i }
  let gone := s.capH - t.capH
  let p : Platform := { t.plat with evacuating := t.plat.evacuating.map (fun x => if x.1 = i then (i, gone) else x) }
  let u := ({ t with plat := p } : State).memEvent 2 (i / 16) (i % 16) 1 0 gone
  (u.layerFrames i).foldl (fun v f => v.startPlacement none { act := .evacuate, frames := [some f], sel := i }) u

/-- A map-out arrives (R449): one of a layer that is mapped out, or whose map-out is owed, is ignored; map-outs are performed one
at a time. -/
def State.mapOut (s : State) (i : Nat) : State :=
  if 127 < i ∨ s.plat.layerOut (i / 16) (i % 16) ∨ s.plat.evacuating.any (fun x => x.1 == i) then s
  else
    let first := s.plat.evacuating.isEmpty
    let p : Platform := { s.plat with evacuating := s.plat.evacuating ++ [(i, 0)] }
    let t : State := { s with plat := p }
    if first then t.startMapout i else t

/-- A frame of the layer is still to be evacuated. -/
def State.evacuates (s : State) (i : Nat) : Bool :=
  s.ops.any (fun (_, o) => match o.kind with
    | .placement j => j.act == .evacuate && j.sel == i
    | _ => false)

/-- The map-out under way ends once no frame is left to evacuate (R449 step 3), and the next begins. -/
def State.settleMapout (s : State) : State :=
  match s.plat.evacuating with
  | [] => s
  | (i, gone) :: rest =>
    if s.evacuates i then s
    else
      let p : Platform := { s.plat with evacuating := rest }
      let t := ({ s with plat := p } : State).memEvent 3 (i / 16) (i % 16) 1 0 gone
      match rest with
      | [] => t
      | (n, _) :: _ => t.startMapout n

/-- MAPOUT (R449). -/
def execMapout (stack layer : Nat) (s : State) : Host.Outcome State Fault Refusal :=
  .next (s.mapOut (stack % 8 * 16 + layer % 16))

/-! ### Errors (R446) -/

/-- A corrected error: MEM_ERR.CE, and for a layer the count of the last second, which may map it out (R449). -/
def State.correctedError (s : State) (layer : Option Nat) : State :=
  let p : Platform := { s.plat with errCE := (s.plat.errCE + 1) % 2 ^ 32 }
  match layer with
  | none => { s with plat := p }
  | some i =>
    let times := (Cells.get [] p.layerCE i).filter (fun t => decide (s.timeNs < t + 1000000000)) ++ [s.timeNs]
    let q : Platform := { p with layerCE := Cells.set [] p.layerCE i times }
    let t : State := { s with plat := q }
    let limit := p.memCfg.toNat % 65536
    if limit ≠ 0 ∧ limit ≤ times.length then t.mapOut i else t

/-- The package line that a device line is, where it is one. -/
def State.lineBehind (s : State) (tier dframe n : Nat) : Option Nat :=
  (s.place.find? (fun (_, e) => e.seat n == (tier, dframe))).map (fun (f, _) => f * 512 + n)

/-- The ZERO field of a device line (R445, 13_page.md R300): in a tier-H frame that stores its lines zero-aware (FMT 1), a line of
128 zero bytes is its metadata alone. -/
def State.zeroField (s : State) (f n : Nat) : Bool :=
  match Cells.find s.place f with
  | none => false
  | some e =>
    let k := deviceLine (e.seat n).1 (e.seat n).2 n
    (e.seat n).1 == 1 && (if (e.seat n) = (e.tier, e.dframe) then e.fmt else e.otherFmt) == 1 && !(s.metaOf k).poison &&
      (Cells.getRun Memory.default s.mem (k * 128) 128).all (· == 0)

/-- The data of a device line is lost: where a cache owns the line, its bytes stand and the device's own are lost; else the line
is poisoned, and a store that still has to get it is lost with it. -/
def State.poisonLine (s : State) (tier dframe n : Nat) : State :=
  let k := deviceLine tier dframe n
  let owned : Bool := match s.lineBehind tier dframe n with
    | none => false
    | some line => s.lineOwned line
  if owned then { s with devOld := Cells.put s.devOld k [] }
  else { s with devOld := Cells.del s.devOld k
                lineMeta := Cells.set {} s.lineMeta k { s.metaOf k with poison := true } }

/-- An uncorrectable error of a device line (R446, R450): POISON, MEM_ERR.UE and a UE event. At the new frame of a migration that
copies, it ends the migration as ABORTED (13_page.md R297). -/
def State.uncorrectableError (s : State) (tier dframe n : Nat) : State :=
  let p : Platform := { s.plat with errUE := (s.plat.errUE + 1) % 2 ^ 32 }
  let t := ({ s with plat := p } : State).poisonLine tier dframe n
  let u := if tier = 1 then t.memEvent 1 (layerOf dframe / 16) (layerOf dframe % 16) 1 dframe 0 else t.memEvent 1 0 0 tier dframe 0
  (u.place.filter (fun (_, e) => e.copying && e.otherTier == tier && e.otherFrame == dframe)).foldl
    (fun v (f, _) => (v.startAbort f).post (.migrationAbort f)) u

/-- A reply of a device (R446, R447, R450): its bytes are those of memory; its ECC result is acted on. -/
def State.deviceReply (s : State) (tier dframe n : Nat) (err : EccResult) : State :=
  match err with
  | .clean => s
  | .corrected => s.correctedError (if tier = 1 then some (layerOf dframe) else none)
  | .uncorrectable => s.uncorrectableError tier dframe n

/-- HBM_REPLY (R447). -/
def execHbmReply (dframe line : Nat) (err : EccResult) (s : State) : Host.Outcome State Fault Refusal :=
  .next (s.deviceReply 1 dframe (line % 512) err)
/-- LPDDR_REPLY (R446, R450). -/
def execLpddrReply (dframe line : Nat) (err : EccResult) (s : State) : Host.Outcome State Fault Refusal :=
  .next (s.deviceReply 2 dframe (line % 512) err)
/-- CXL_MEM_RESPONSE (R450). -/
def execCxlMemResponse (dframe line : Nat) (err : EccResult) (s : State) : Host.Outcome State Fault Refusal :=
  .next (s.deviceReply 3 dframe (line % 512) err)

/-! ### Registers -/

/-- A read of MEM_ERR gives both counts and clears them; also a .b32 read, which returns UE alone, clears CE (00_scope.md R8 does not
say whether a field that was not returned is cleared: log 81). -/
def State.readMemErr (s : State) : Nat × State :=
  (s.plat.errCE * 2 ^ 32 + s.plat.errUE, { s with plat := { s.plat with errCE := 0, errUE := 0 } })

/-- MEM_ERR_READ: the counts go out and are cleared. -/
def execMemErrRead (s : State) : Host.Outcome State Fault Refusal :=
  let (n, t) := s.readMemErr
  .next (t.send (.registerValue (BitVec.ofNat 64 n)))

/-- A read of a memory-device register but MEM_ERR. -/
def State.deviceRead (s : State) (num : Nat) : Nat :=
  let p := s.plat
  match num with
  | 0xC000 => s.capL * 2 ^ 24 + s.capH
  | 0xC001 => p.mapout0
  | 0xC002 => p.mapout1
  | 0xC003 => p.memCfg.toNat
  | 0xC005 => p.memEvq.toNat + p.memEvqLost * 16
  | 0xC006 => p.memEvqCons * 2 ^ 32 + p.memEvqProd
  | _ => 0

/-- A write of a memory-device register. -/
def State.deviceSet (s : State) (num : Nat) (v : DWord) : State :=
  let n := v.toNat
  match num with
  | 0xC003 => { s with plat := { s.plat with memCfg := BitVec.ofNat 64 (n % 65536) } }
  | 0xC004 => if n % 256 = 1 then s.mapOut (bitsOf n 14 12 * 16 + bitsOf n 11 8) else s
  | 0xC005 => { s with plat := { s.plat with memEvq := v &&& 0x000FFFFFFFFFF00F, memEvqLost := 0 } }
  | 0xC006 => { s with plat := { s.plat with memEvqCons := n / 2 ^ 32 } }
  | _ => s

end Sys2Proof.Machine
end

