-- ==== Sys2Proof/Machine/Platform.lean ====
section
/-! DEFINITION. Boot, power states, monitors and clocks (22_platform.md R451 to R458), and the host's PCIe transactions
(06_memory_access.md R166, 07_consistency.md R199, 09_queue.md R225, 14_coherence.md R321). -/

namespace Sys2Proof.Machine

open Sys2Proof

/-! ### Boot (R452, R453) -/

/-- A boot that fails: its status, with every core stopped and every tier untouched. -/
def State.failBoot (s : State) (status : Nat) : State :=
  { s with power := .failed, plat := { s.plat with bootStatus := status } }

/-- The items of an image (R451). -/
def ConfigImage.items (x : ConfigImage) : List (List Nat) :=
  let bytes (bs : List Byte) : List Nat := bs.map (·.toNat)
  [[x.order], [x.node], x.coremap, [x.mapout0, x.mapout1], x.trims, bytes x.identity.cert, bytes x.identity.sealedKey,
   bytes x.payload, [65536 * x.paFrame, x.root, x.entry.toNat, x.fqBase, x.fqSize]]

/-- The digest of an image (R451), as PLT_MEAS holds it from step 4 on (R452). -/
def ConfigImage.digest (x : ConfigImage) : Nat := Config.imageDigest x.items

/-- The status of the first step of boot that fails on an image, if any; a map without an entry for each of the 16 grid rows, or
with one above 96, leaves a logical core without a physical one (01_package.md R17). -/
def ConfigImage.failure (x : ConfigImage) : Option Nat :=
  if !x.signatureOk then some 2
  else if x.coremap.length ≠ 16 || x.coremap.any (fun p => decide (96 < p)) then some 3
  else if x.order ≠ x.strap then some 5
  else if !x.trains then some 4
  else if 2 ^ 24 < (x.payload.length + 65535) / 65536 then some 4
  else none

/-- Step 5: what the image configures, the ports that train from node links that are all DOWN, and the device frames of tiers H
and L with zero data and reset metadata. -/
def State.configure (s : State) (x : ConfigImage) : State :=
  let p : Platform := { order := x.order, rev := x.rev, digest := x.digest, coremap := x.coremap, memCapL := 2 ^ 24
                        mapout0 := x.mapout0, mapout1 := x.mapout1, trims := x.trims, identity := x.identity }
  let t : State := { s with
    power := .running
    plat := p
    node := x.node
    nodes := []
    ports := x.portsUp.foldl (fun m p => Cells.set {} m p { st := .active }) []
    mem := s.mem.filter (fun (k, _) => decide (3 * 2 ^ 46 ≤ k))
    lineMeta := s.lineMeta.filter (fun (k, _) => decide (3 * 2 ^ 39 ≤ k)) }
  x.portsUp.foldl State.followPort t

/-- Context 0 at the end of boot (R453). -/
def ConfigImage.context (x : ConfigImage) : Context :=
  { st := .running
    cfg := 0x100
    lcores := BitVec.allOnes 64
    quota := BitVec.ofNat 64 (2 ^ 24)
    ptroot := BitVec.ofNat 64 x.root
    fq := BitVec.ofNat 64 (x.fqBase + x.fqSize) }

/-- The boot thread: lane 0 of latency core 1,536 at ENTRY (R452), with the registers of
03_encoding.md R67 and R69. -/
def ConfigImage.thread (x : ConfigImage) : Wave :=
  { core := 1536, slot := 0, ctx := 0, nv := 256, pcs := Cells.set 0 [] 0 x.entry, entries := Cells.set 0 [] 0 x.entry
    regs := { m := [(0, 1)] } }

/-- Step 6: the payload frames are backed in tier L for context 0, pinned, and hold PAYLOAD; context 0 runs. -/
def State.loadPayload (s : State) (x : ConfigImage) : State :=
  let n := (x.payload.length + 65535) / 65536
  let t : State := { s with
    place := (List.range n).map (fun i => (x.paFrame + i, { ctx := 0, tier := 2, dframe := i, pin := true : Placement }))
    alloc := (List.range n).map (fun i => (allocKey 2 i, 1))
    ctxs := Cells.set {} s.ctxs 0 x.context
    waves := Cells.put s.waves (waveKey 1536 0) x.thread }
  t.store (devByte 2 0 0) x.payload

/-- Boot (R452). -/
def State.boot (s : State) : State :=
  match s.flash with
  | none => s.failBoot 1
  | some x =>
    match x.failure with
    | some st => (if st = 2 then s else { s with plat := { s.plat with digest := x.digest } }).failBoot st
    | none => (s.configure x).loadPayload x

/-- POWER_UP (R452): from the release of reset. -/
def execPowerUp (s : State) : Host.Outcome State Fault Refusal :=
  .next (if s.power = .released then s.boot else s)

/-! ### Power (R455) -/

/-- The package without power: what the board and the pool keep stays, everything else is lost. The counter of free values and
what the world has sent and been sent are no state of the package. -/
def State.powerOff (s : State) : State :=
  { State.reset with
    power := .off
    flash := s.flash
    fabric := s.fabric
    mem := s.mem.filter (fun (k, _) => decide (3 * 2 ^ 46 ≤ k))
    lineMeta := s.lineMeta.filter (fun (k, _) => decide (3 * 2 ^ 39 ≤ k))
    ownTable := s.ownTable
    inbox := s.inbox
    out := s.out
    tick := s.tick }

/-- WAKE (R455): the whole boot again. -/
def execWake (s : State) : Host.Outcome State Fault Refusal :=
  .next (if s.power = .off then ({ s with power := .released } : State).boot else s)
/-- STANDBY (R455). -/
def execStandby (s : State) : Host.Outcome State Fault Refusal := .next s.powerOff
/-- THERMAL_TRIP (R455): the event that a monitor has reached 115 °C between two ticks (log 73). -/
def execThermalTrip (s : State) : Host.Outcome State Fault Refusal := .next s.powerOff

/-! ### Monitors and clocks (R456, R457) -/

/-- A temperature in units of 0.25 °C is above a limit in °C; one is below the limit less 3 °C. -/
def isHot (tlim : Nat) (t : Int) : Bool := decide (((4 * tlim : Nat) : Int) < t)
def isCool (tlim : Nat) (t : Int) : Bool := decide (t < 4 * ((tlim : Nat) : Int) - 12)

/-- The step of a clock after a tick. -/
def clockStep (step cap top : Nat) (hot cool : Bool) : Nat :=
  Nat.max cap (if hot then Nat.min (step + 1) top else if cool then Nat.max (step - 1) cap else step)

/-- A temperature of 115 °C or more, in units of 0.25 °C (R455). -/
def tripped (t : Int) : Bool := decide (460 ≤ t)

/-- CLOCK_TICK (R456, R457): the readings of the monitors, clusters 0 to 191 Bricor and 192 to 207 Tlaska; one that has reached
115 °C removes the power at once (R455). -/
def State.clockTick (s : State) (m : Readings) : State :=
  let p := s.plat
  let limit := Nat.min p.powerLimit 3800
  let bricor := m.temps.take 192
  let tlaska := (m.temps.drop 192).take 16
  let hot := bricor.any (isHot p.tlim) || decide (limit < m.pkg)
  let cool := bricor.all (isCool p.tlim) && decide (m.pkg + 100 < limit)
  let q : Platform := { p with
    temps := m.temps, mvs := m.mvs, procs := m.procs, pkg := m.pkg
    stepNow := clockStep p.stepNow p.cap 20 hot cool
    tstepNow := clockStep p.tstepNow p.tcap 16 (tlaska.any (isHot p.tlim)) (tlaska.all (isCool p.tlim)) }
  if m.temps.any tripped then s.powerOff else { s with plat := q }

/-- CLOCK_TICK (R457). -/
def execClockTick (m : Readings) (s : State) : Host.Outcome State Fault Refusal := .next (s.clockTick m)

/-- The greatest of some temperatures. -/
def hottest : List Int → Int
  | [] => 0
  | [t] => t
  | t :: ts => if t < hottest ts then hottest ts else t

/-- A temperature as a .i16 field. -/
def tempField (t : Int) : Nat := (t % 65536).toNat

/-- PLT_MON (R458). -/
def State.monitor (s : State) : Nat :=
  let p := s.plat
  let u := p.monsel.toNat % 256
  if bitOf p.monsel.toNat 8 then
    let own := if u < 2 then (p.temps.drop (96 * u)).take 96 else (p.temps.drop 192).take 16
    if 3 < u then 0
    else p.procs.getD u 0 % 65536 * 2 ^ 32 + (if u = 3 then Config.dieTemperature s.tick % 65536 else tempField (hottest own))
  else if 207 < u then 0
  else p.mvs.getD u 0 % 65536 * 65536 + tempField (p.temps.getD u 0)

/-- A read of a platform register (R458). -/
def State.platformRead (s : State) (num : Nat) : Nat :=
  let p := s.plat
  match num with
  | 0xD000 => p.order % 2 * 256 + p.rev % 256
  | 0xD001 => p.bootStatus
  | 0xD002 => p.tstepNow * 2 ^ 40 + p.tcap * 2 ^ 32 + p.cap * 2 ^ 16 + p.stepNow * 256 + p.tlim
  | 0xD003 => p.pkg % 2 ^ 32 * 2 ^ 32 + p.powerLimit
  | 0xD004 => p.monsel.toNat
  | 0xD005 => s.monitor
  | n => if 0xD008 ≤ n ∧ n ≤ 0xD00F then p.digest / 2 ^ (64 * (n - 0xD008)) % 2 ^ 64 else 0

/-- A write of a platform register (R458). -/
def State.platformWrite (s : State) (num : Nat) (v : DWord) : State :=
  let n := v.toNat
  match num with
  | 0xD002 => { s with plat := { s.plat with tlim := n % 256, cap := Nat.min 20 (bitsOf n 20 16)
                                             tcap := Nat.min 16 (bitsOf n 36 32) } }
  | 0xD003 => { s with plat := { s.plat with powerLimit := n % 4096 } }
  | 0xD004 => { s with plat := { s.plat with monsel := BitVec.ofNat 64 (n % 512) } }
  | _ => s

/-- The answer to GET_MEASUREMENTS (R454): index 1 is the image digest, signed with the identity key; other indices give an
error. -/
def State.measured (s : State) (index : Nat) : OutMsg :=
  if index = 1 then .measurement s.plat.digest (Config.signature s.plat.identity.sealedKey s.tick s.plat.digest)
  else .measurementError

/-- GET_MEASUREMENTS (R454): the port answers while the package runs, and after a failed boot exposes BAR 0 alone (R452). -/
def execGetMeasurements (index : Nat) (s : State) : Host.Outcome State Fault Refusal :=
  .next (s.send (if s.power = .running then s.measured index else .hostRefused))

/-! ### The host (R166, R199, R225) -/

/-- A byte as the home reads it without looking at a cache (R166): the device's own, where a cache holds a newer one. -/
def State.noSnoopByte (s : State) (pa : Nat) : Byte :=
  match s.device pa with
  | none => Memory.default
  | some k => match s.pendingShadow pa, Cells.find s.devOld (k / 128) with
    | none, some old => if old.isEmpty then 0xFF else old.getD (pa % 128) 0
    | _, _ => s.peekByte pa

/-- The bytes of a line with some replaced. -/
def patchLine (old : List Byte) (off : Nat) (bs : List Byte) : List Byte :=
  (List.range 128).map (fun i => if off ≤ i then bs.getD (i - off) (old.getD i 0) else old.getD i 0)

/-- The bytes that a No Snoop write leaves of a run of a line where stores of caches that have still to get the line are newer
than the device's own bytes: theirs stay. -/
def mergeRun (now old new : List Byte) : List Byte :=
  new.zipIdx.map (fun (b, i) => if now[i]? = old[i]? then b else now.getD i b)

/-- A No Snoop write inside one line (R166): the home's bytes change and cached copies stay as they were; none while shadows are
missing. Where a cache owns the line, the device's own bytes alone change; a device line whose data is lost keeps that under a
partial write (21_memory_devices.md R446). -/
def State.noSnoopWrite (s0 : State) (pa : Nat) (bs : List Byte) : Option State :=
  let s := s0.restoreLine pa
  let short : Bool := match s.shadowNeed pa with
    | none => false
    | some (c, _, n) => decide ((s.ctxAt c).freeShadows < n)
  if short then none
  else
    let t := s.takeShadows pa
    let line := pa / 128
    let off := pa % 128
    match t.device pa with
    | none => some t
    | some k =>
      let owned := t.lineOwned line
      let own : Option (List Byte) := match Cells.find t.devOld (k / 128) with
        | some old => some old
        | none => if owned then some (t.deviceBytes pa) else none
      match own with
      | some old =>
        let new := if bs.length = 128 then bs else if old.isEmpty then [] else patchLine old off bs
        let u : State := { t with devOld := Cells.put t.devOld (k / 128) new }
        some (if owned || old.isEmpty then u
          else u.store k (mergeRun (Cells.getRun Memory.default t.mem k bs.length) (old.drop off) bs))
      | none =>
        let old := t.peek (line * 128) 128
        let holders := (t.cache.filter (fun (q, y) => q % 2 ^ 46 == line && (y.st == .shared || y.st == .smWait))).map
          (fun (q, _) => q / 2 ^ 46)
        let fresh := holders.filter (fun a => !t.stale.any (fun x => x.agent == a && x.line == line))
        let u : State := { t with stale := t.stale ++ fresh.map (fun a => { agent := a, line := line, bytes := old }) }
        some (if !(u.metaOf (k / 128)).poison then u.store k bs
          else if bs.length = 128 then (u.modMeta pa (fun x => { x with poison := false })).store k bs
          else u)

/-- Writes of the host, line by line; the address of the first line whose shadows are missing. -/
def State.hostStore (s : State) (noSnoop : Bool) : List (Nat × List Byte) → Except Nat State
  | [] => .ok s
  | (pa, bs) :: rest =>
    if noSnoop then match s.noSnoopWrite pa bs with
      | none => .error pa
      | some t => State.hostStore t noSnoop rest
    else match s.tryWrite pa bs with
      | none => .error pa
      | some t => State.hostStore (t.homeWrite pa) noSnoop rest

/-- The host may reach an address: its frame is backed and its context not locked (20_link.md R444). -/
def State.hostReaches (s : State) (pa len : Nat) : Bool :=
  (linesOf pa len).all (fun a => match Cells.find s.place (a / 65536) with
    | none => false
    | some e => !s.locked e.ctx)

/-- The first frame of a span that another package owns. -/
def State.hostMissing (s : State) (pa len : Nat) : Option Nat :=
  ((linesOf pa len).find? (fun a => s.unowned a)).map (· / 65536)

/-- A queue register's context, queue and number at an offset of BAR 2 (R225). -/
def bar2Place (offset : Nat) : Option (Nat × Nat × Nat) :=
  let q := offset % 65536 / 256
  let k := offset % 256 / 8
  if offset % 8 = 0 ∧ q < 64 ∧ k < 9 ∧ offset / 65536 < 256 then some (offset / 65536, q, k) else none

/-- Performs a host transaction; none while it waits. -/
def State.hostAccess (s : State) (r : HostReq) : State × Bool :=
  match r with
  | .read pa len ns =>
    if !s.hostReaches pa len then (s.send .hostRefused, true)
    else match s.hostMissing pa len with
      | some f => (s.requestOwnership f, false)
      | none =>
        if ns then
          let t := (linesOf pa len).foldl State.restoreLine s
          (t.send (.hostData ((List.range len).map (fun i => t.noSnoopByte (pa + i)))), true)
        else
          let (bs, t) := s.engineRead pa len
          (t.send (.hostData bs), true)
  | .write pa bs ns =>
    if !s.hostReaches pa bs.length then (s.send .hostRefused, true)
    else match s.hostMissing pa bs.length with
      | some f => (s.requestOwnership f, false)
      | none => match s.hostStore ns (splitLines (bs.length + 1) pa bs) with
        | .error a => ((s.restoreLine a).noteStarved a, false)
        | .ok t => (t, true)
  | .bar0Read offset => (s.send (if offset = 0 then .registerValue (BitVec.ofNat 64 s.plat.bootStatus) else .hostRefused), true)
  | .bar2Read offset => (s.send (match bar2Place offset with
      | none => .hostRefused
      | some (c, q, k) => .registerValue (((s.ctxAt c).queueAt q).read k)), true)
  | .bar2Write offset v => (match bar2Place offset with
      | none => s.send .hostRefused
      | some (c, q, k) => s.queueWrite c q k v true, true)

/-- Performs the host's transactions in the order of issue, up to the first that waits (R199). -/
def State.serveHost (s : State) : List HostReq → State
  | [] => { s with hostIn := [] }
  | r :: rs => match s.hostAccess r with
    | (t, true) => State.serveHost t rs
    | (t, false) => { t with hostIn := r :: rs }

/-- The host's transactions that wait are looked at again. -/
def State.settleHost (s : State) : State := if s.hostIn.isEmpty then s else s.serveHost s.hostIn

/-- HOST_ACCESS (R166): after a failed boot the port exposes BAR 0 alone (R452). -/
def execHostAccess (req : HostReq) (s : State) : Host.Outcome State Fault Refusal :=
  .next (match s.power, req with
    | .running, _ => s.serveHost (s.hostIn ++ [req])
    | .failed, .bar0Read _ => (s.hostAccess req).1
    | _, _ => s.send .hostRefused)

end Sys2Proof.Machine
end

