-- ==== Sys2Proof/Machine/Context.lean ====
section
/-! DEFINITION. Contexts (08_context.md): the commands of CTX_CMD (R201 to R206, R210), pre-emption and the saved image
(R217, R218), halt and the debug registers (R219, R220), and the registers of the context block (R209). -/

namespace Sys2Proof.Machine

open Sys2Proof

/-! ### Grants (R205, R206) -/

/-- The rules of R209 for CTX_RECT. -/
def rectOk (r : Nat) : Bool :=
  if bitsOf r 17 16 = 3 then r % 65536 == 0
  else decide (1 ≤ bitsOf r 11 8) && decide (1 ≤ bitsOf r 15 12) && decide (bitsOf r 3 0 + bitsOf r 11 8 ≤ 12) &&
    decide (bitsOf r 7 4 + bitsOf r 15 12 ≤ 8)

/-- The shape of a rectangle: W, H and the number of dies. -/
def rectShape (r : Nat) : Nat × Nat × Nat := (bitsOf r 11 8, bitsOf r 15 12, [1, 1, 2, 0].getD (bitsOf r 17 16) 0)

/-- The bytes a saved image may occupy (R218). -/
def Context.imageBytes (x : Context) : Nat :=
  let n := x.bricorCores.length
  2 ^ 21 * n + 65536 * (n / 8 + ((List.range 64).filter (fun j => bitOf x.lcores.toNat j)).length) + 2 ^ 20

/-- The grants of two contexts have a cluster or a latency core in common. -/
def Context.meets (x y : Context) : Bool :=
  (List.range 192).any (fun cl => x.grants (cl * 8) && y.grants (cl * 8)) || decide (x.lcores &&& y.lcores ≠ 0)

/-- Another context of a kind holds a cluster or latency core that a context is granted. -/
def State.heldBy (s : State) (c : Nat) (p : Context → Bool) : Bool :=
  s.ctxs.any (fun (d, y) => d != c && p y && (s.ctxAt c).meets y)

/-- A slice of a context's grant is granted to a bound context of another guest (R206). -/
def State.slicesTaken (s : State) (c : Nat) : Bool :=
  let x := s.ctxAt c
  s.ctxs.any (fun (d, y) => d != c && y.st != .empty && y.guest != x.guest &&
    (decide (x.slices0 &&& y.slices0 ≠ 0) || decide (x.slices1 &&& y.slices1 ≠ 0)))

/-- A context that has faulted and whose waves are not saved yet still stands on its cores (R202, R204). -/
def Context.draining (x : Context) : Bool := x.st == .faulted && x.image.isNone

/-- A context stands on its cores. -/
def Context.onCores (x : Context) : Bool := x.st == .running || x.st == .preempting || x.draining

/-! ### BIND, ARM, RUN (R201, R205, R218) -/

/-- BIND: every object of the context starts anew. CTX_FP_CTL and CTX_SR_SEED keep what was written to them in EMPTY; their reset
(02_numbers.md R35) is at the end of DESTROY (log 83). -/
def State.bindContext (s : State) (c : Nat) : State :=
  let x := s.ctxAt c
  if x.st ≠ .empty then s.setCmdst c 1
  else if !rectOk x.rect.toNat then s.setCmdst c 5
  else if s.slicesTaken c then s.setCmdst c 2
  else s.modCtx c (fun y => { y with
    st := .bound
    cmdst := 0
    imageSize := y.imageBytes
    kernels := []
    queues := y.queues.map (fun (q, z) => (q, { z with st := .off, entries := [] }))
    groups := y.groups.map (fun (g, z) => (g, { z with st := .off }))
    pools := y.pools.map (fun (n, z) => (n, { z with live := false, blocks := [], seqs := [] }))
    shutters := [] })

/-- ARM. -/
def State.armContext (s : State) (c : Nat) : State :=
  if (s.ctxAt c).st = .bound then s.modCtx c (fun y => { y with st := .runnable, cmdst := 0 }) else s.setCmdst c 1

/-- The waves of blocks whose prologue has not ended and that RESUME has released are placed anew by it (10_kernel.md
R241). -/
def State.restartPrologues (s : State) (c : Nat) : State :=
  let again := s.blocks.filter (fun (b, blk) => blk.ctx == c && !blk.prologue &&
    s.waves.any (fun (_, w) => w.block == some b && w.life != .suspended))
  (again.foldl (fun t (b, _) => t.rerunPrologue b) s).retryPrologues

/-- The kernels of a context that ended as FAULTED or KILLED while it was saved lose their waves and blocks (10_kernel.md
R254). -/
def State.reapKilled (s : State) (c : Nat) : State :=
  s.endKilled ((s.launches.filter (fun (_, l) => l.ctx == c && l.killed.isSome && !l.ended)).map (·.1))

/-- A context enters RUNNING. -/
def State.enterRunning (s : State) (c : Nat) : State :=
  ((s.modCtx c (fun y => { y with st := .running, cmdst := 0 })).reportPlaces 0).reportPlaces 1

/-- A restored context starts with no TLB entries (13_page.md R287) and no instruction lines. -/
def State.forgetPages (s : State) (c : Nat) : State :=
  { s with tlb := s.tlb.filter (fun e => e.ctx != c), icache := s.icache.filter (fun x => x.ctx != c) }

/-- RUN would succeed but for a context whose waves are still being saved after a fatal fault: the command waits. -/
def State.runWaits (s : State) (c : Nat) : Bool :=
  let x := s.ctxAt c
  (x.st == .runnable || x.st == .saved) && !s.heldBy c (fun y => y.st == .running || y.st == .preempting) &&
    s.heldBy c Context.draining

/-- RUN. -/
def State.runContext (s : State) (c : Nat) : State :=
  let x := s.ctxAt c
  if x.st ≠ .runnable ∧ x.st ≠ .saved then s.setCmdst c 1
  else if s.heldBy c (fun y => y.st == .running || y.st == .preempting) then s.setCmdst c 2
  else if !s.areaBacked x.imageBase x.imageSize then s.setCmdst c 5
  else match x.image with
    | none => s.enterRunning c
    | some im =>
      if s.areaBytes x.imageBase x.imageSize ≠ im.digest then s.setCmdst c 4
      else ((((s.forgetPages c).restoreImage c im).enterRunning c).reapKilled c).restartPrologues c

/-! ### PREEMPT and the save (R217) -/

/-- A context enters PREEMPTING. -/
def State.preemptContext (s : State) (c : Nat) : State :=
  ((s.modCtx c (fun y => { y with st := .preempting })).recallBlocks c).stopWaves c

/-- PREEMPT. -/
def State.preemptCommand (s : State) (c : Nat) : State :=
  if (s.ctxAt c).st = .running then (s.setCmdst c 0).preemptContext c else s.setCmdst c 1

/-- SLICE_EXPIRY: acts as PREEMPT on a context that is sliced. -/
def State.sliceExpires (s : State) (c : Nat) : State :=
  if (s.ctxAt c).st = .running ∧ (s.ctxAt c).sliceTime ≠ 0 then s.preemptContext c else s

/-- A package frame lies in a context's image area. -/
def Context.inArea (x : Context) (f : Nat) : Bool :=
  let first := x.imageBase / 65536
  decide (first ≤ f) && decide (f < first + (x.imageSize + 65535) / 65536)

/-- The image area takes the bytes of the image, whose layout is the implementation's (R218): free values. A line of a shutter's
range takes its shadows first, and waits while they are missing (19_shutter.md R415, R418). -/
def State.saveArea (s : State) (c : Nat) : State :=
  let x := s.ctxAt c
  let frames := (s.place.filter (fun (f, _) => x.inArea f)).map (·.1)
  frames.foldl (fun t f => (List.range 512).foldl (fun u l =>
    u.engineWrite (f * 65536 + 128 * l) ((List.range 128).map (fun i => Config.imageByte s.tick (f * 65536 + 128 * l + i)))) t) s

/-- A line of a context's image area waits for shadows. -/
def State.areaWaits (s : State) (c : Nat) : Bool := s.shadowWaits.any (fun y => (s.ctxAt c).inArea (y.pa / 65536))

/-- A context waits to be saved, and everything of it has ended or waits in a way that is saved. -/
def State.saveable (s : State) (c : Nat) : Bool :=
  let x := s.ctxAt c
  (x.st == .preempting || x.draining) && s.drained c && !(x.saving && s.areaWaits c)

/-- The image of a context is in its area: its cores are released (R204), and it is SAVED, or FAULTED after a fatal fault or a FAIL. -/
def State.endSave (s : State) (c : Nat) : State :=
  let im := s.makeImage c
  (s.releaseCores c).modCtx c (fun y =>
    let z := { y with image := some im, failWanted := none, saving := false }
    match y.st, y.failWanted with
    | .preempting, none => { z with st := .saved }
    | .preempting, some code => { z with st := .faulted, lastcode := code }
    | _, _ => z)

/-- PREEMPT_COMPLETE: the B-store slices and the image are written, once, and the save ends when no line of the area waits. -/
def State.saveContext (s : State) (c : Nat) : State :=
  if !s.saveable c then s
  else
    let t := if (s.ctxAt c).saving then s else ((s.saveBstore c).saveArea c).modCtx c (fun y => { y with saving := true })
    if t.areaWaits c then t else t.endSave c

/-! ### DESTROY (R203) -/

/-- Every shutter of a context ends without restore (19_shutter.md R428); an operation of another context that waits for its update
finds a stale reference. -/
def State.endShutters (s : State) (c : Nat) : State :=
  let x := s.ctxAt c
  let frames := x.shutters.flatMap (fun (_, sh) => sh.frames)
  let seats := s.place.flatMap (fun (f, e) =>
    if frames.contains f then [allocKey e.tier e.dframe, allocKey e.otherTier e.otherFrame] else [])
  let t : State := { s.setShut frames false with
    lineMeta := (s.lineMeta.map (fun (l, m) => (l, if seats.contains (l / 512) then { m with epoch := 0 } else m))).filter
      (fun (_, m) => m != {}) }
  let r := x.shutters.foldl (fun (v : State) (_, sh) => match sh.pending with
    | none => v
    | some j => ({ v.endFillS j.fill (poolWord 3 0) with
        ops := Cells.modify v.ops j.op (fun o => { o with kind := .performed }) } : State).post (.engineOpRetire j.op)) t
  let u := x.shadowFrames.foldl (fun (v : State) d => v.takeFrame 2 d) r
  ((u.modCtx c (fun y => { y with shutters := [], epochs := [], shadowFrames := [] })).proceedWaits c).roomChanged

/-- The migrations of a context's frames enter ABORTED (13_page.md R297). -/
def State.abortMigrations (s : State) (c : Nat) : State :=
  (s.place.filter (fun (_, e) => e.ctx == c && e.copying)).foldl (fun t (f, _) => (t.startAbort f).post (.migrationAbort f)) s

/-- The waves of a context and all its work are gone: nothing of it counts for anyone any longer. -/
def State.dropWork (s : State) (c : Nat) : State :=
  let mine (k : Nat) : Bool := (Cells.find s.waves k).isSome && (s.waveAt k).ctx == c
  let t : State := { s with
    nodes := s.nodes.map (fun (n, l) => (n, { l with unacked := l.unacked.map (fun p =>
      if p.ctx = c then { p with wave := goneWave, op := none } else p) }))
    shootdowns := s.shootdowns.map (fun d => { d with wave := d.wave.map (fun k => if mine k then goneWave else k) })
    launches := s.launches.filter (fun (_, l) => l.ctx != c)
    dieLists := s.dieLists.map (fun (d, xs) => (d, xs.filter (fun y => match Cells.find s.launches y.1 with
      | none => false
      | some l => l.ctx != c)))
    tlb := s.tlb.filter (fun e => e.ctx != c)
    icache := s.icache.filter (fun x => x.ctx != c) }
  let u := if (s.ctxAt c).onCores then t.releaseCores c else t
  { u with fabricWaits := u.fabricWaits.filter (fun (_, x) => match x.getLine with
      | none => true
      | some (id, _, _) => (Cells.find u.ops id).isSome) }

/-- The mapped tiles of a context are discarded without write-back (R203 step 2): each line that its stores left dirty holds the bytes
from before the first of them. -/
def State.discardTiles (s : State) (c : Nat) : State :=
  let lines := (s.blocks.filter (fun (_, b) => b.ctx == c)).flatMap (fun (_, b) => b.tiles.flatMap (fun (_, x) =>
    (x.lines.filter (fun (_, st) => st == .dirty)).filterMap (fun (l, _) => match Cells.find x.pas l, Cells.find x.old l with
      | some n, some bs => some (n, bs)
      | _, _ => none)))
  lines.foldl (fun t (n, bs) => match t.device (n * 128) with
    | none => t
    | some k => t.store k bs) s

/-- The L2 slices of a context's grant are written back and invalidated (R203 step 4). -/
def State.flushSlices (s : State) (c : Nat) : State :=
  let mine := (s.ctxAt c).slices
  s.l2Flush (fun line => mine.contains (s.homeOf line))

/-- DESTROY: the context enters DESTROYING, its work is cancelled and its objects end. -/
def State.destroyContext (s : State) (c : Nat) : State :=
  let x := s.ctxAt c
  if x.st = .empty ∨ x.st = .destroying then s.setCmdst c 1
  else
    let s1 := (((s.discardTiles c).dropWork c).abortMigrations c).flushSlices c
    let s2 : State := (List.range 16).foldl (fun t g => t.resetGroup c g) s1
    (s2.endShutters c).modCtx c (fun y => { y with
      st := .destroying, cmdst := 0, image := none, kernels := [], recordsWaiting := []
      queues := y.queues.map (fun (q, z) => (q, { z with st := .off, entries := [] }))
      pools := y.pools.map (fun (n, z) => (n, { z with live := false, blocks := [], seqs := [] })) })

/-- The release of a context in DESTROYING is complete: its posted writes have been acknowledged or lost, so that no write
of it is performed later. -/
def State.destroyed (s : State) (c : Nat) : Bool :=
  (s.ctxAt c).st == .destroying && s.nodes.all (fun (_, l) => l.unacked.all (fun p => p.ctx != c))

/-- DESTROY_COMPLETE: every register is reset, and the context is EMPTY. -/
def State.finishDestroy (s : State) (c : Nat) : State := if s.destroyed c then s.modCtx c (fun _ => {}) else s

/-! ### RESUME and FAIL (R210, R220) -/

/-- The key of the wave that an AGENT and a slot name. -/
def State.namedWave (s : State) (c agent slot : Nat) : Option Nat :=
  match (s.ctxAt c).coreOf agent with
  | none => none
  | some core =>
    let k := waveKey core slot
    match Cells.find s.waves k with
    | none => none
    | some w => if w.ctx = c ∧ slot < 128 then some k else none

/-- The place of the wave of a saved image that an AGENT and a slot name. -/
def Image.placeOf (im : Image) (agent slot : Nat) : Option Nat :=
  im.waves.findIdx? (fun w => w.core == agent && w.slot == slot)

/-- A wave waits for the fault service: SUSPENDED, or HALTED with a pending restartable fault. -/
def Wave.serviced (w : Wave) : Bool := w.life == .suspended || (w.life == .halted && w.pendingRec.isSome && w.pendingTrap.isNone)

/-- A pending record of a HALTED wave is queued (R220). -/
def State.queuePending (s : State) (k : Nat) : State :=
  match (s.waveAt k).pendingRec with
  | none => s
  | some r => (s.modWave k (fun w => { w with pendingRec := none })).queueRecord (s.waveAt k).ctx r

/-- Returns a wave to PENDING, or to what a halt or a pre-emption makes of it; the producer wave of a block whose prologue
faulted runs the prologue again (10_kernel.md R241). -/
def State.wakeWave (s : State) (k : Nat) : State :=
  let w := s.waveAt k
  let x := s.ctxAt w.ctx
  let life := match x.wakeLife w.core with
    | .halted => Life.halted
    | l => if x.st = .preempting then .stopped else l
  let t := s.modWave k (fun u => { u with life := life, blocked := none })
  match w.block with
  | none => t
  | some b => match Cells.find t.blocks b with
    | none => t
    | some blk => if blk.prologue then t else t.rerunPrologue b

/-- The context accepts RESUME and FAIL (R201). -/
def Context.serves (x : Context) : Bool := x.st == .running || x.st == .preempting || x.st == .saved

/-- RESUME. -/
def State.resumeWave (s : State) (c agent slot : Nat) : State :=
  let x := s.ctxAt c
  if !x.serves then s.setCmdst c 1
  else match x.image with
    | some im => match im.placeOf agent slot with
      | none => s.setCmdst c 5
      | some n => s.modCtx c (fun y => { y with
          cmdst := 0, image := some { im with waves := im.waves.modify n (fun w => { w with resumed := true }) } })
    | none => match s.namedWave c agent slot with
      | none => s.setCmdst c 5
      | some k =>
        if !(s.waveAt k).serviced then s.setCmdst c 5
        else (((s.queuePending k).wakeWave k)).setCmdst c 0

/-- FAIL of a wave of the saved image: its kernel ends where launch started it (10_kernel.md R254), else the image becomes the
inspection image. -/
def State.failSaved (s : State) (c : Nat) (im : Image) (w : Wave) : State :=
  let s1 := match w.pendingRec with
    | none => s
    | some r => s.queueRecord c r
  match (w.block.bind (Cells.find im.blocks)).bind s1.startedBy with
  | some id => (s1.markTree id 4).2
  | none => s1.modCtx c (fun y => { y with st := .faulted, lastcode := w.faultCode })

/-- FAIL of a wave on its core. -/
def State.failLive (s : State) (c k : Nat) : State :=
  let w := s.waveAt k
  let s1 := s.queuePending k
  match (w.block.bind (Cells.find s1.blocks)).bind s1.startedBy with
  | some id => s1.killLaunch id 4
  | none =>
    if (s1.ctxAt c).st = .running then s1.faultContext c w.faultCode
    else s1.modCtx c (fun y => { y with failWanted := some w.faultCode })

/-- FAIL. -/
def State.failWave (s : State) (c agent slot : Nat) : State :=
  let x := s.ctxAt c
  if !x.serves then s.setCmdst c 1
  else match x.image with
    | some im => match (im.placeOf agent slot).bind (fun n => im.waves[n]?) with
      | none => s.setCmdst c 5
      | some w => (s.failSaved c im w).setCmdst c 0
    | none => match s.namedWave c agent slot with
      | none => s.setCmdst c 5
      | some k => if !(s.waveAt k).serviced then s.setCmdst c 5 else (s.failLive c k).setCmdst c 0

/-- A command of CTX_CMD (R209, R210). -/
def State.ctxCommand (s : State) (c : Nat) (v : DWord) : State :=
  let n := v.toNat
  match n % 256 with
  | 1 => s.bindContext c
  | 2 => s.armContext c
  | 3 => s.runContext c
  | 4 => s.preemptCommand c
  | 5 => s.destroyContext c
  | 6 => s.resumeWave c (bitsOf n 47 36) (bitsOf n 35 29)
  | 7 => s.failWave c (bitsOf n 47 36) (bitsOf n 35 29)
  | _ => s.setCmdst c 5

/-! ### halt (R219, R220) -/

/-- halt.stop reaches a wave: at once, or in its next turn with what that turn brings (R220). -/
def State.haltWave (s : State) (k : Nat) : State :=
  s.modWave k (fun w =>
    if w.life ≠ .active ∧ w.life ≠ .pending then w
    else if w.life = .active ∧ w.ready ≠ 0 ∧ Config.haltMeets s.tick k then { w with halting := true }
    else { w with life := .halted })

/-- The waves of a context. -/
def State.wavesOf (s : State) (c : Nat) : List Nat := (s.waves.filter (fun (_, w) => w.ctx == c)).map (·.1)

/-- halt.stop: the flag is set, and the target's waves are HALTED at their next issue slots. -/
def State.haltStop (s : State) (c : Nat) : State :=
  if !(s.ctxAt c).serves then s
  else (s.wavesOf c).foldl State.haltWave (s.modCtx c (fun x => { x with halt := true }))

/-- A HALTED wave is released: a pending record is queued and the wave SUSPENDED, a pending trap is taken (R220), and else the wave
goes on (R142). -/
def State.releaseHalted (s : State) (k : Nat) : State :=
  let w := s.waveAt k
  let stops := decide ((s.ctxAt w.ctx).st = .preempting)
  let freed := s.modWave k (fun u => { u with life := if u.latency then .active else .pending })
  match w.pendingRec, w.pendingTrap with
  | some r, some h =>
    let t := (freed.modWave k (fun u => { u with pendingRec := none, pendingTrap := none })).enterTrap k h r
    if stops then t.stopWave k else t
  | some _, none => (s.queuePending k).modWave k (fun u => { u with life := .suspended })
  | none, _ => if stops then freed.stopWave k else freed

/-- halt.go. -/
def State.haltGo (s : State) (c : Nat) : State :=
  if !(s.ctxAt c).serves then s
  else
    let t := (s.modCtx c (fun x => { x with halt := false })).mapWaves (fun w => if w.ctx = c then { w with halting := false } else w)
    ((t.wavesOf c).filter (fun k => (t.waveAt k).life == .halted)).foldl State.releaseHalted t

/-! ### Debug registers (R219) -/

/-- An item that CTX_DBG_SEL selects in a wave: an empty register is no place to write. -/
def Wave.debugRead (w : Wave) (kind index lane : Nat) : Option Nat :=
  match kind with
  | 0 => if index < w.nv then some (w.regs.vGet index lane).toNat else none
  | 1 => if index < 64 then some (w.regs.sGet w.trapMode index).toNat else none
  | 2 => if index < 96 then some (b2n (w.regs.pGet w.trapMode index lane)) else none
  | 3 => if index < 12 then some (w.regs.mGet index).toNat else none
  | 4 => some (w.pcOf lane).toNat
  | 5 => some (Cells.get 0 w.entries lane).toNat
  | 6 => if index < 8 then some (((w.pendingRec.getD []).getD index 0).toNat) else none
  | _ => none

/-- Writes an item of a wave; none where the write is ignored. -/
def Wave.debugWrite (w : Wave) (kind index lane : Nat) (v : DWord) : Option Wave :=
  let n := v.toNat
  match kind with
  | 0 => if Cells.get false w.vEmpty (index * 32 + lane) then none else some (w.setV index lane (BitVec.ofNat 32 n))
  | 1 => if Cells.get false w.sEmpty (sIndex w.trapMode index) then none else some (w.setS index v)
  | 2 => some (w.setP index lane (bitOf n 0))
  | 3 => some (w.setM index (BitVec.ofNat 32 n)).settleMasks
  | 4 => some (w.setPcs [lane] (fun _ => v))
  | 5 => some (w.setEntries [lane] (fun _ => v))
  | _ => none

/-- The HALTED wave that CTX_DBG_SEL selects, with the selected kind, index and lane. -/
def State.debugSel (s : State) (c : Nat) : Option Nat × Nat × Nat × Nat :=
  let n := (s.ctxAt c).dbgSel.toNat
  ((s.namedWave c (bitsOf n 47 36) (bitsOf n 35 29)).filter (fun k => (s.waveAt k).life == .halted), bitsOf n 23 20, n % 256,
    bitsOf n 28 24)

/-- A read of CTX_DBG_DATA; what a reserved KIND, or an INDEX beyond the registers of the wave, reads as is a free value. -/
def State.debugRead (s : State) (c : Nat) : Nat × State :=
  match s.debugSel c with
  | (none, _, _, _) => (0, s.setCmdst c 1)
  | (some k, kind, index, lane) => (((s.waveAt k).debugRead kind index lane).getD (Config.debugWord s.tick).toNat, s)

/-- A write of CTX_DBG_DATA: one to KIND 6 is ignored and sets CMDST 1; at a reserved KIND, or an INDEX beyond the registers of the
wave, nothing is written. A lane that leaves m0 leaves its cohorts (11_group.md R257). -/
def State.debugWrite (s : State) (c : Nat) (v : DWord) : State :=
  match s.debugSel c with
  | (none, _, _, _) => s.setCmdst c 1
  | (some k, kind, index, lane) =>
    if kind = 6 then s.setCmdst c 1
    else if ((s.waveAt k).debugRead kind index lane).isNone then s
    else match (s.waveAt k).debugWrite kind index lane v with
      | none => s.setCmdst c 1
      | some w =>
        let t := s.modWave k (fun _ => w)
        if kind = 3 ∧ index = 0 then t.leaveAll k (~~~ w.m0) else t

/-! ### Registers of the context block (R209) -/

/-- The code of a context's state (R201). -/
def CtxState.code : CtxState → Nat
  | .empty => 0
  | .bound => 1
  | .runnable => 2
  | .running => 3
  | .preempting => 4
  | .saved => 5
  | .faulted => 6
  | .destroying => 7

/-- CTX_STATE. -/
def Context.stateWord (x : Context) : Nat := x.lastcode * 2 ^ 32 + x.cmdst * 2 ^ 24 + b2n x.quiescent * 65536 + x.st.code

/-- A read of a register of the block. -/
def State.ctxRead (s : State) (c num : Nat) : Nat × State :=
  let x := s.ctxAt c
  match num with
  | 0x00 => (x.stateWord, s)
  | 0x02 => (x.cfg.toNat, s)
  | 0x03 => (x.rect.toNat, s)
  | 0x04 => (x.lcores.toNat, s)
  | 0x05 => (x.slices0.toNat, s)
  | 0x06 => (x.slices1.toNat, s)
  | 0x07 => (x.quota.toNat, s)
  | 0x08 => (x.heapBase.toNat, s)
  | 0x09 => (x.heapLimit.toNat, s)
  | 0x0A => (x.heapOffset.toNat, s)
  | 0x0B => (x.ptroot.toNat, s)
  | 0x0C => (x.trapPc.toNat, s)
  | 0x0D => (x.fq.toNat, s)
  | 0x0E => (x.fqCons * 2 ^ 32 + x.fqProd, s)
  | 0x0F => (x.sliceTime.toNat, s)
  | 0x10 => (x.imageReg.toNat, s)
  | 0x11 => (x.imageSize, s)
  | 0x12 => (x.dbg.toNat, s)
  | 0x13 => (x.dbgSel.toNat, s)
  | 0x14 => s.debugRead c
  | 0x15 => (x.fpCtl.toNat, s)
  | 0x16 => (x.srSeed.toNat, s)
  | _ => (0, s)

/-- A write of CTX_RECT (R205). -/
def State.rectWrite (s : State) (c : Nat) (v : DWord) : State :=
  let x := s.ctxAt c
  let put : State := s.modCtx c (fun y => { y with rect := v &&& 0x3FFFF, cmdst := 0 })
  match x.st with
  | .empty => put
  | .bound => if rectShape v.toNat = rectShape x.rect.toNat then put else s.setCmdst c 3
  | .runnable => if rectShape v.toNat = rectShape x.rect.toNat then put else s.setCmdst c 3
  | .saved => if rectShape v.toNat = rectShape x.rect.toNat then put else s.setCmdst c 3
  | _ => s.setCmdst c 1

/-- A write of CTX_FQ_PTR (R214): CONS advances, and the records that waited for room are written. -/
def State.fqPtrWrite (s : State) (c : Nat) (v : DWord) : State :=
  let t := s.modCtx c (fun x => { x with fqCons := v.toNat / 2 ^ 32 })
  t.drainRecords c (t.ctxAt c).recordsWaiting.length

/-- The states in which a register of the block may be written (R209). -/
def ctxWritable (num : Nat) (st : CtxState) : Bool :=
  match num with
  | 0x01 => true
  | 0x02 => st == .empty
  | 0x03 => true
  | 0x04 => st == .empty || st == .bound || st == .runnable || st == .saved
  | 0x05 => st == .empty
  | 0x06 => st == .empty
  | 0x0D => st == .empty || st == .bound
  | 0x10 => st == .empty || st == .bound || st == .runnable
  | _ => st != .destroying

/-- The registers of the block that a LOCKED session locks (20_link.md R444). -/
def ctxLockable (num : Nat) : Bool := [0x03, 0x05, 0x06, 0x07, 0x08, 0x09, 0x0A, 0x0B, 0x13, 0x14].contains num

/-- A write of a register of the block. CTX_QUOTA takes any value, also a QC above 2^30 or a QL above 2^24, for which R209 gives no
effect (log 84). -/
def State.ctxWrite (s : State) (c num : Nat) (v : DWord) : State :=
  if ctxLockable num && s.locked c then s.setCmdst c 1
  else if !ctxWritable num (s.ctxAt c).st then s.setCmdst c 1
  else match num with
    | 0x01 => s.ctxCommand c v
    | 0x02 => s.modCtx c (fun x => { x with cfg := v &&& 0x13F })
    | 0x03 => s.rectWrite c v
    | 0x04 => s.modCtx c (fun x => { x with lcores := v, cmdst := 0 })
    | 0x05 => s.modCtx c (fun x => { x with slices0 := v, cmdst := 0 })
    | 0x06 => s.modCtx c (fun x => { x with slices1 := v, cmdst := 0 })
    | 0x07 => s.modCtx c (fun x => { x with quota := v &&& 0x3FFFFFFF81FFFFFF, cmdst := 0 })
    | 0x08 => s.modCtx c (fun x => { x with heapBase := v &&& 0xFFFFFFFFFFFF0000 })
    | 0x09 => s.modCtx c (fun x => { x with heapLimit := v &&& 0xFFFFFFFFFFFF0000 })
    | 0x0A => s.modCtx c (fun x => { x with heapOffset := v &&& 0xFFFFFFFFFFFF0000 })
    | 0x0B => s.modCtx c (fun x => { x with ptroot := v &&& 0x000FFFFFFFFFF000 })
    | 0x0C => s.modCtx c (fun x => { x with trapPc := v &&& 0xFFFFFFFFFFFFFFF8 })
    | 0x0D => s.modCtx c (fun x => { x with fq := v &&& 0x000FFFFFFFFFF00F })
    | 0x0E => s.fqPtrWrite c v
    | 0x0F => s.modCtx c (fun x => { x with sliceTime := v &&& 0xFFFFFFFF })
    | 0x10 => s.modCtx c (fun x => { x with imageReg := v &&& 0x000FFFFFFFFF0000 })
    | 0x12 => s.modCtx c (fun x => { x with dbg := v &&& 1 })
    | 0x13 => s.modCtx c (fun x => { x with dbgSel := v &&& 0x0000FFFFFFF000FF })
    | 0x14 => s.debugWrite c v
    | 0x15 => s.modCtx c (fun x => { x with fpCtl := v &&& 7 })
    | 0x16 => s.modCtx c (fun x => { x with srSeed := v })
    | _ => s

/-! ### Events -/

/-- BIND (R201). -/
def execBind (ctx : Nat) (s : State) : Host.Outcome State Fault Refusal := .next (s.bindContext ctx)
/-- ARM (R201). -/
def execArm (ctx : Nat) (s : State) : Host.Outcome State Fault Refusal := .next (s.armContext ctx)
/-- RUN (R205): one that waits for a save is tried again. -/
def execRun (ctx : Nat) (s : State) : Host.Outcome State Fault Refusal :=
  .next (if s.runWaits ctx then s.post (.run ctx) else s.runContext ctx)
/-- PREEMPT (R217). -/
def execPreempt (ctx : Nat) (s : State) : Host.Outcome State Fault Refusal := .next (s.preemptCommand ctx)
/-- DESTROY (R203). -/
def execDestroy (ctx : Nat) (s : State) : Host.Outcome State Fault Refusal := .next (s.destroyContext ctx)
/-- RESUME (R210). -/
def execResume (ctx agent slot : Nat) (s : State) : Host.Outcome State Fault Refusal := .next (s.resumeWave ctx agent slot)
/-- FAIL (R210). -/
def execFail (ctx agent slot : Nat) (s : State) : Host.Outcome State Fault Refusal := .next (s.failWave ctx agent slot)
/-- SLICE_EXPIRY (R217). -/
def execSliceExpiry (ctx : Nat) (s : State) : Host.Outcome State Fault Refusal := .next (s.sliceExpires ctx)
/-- PREEMPT_COMPLETE (R217). -/
def execPreemptComplete (ctx : Nat) (s : State) : Host.Outcome State Fault Refusal := .next (s.saveContext ctx)
/-- DESTROY_COMPLETE (R203). -/
def execDestroyComplete (ctx : Nat) (s : State) : Host.Outcome State Fault Refusal := .next (s.finishDestroy ctx)
/-- CTX_RECT_WRITE (R205). -/
def execCtxRectWrite (ctx : Nat) (value : DWord) (s : State) : Host.Outcome State Fault Refusal := .next (s.ctxWrite ctx 3 value)
/-- CTX_FQ_PTR_WRITE (R214). -/
def execCtxFqPtrWrite (ctx : Nat) (value : DWord) (s : State) : Host.Outcome State Fault Refusal :=
  .next (s.ctxWrite ctx 0x0E value)
/-- CTX_DBG_DATA_ACCESS (R219): a read sends out the value. -/
def execCtxDbgDataAccess (ctx : Nat) (write : Option DWord) (s : State) : Host.Outcome State Fault Refusal :=
  .next (match write with
    | some v => s.ctxWrite ctx 0x14 v
    | none =>
      let (n, t) := s.debugRead ctx
      t.send (.registerValue (BitVec.ofNat 64 n)))

/-- What is owed to contexts that stop or end. -/
def State.contextEvents (s : State) : List Instr :=
  s.ctxs.filterMap (fun (c, _) =>
    if s.saveable c then some (.preemptComplete c) else if s.destroyed c then some (.destroyComplete c) else none)

end Sys2Proof.Machine
end

