-- ==== Sys2Proof/Machine/Control.lean ====
section
/-! DEFINITION. The control instructions (05_wave.md R123 to R131). -/

namespace Sys2Proof.Machine

open Sys2Proof

/-! ### Shared operations -/

/-- Lanes go to addresses of their own once the instruction has issued. -/
def State.jump (s : State) (e : Env) (lanes : List Nat) (target : Nat → DWord) : State :=
  (s.advance e).modWave e.key (fun w => w.setPcs lanes target)

/-- The target of bra and call (R124). -/
def branchTarget (e : Env) : DWord := e.pc + BitVec.ofInt 64 (8 * e.f.ofs)

/-- The source of brx and ret: a v pair, an s register, or a literal of selector 0 (R125). -/
def targetSpec : OpSpec :=
  { fa := .source { ty := 11, iconst := false, fconst := false, special := false, lits := [0] } }

/-- brx and ret (R125): MISALIGN where an active lane's address is not a multiple of 8. -/
def runBranchTo (f : FWord) (s : State) : Host.Outcome State Fault Refusal :=
  runWord targetSpec f s (fun e t =>
    match (laneList e.act).find? (fun l => decide (t.value e 11 f.fa l % 8 ≠ 0)) with
    | some l => t.raise e { code := 4, lane := l, addr := t.value e 11 f.fa l }
    | none => t.jump e (laneList e.act) (fun l => BitVec.ofNat 64 (t.value e 11 f.fa l)))

/-- The number of a mask that a field names (R58). -/
def maskNumber (x : Field) : Nat := x.toNat % 64 - 0x10

/-- A word with the one operand of a mask to write. -/
def maskSpec : OpSpec := { fd := .maskReg true }

/-- Changes a mask register of the issuing wave. -/
def State.modMask (s : State) (e : Env) (k : Nat) (f : Word → Word) : State :=
  s.modWave e.key (fun w => w.setM k (f (w.regs.mGet k)))

/-- The op of mop (R130). -/
def maskOp (op : Nat) (a b : Word) : Word :=
  match op with
  | 0 => a &&& b
  | 1 => a ||| b
  | 2 => a &&& ~~~ b
  | _ => a ^^^ b

/-- A pending wave of a wave's pane is ready (R131, R141). -/
def State.pendingReady (s : State) (w : Wave) : Bool :=
  s.waves.any (fun (_, x) => x.core == w.core && x.slot / 32 == w.slot / 32 && decide (x.life = .pending) &&
    x.blocked.isNone && decide (x.ready ≠ 0))

/-- The encoding rules of bra and call (R124), bkpt (R131), waitm (R128), mset and mop (R130). -/
def braSpec : OpSpec := { fa := .offset, fb := .offset, fc := .offset }
def callSpec : OpSpec := { fd := .dest { ty := 11 }, fa := .offset, fb := .offset, fc := .offset }
def bkptSpec : OpSpec := { fc := .quals, qBits := 255 }
def waitmSpec : OpSpec := { fa := .maskReg false }
def msetSpec : OpSpec := { fd := .maskReg true, fa := .source (Gen.uniform 10) }
def mopSpec : OpSpec :=
  { fd := .maskReg true, fa := .source (Gen.uniform 10), fb := .source (Gen.uniform 10), fc := .quals, qBits := 3 }

/-- The effect of exit on its lanes (R126): they leave m0 to m11 and their cohorts; with m0 empty the wave is ENDING. -/
def State.endLanes (s : State) (e : Env) : State :=
  let s1 := s.modWave e.key (fun w =>
    (List.range 12).foldl (fun u k => u.setM k (u.regs.mGet k &&& ~~~ e.act)) w)
  let s2 := s1.leaveAll e.key e.act
  if (s2.waveAt e.key).m0 = 0 then
    let b := (s2.waveAt e.key).block
    ((s2.modWave e.key (fun w => { w with life := .ending })).wakeOps (fun o => o.block == b && b.isSome))
  else s2

/-! ### Meanings -/

/-- bra (R124). -/
def execBra (f : FWord) (s : State) : Host.Outcome State Fault Refusal :=
  runWord braSpec f s (fun e t =>
    t.jump e (laneList e.act) (fun _ => branchTarget e))

/-- brx (R125). -/
def execBrx (f : FWord) (s : State) : Host.Outcome State Fault Refusal := runBranchTo f s

/-- call (R124): the link first, then the branch. -/
def execCall (f : FWord) (s : State) : Host.Outcome State Fault Refusal :=
  runWord callSpec f s (fun e t =>
    (t.writeLanes e 11 (fun _ => (e.pc + 8).toNat)).jump e (laneList e.act) (fun _ => branchTarget e))

/-- ret (R125). -/
def execRet (f : FWord) (s : State) : Host.Outcome State Fault Refusal := runBranchTo f s

/-- exit (R126): an implicit region boundary, then the lanes end. -/
def execExit (f : FWord) (s : State) : Host.Outcome State Fault Refusal :=
  runWord {} f s (fun e t =>
    (t.atBoundary e (fun _ => .ok) (fun v => v.endLanes e)).tryLeave e.key)

/-- region: the explicit region boundary (R132). -/
def execRegion (f : FWord) (s : State) : Host.Outcome State Fault Refusal :=
  runWord {} f s (fun e t => t.atBoundary e (fun _ => .ok) id)

/-- yield (R131): on a latency core, and where no pending wave of the pane is ready, it acts as nop. -/
def execYield (f : FWord) (s : State) : Host.Outcome State Fault Refusal :=
  runPlain {} f s (fun e t =>
    let w := t.waveAt e.key
    if w.latency || decide (w.life ≠ .active) || !t.pendingReady w then t
    else
      let (n, t1) := t.fresh
      t1.modWave e.key (fun u => { u with life := .pending, age := n }))

/-- bkpt (R131, 08_context.md R219): where breakpoints are armed the wave is HALTED behind the instruction. Its record, which has no
class, waits for room in a full fault queue like one of class F (log 85). -/
def execBkpt (f : FWord) (s : State) : Host.Outcome State Fault Refusal :=
  runWord bkptSpec f s (fun e t =>
    if bitOf (t.ctxOf e).dbg.toNat 0 then
      let (word, ext) := t.issueWords
      let r := t.recordOf e.key e.pc word ext { code := 0, detail := f.q }
      ((t.advance e).modWave e.key (fun w => { w with life := .halted })).queueRecord (t.waveAt e.key).ctx r
    else t.advance e)

/-- join (R127). -/
def execJoin (f : FWord) (s : State) : Host.Outcome State Fault Refusal :=
  runPlain maskSpec f s (fun e t => t.modMask e (maskNumber f.fd) (fun m => m ||| e.act))

/-- leave (R127). -/
def execLeave (f : FWord) (s : State) : Host.Outcome State Fault Refusal :=
  runPlain maskSpec f s (fun e t => t.modMask e (maskNumber f.fd) (fun m => m &&& ~~~ e.act))

/-- waitm (R128): the active members wait; the issue's end looks at every waitm again, so that the last to arrive
releases all. -/
def execWaitm (f : FWord) (s : State) : Host.Outcome State Fault Refusal :=
  let k := maskNumber f.fa
  runPlain waitmSpec f s (fun e t =>
    t.modWave e.key (fun w =>
      let members := e.act &&& w.regs.mGet k &&& w.m0
      if members = 0 then w
      else { w with waits := w.waits ++ [{ lanes := members, pc := e.pc, size := e.size, sd := 0, obj := .mask k }] }))

/-- mset (R130). -/
def execMset (f : FWord) (s : State) : Host.Outcome State Fault Refusal :=
  runPlain msetSpec f s (fun e t =>
    t.modMask e (maskNumber f.fd) (fun _ => BitVec.ofNat 32 (t.uvalue e 10 f.fa)))

/-- mop (R130). -/
def execMop (f : FWord) (s : State) : Host.Outcome State Fault Refusal :=
  runPlain mopSpec f s (fun e t => t.modMask e (maskNumber f.fd) (fun _ =>
    maskOp (f.q % 4) (BitVec.ofNat 32 (t.uvalue e 10 f.fa)) (BitVec.ofNat 32 (t.uvalue e 10 f.fb))))

/-- nop (R131). -/
def execNop (f : FWord) (s : State) : Host.Outcome State Fault Refusal := runPlain {} f s (fun _ t => t)

end Sys2Proof.Machine
end

