-- ==== Sys2Proof/Machine/Integer.lean ====
section
/-! DEFINITION. The integer and address instructions (04_compute_instructions.md R88 to R98). -/

namespace Sys2Proof.Machine

open Sys2Proof

/-! ### Encodings (R88) -/

/-- I and N types. -/
def typesIN : List Nat := typesI ++ typesN

/-- vd, va, vb of one type; FC is Q. -/
def intSpec2 (f : FWord) (ok : List Nat) (qBits modBits : Nat) : OpSpec :=
  { fd := .dest (Gen.src f.tcode), fa := .source (Gen.src f.tcode), fb := .source (Gen.src f.tcode), fc := .quals,
    qBits := qBits, modBits := modBits, typing := .codes ok }

/-- vd, va, vb, vc of one type. -/
def intSpec3 (f : FWord) (ok : List Nat) (modBits : Nat) : OpSpec :=
  { fd := .dest (Gen.src f.tcode), fa := .source (Gen.src f.tcode), fb := .source (Gen.src f.tcode),
    fc := .source (Gen.src f.tcode), modBits := modBits, typing := .codes ok }

/-- vd, va of one type. -/
def intSpec1 (f : FWord) (ok : List Nat) (modBits : Nat) : OpSpec :=
  { fd := .dest (Gen.src f.tcode), fa := .source (Gen.src f.tcode), fc := .quals, modBits := modBits,
    typing := .codes ok }

/-- vd, va of one type, vb a 32-bit operand (R93, R94, R95). -/
def intSpecShift (f : FWord) (ok : List Nat) (qBits : Nat) : OpSpec :=
  { intSpec2 f ok qBits 0 with fb := .source (Gen.src 10) }

/-! ### Shared computations -/

/-- The three sources of a lane as numbers of the type. -/
def State.ints (s : State) (e : Env) (f : FWord) (l : Nat) : Int × Int × Int :=
  (intOf f.tcode (s.value e f.tcode f.fa l), intOf f.tcode (s.value e f.tcode f.fb l),
   intOf f.tcode (s.value e f.tcode f.fc l))

/-- The raw bits of source a and source b of a lane. -/
def State.bits2 (s : State) (e : Env) (f : FWord) (l : Nat) : Nat × Nat :=
  (s.value e f.tcode f.fa l, s.value e f.tcode f.fb l)

/-- Two integer sources, an exact result, narrowed as MOD[0] says (R89). -/
def runInt2 (f : FWord) (s : State) (op : Int → Int → Int) : Host.Outcome State Fault Refusal :=
  runLanes (intSpec2 f typesIN 0 1) f s f.tcode (fun t e l =>
    let (a, b, _) := t.ints e f l
    narrow f.tcode (bitOf f.mod 0) (op a b))

/-- The upper half of the exact double-width product (R90). -/
def mulHigh (ty : Nat) (a b : Int) : Int := (a * b) / ((2 ^ typeWidth ty : Nat) : Int)

/-- Quotient and remainder of R91, as bits of the type. -/
def divide (ty a b : Nat) : Nat × Nat :=
  let w := typeWidth ty
  if b = 0 then (2 ^ w - 1, a)
  else
    let x := intOf ty a
    let y := intOf ty b
    (wrapI w (Int.tdiv x y), wrapI w (x - y * Int.tdiv x y))

/-- div and rem (R91): ARITH on a zero divisor in an active lane, unless .nt. -/
def runDivide (f : FWord) (s : State) (pick : Nat × Nat → Nat) : Host.Outcome State Fault Refusal :=
  runWord (intSpec2 f typesIN 0 1) f s (fun e t =>
    match (laneList e.act).find? (fun l => t.value e f.tcode f.fb l == 0) with
    | some l => if bitOf f.mod 0 then
          (t.writeLanes e f.tcode (fun l => pick (divide f.tcode (t.value e f.tcode f.fa l) (t.value e f.tcode f.fb l)))).advance e
        else t.raise e { code := 5, lane := l }
    | none =>
      (t.writeLanes e f.tcode (fun l => pick (divide f.tcode (t.value e f.tcode f.fa l) (t.value e f.tcode f.fb l)))).advance e)

/-- The encoding rules of addc and subb (R92). -/
def carrySpec (f : FWord) : OpSpec := { intSpec2 f [6, 7] 0 0 with fc := .pred 1 }

/-- addc and subb (R92): the sum or difference with the carry in, and the carry out, which with an s destination is
computed once (R51). -/
def runCarry (f : FWord) (s : State) (op : Int → Int → Int → Int) (out : Nat → Int → Bool) :
    Host.Outcome State Fault Refusal :=
  let p := carrySpec f
  runPlain p f s (fun e t =>
    let exact (l : Nat) : Int :=
      op (t.value e f.tcode f.fa l) (t.value e f.tcode f.fb l) (b2n (t.pred e f.fc.toNat l))
    let from' (l : Nat) : Nat := if p.sDest f then lowestLane e.act else l
    (laneList e.act).foldl (fun u l => u.setPred e f.fc.toNat l (out (typeWidth f.tcode) (exact (from' l))))
      (t.writeLanes e f.tcode (fun l => wrapI (typeWidth f.tcode) (exact l))))

/-- A bitwise operation on two B sources (R94). -/
def runLogic (f : FWord) (s : State) (op : Nat → Nat → Nat → Nat) : Host.Outcome State Fault Refusal :=
  runLanes (intSpec2 f typesB 0 0) f s f.tcode (fun t e l =>
    let (a, b) := t.bits2 e f l
    op (typeWidth f.tcode) a b)

/-- A shift or rotate (R94): the count is a 32-bit operand. -/
def runShift (f : FWord) (s : State) (ok : List Nat) (qBits : Nat) (op : Nat → Nat → Nat → Nat) :
    Host.Outcome State Fault Refusal :=
  runLanes (intSpecShift f ok qBits) f s f.tcode (fun t e l =>
    op (typeWidth f.tcode) (t.value e f.tcode f.fa l) (t.value e 10 f.fb l))

/-- The encoding rules of popc, clz and ctz (R95). -/
def countSpec (f : FWord) : OpSpec := { intSpec1 f typesB 0 with fd := .dest (Gen.src 6) }

/-- A count of bits of a B source, as a 32-bit natural number (R95). -/
def runCount (f : FWord) (s : State) (op : Nat → Nat → Nat) : Host.Outcome State Fault Refusal :=
  runLanes (countSpec f) f s 6 (fun t e l =>
    op (typeWidth f.tcode) (t.value e f.tcode f.fa l))

/-- A left shift by any count (R94). -/
def shiftLeft (w a k : Nat) : Nat := if w ≤ k then 0 else (a * 2 ^ k) % 2 ^ w
/-- A logical right shift (R94). -/
def shiftRight (w a k : Nat) : Nat := if w ≤ k then 0 else a / 2 ^ k
/-- An arithmetic right shift (R94). -/
def shiftArith (w a k : Nat) : Nat := wrapI w (signedOf w a / ((2 ^ Nat.min k w : Nat) : Int))
/-- A rotation to the left by any count (R94). -/
def rotateLeft (w a k : Nat) : Nat := (a * 2 ^ (k % w)) % 2 ^ w + a / 2 ^ (w - k % w)
/-- A rotation (R94): to the right is to the left by the rest. -/
def rotate (right : Bool) (w a k : Nat) : Nat := rotateLeft w a (if right then w - k % w else k)

/-- The number that has the given bits below `n`. -/
def ofBits (n : Nat) (f : Nat → Bool) : Nat := (List.range n).foldl (fun x i => x + b2n (f i) * 2 ^ i) 0

/-- bfe (R95): position and length from the control word. -/
def bitExtract (ty a ctl : Nat) : Nat :=
  let w := typeWidth ty
  let pos := bitsOf ctl 7 0
  let len := Nat.min (bitsOf ctl 15 8) w
  let bit (j : Nat) : Bool := if j < w then bitOf a j else typeSigned ty && bitOf a (w - 1)
  let d := ofBits len (fun i => bit (pos + i))
  if typeSigned ty && decide (0 < len) then wrapI w (signedOf len d) else d

/-- bfi (R95). -/
def bitInsert (w a b ctl : Nat) : Nat :=
  let pos := bitsOf ctl 7 0
  let len := Nat.min (bitsOf ctl 15 8) w
  ofBits w (fun j => if pos ≤ j ∧ j < pos + len then bitOf a (j - pos) else bitOf b j)

/-- The set bits of a number. -/
def popCount (w a : Nat) : Nat := ((List.range w).filter (fun i => bitOf a i)).length
/-- The zero bits above the highest set bit. -/
def leadingZeros (w a : Nat) : Nat := if a = 0 then w else w - 1 - Nat.log2 a
/-- The zero bits below the lowest set bit. -/
def trailingZeros (w a : Nat) : Nat := ((List.range w).find? (fun i => bitOf a i)).getD w
/-- The bits in reverse order. -/
def bitReverse (w a : Nat) : Nat := ofBits w (fun i => bitOf a (w - 1 - i))

/-- One result byte of prmt under a control byte (R95). -/
def permuteByte (a b ctl : Nat) : Nat :=
  let j := ctl % 8
  let y := if j < 4 then bitsOf a (8 * j + 7) (8 * j) else bitsOf b (8 * (j - 4) + 7) (8 * (j - 4))
  match bitsOf ctl 4 3 with
  | 0 => y
  | 1 => bitReverse 8 y
  | 2 => 0
  | _ => 0xFF

/-- prmt (R95). -/
def permute (a b c : Nat) : Nat :=
  (List.range 4).foldl (fun x k => x + permuteByte a b (bitsOf c (8 * k + 7) (8 * k)) * 2 ^ (8 * k)) 0

/-! ### Meanings -/

/-- add (R89). -/
def execAdd (f : FWord) (s : State) : Host.Outcome State Fault Refusal := runInt2 f s (fun a b => a + b)
/-- sub (R89). -/
def execSub (f : FWord) (s : State) : Host.Outcome State Fault Refusal := runInt2 f s (fun a b => a - b)
/-- mul (R89). -/
def execMul (f : FWord) (s : State) : Host.Outcome State Fault Refusal := runInt2 f s (fun a b => a * b)

/-- mulhi (R90). -/
def execMulhi (f : FWord) (s : State) : Host.Outcome State Fault Refusal :=
  runLanes (intSpec2 f typesIN 0 0) f s f.tcode (fun t e l =>
    let (a, b, _) := t.ints e f l
    wrapI (typeWidth f.tcode) (mulHigh f.tcode a b))

/-- mad (R89). -/
def execMad (f : FWord) (s : State) : Host.Outcome State Fault Refusal :=
  runLanes (intSpec3 f typesIN 1) f s f.tcode (fun t e l =>
    let (a, b, c) := t.ints e f l
    narrow f.tcode (bitOf f.mod 0) (a * b + c))

/-- madhi (R90). -/
def execMadhi (f : FWord) (s : State) : Host.Outcome State Fault Refusal :=
  runLanes (intSpec3 f typesIN 0) f s f.tcode (fun t e l =>
    let (a, b, c) := t.ints e f l
    wrapI (typeWidth f.tcode) (mulHigh f.tcode a b + c))

/-- div (R91). -/
def execDiv (f : FWord) (s : State) : Host.Outcome State Fault Refusal := runDivide f s (·.1)
/-- rem (R91). -/
def execRem (f : FWord) (s : State) : Host.Outcome State Fault Refusal := runDivide f s (·.2)

/-- min, in the order of the type (R89). -/
def execMin (f : FWord) (s : State) : Host.Outcome State Fault Refusal :=
  runLanes (intSpec2 f typesIN 0 0) f s f.tcode (fun t e l =>
    let (a, b, _) := t.ints e f l
    wrapI (typeWidth f.tcode) (if b < a then b else a))

/-- max, in the order of the type (R89). -/
def execMax (f : FWord) (s : State) : Host.Outcome State Fault Refusal :=
  runLanes (intSpec2 f typesIN 0 0) f s f.tcode (fun t e l =>
    let (a, b, _) := t.ints e f l
    wrapI (typeWidth f.tcode) (if a < b then b else a))

/-- abs (R89). -/
def execAbs (f : FWord) (s : State) : Host.Outcome State Fault Refusal :=
  runLanes (intSpec1 f typesI 1) f s f.tcode (fun t e l =>
    let (a, _, _) := t.ints e f l
    narrow f.tcode (bitOf f.mod 0) (if a < 0 then -a else a))

/-- neg (R89). -/
def execNeg (f : FWord) (s : State) : Host.Outcome State Fault Refusal :=
  runLanes (intSpec1 f typesI 1) f s f.tcode (fun t e l =>
    let (a, _, _) := t.ints e f l
    narrow f.tcode (bitOf f.mod 0) (-a))

/-- addc (R92). -/
def execAddc (f : FWord) (s : State) : Host.Outcome State Fault Refusal :=
  runCarry f s (fun a b k => a + b + k) carryOut
/-- subb (R92). -/
def execSubb (f : FWord) (s : State) : Host.Outcome State Fault Refusal :=
  runCarry f s (fun a b k => a - b - k) (fun _ x => borrowOut x)

/-- The type of lea's index (R93). -/
def leaIndex (f : FWord) : Nat := if f.mod = 0 then f.tcode else 10

/-- The encoding rules of lea (R93). -/
def leaSpec (f : FWord) : OpSpec :=
  { intSpec2 f [6, 7] 7 3 with
    fb := .source (Gen.src (leaIndex f))
    reserved := f.mod == 3
    illegal := decide (f.mod ≠ 0) && f.tcode == 6 }

/-- lea (R93): the index is taken as MOD says, scaled by 2^sh. -/
def execLea (f : FWord) (s : State) : Host.Outcome State Fault Refusal :=
  runLanes (leaSpec f) f s f.tcode (fun t e l =>
    let b := t.value e (leaIndex f) f.fb l
    let x : Int := if f.mod = 1 then signedOf 32 b else b
    wrapI (typeWidth f.tcode) (t.value e f.tcode f.fa l + x * ((2 ^ (f.q % 8) : Nat) : Int)))

/-- and (R94). -/
def execAnd (f : FWord) (s : State) : Host.Outcome State Fault Refusal := runLogic f s (fun _ a b => Nat.land a b)
/-- or (R94). -/
def execOr (f : FWord) (s : State) : Host.Outcome State Fault Refusal := runLogic f s (fun _ a b => Nat.lor a b)
/-- xor (R94). -/
def execXor (f : FWord) (s : State) : Host.Outcome State Fault Refusal := runLogic f s (fun _ a b => Nat.xor a b)
/-- andn: a AND NOT b (R94). -/
def execAndn (f : FWord) (s : State) : Host.Outcome State Fault Refusal :=
  runLogic f s (fun w a b => Nat.land a (2 ^ w - 1 - b))

/-- not (R94). -/
def execNot (f : FWord) (s : State) : Host.Outcome State Fault Refusal :=
  runLanes (intSpec1 f typesB 0) f s f.tcode (fun t e l => 2 ^ typeWidth f.tcode - 1 - t.value e f.tcode f.fa l)

/-- shl (R94). -/
def execShl (f : FWord) (s : State) : Host.Outcome State Fault Refusal := runShift f s typesB 0 shiftLeft
/-- shr (R94). -/
def execShr (f : FWord) (s : State) : Host.Outcome State Fault Refusal := runShift f s typesB 0 shiftRight
/-- sar (R94). -/
def execSar (f : FWord) (s : State) : Host.Outcome State Fault Refusal := runShift f s typesI 0 shiftArith
/-- rot (R94). -/
def execRot (f : FWord) (s : State) : Host.Outcome State Fault Refusal := runShift f s typesB 1 (rotate (bitOf f.q 0))

/-- bfe (R95). -/
def execBfe (f : FWord) (s : State) : Host.Outcome State Fault Refusal :=
  runLanes (intSpecShift f [2, 6, 3, 7] 0) f s f.tcode (fun t e l =>
    bitExtract f.tcode (t.value e f.tcode f.fa l) (t.value e 10 f.fb l))

/-- The encoding rules of bfi (R95). -/
def bfiSpec (f : FWord) : OpSpec := { intSpec3 f [10, 11] 0 with fc := .source (Gen.src 10) }

/-- bfi (R95). -/
def execBfi (f : FWord) (s : State) : Host.Outcome State Fault Refusal :=
  runLanes (bfiSpec f) f s f.tcode (fun t e l =>
    let (a, b) := t.bits2 e f l
    bitInsert (typeWidth f.tcode) a b (t.value e 10 f.fc l))

/-- popc (R95). -/
def execPopc (f : FWord) (s : State) : Host.Outcome State Fault Refusal := runCount f s popCount
/-- clz (R95). -/
def execClz (f : FWord) (s : State) : Host.Outcome State Fault Refusal := runCount f s leadingZeros
/-- ctz (R95). -/
def execCtz (f : FWord) (s : State) : Host.Outcome State Fault Refusal := runCount f s trailingZeros

/-- brev (R95). -/
def execBrev (f : FWord) (s : State) : Host.Outcome State Fault Refusal :=
  runLanes (intSpec1 f typesB 0) f s f.tcode (fun t e l =>
    bitReverse (typeWidth f.tcode) (t.value e f.tcode f.fa l))

/-- prmt (R95). -/
def execPrmt (f : FWord) (s : State) : Host.Outcome State Fault Refusal :=
  runLanes (intSpec3 f [10] 0) f s f.tcode (fun t e l =>
    let (a, b) := t.bits2 e f l
    permute a b (t.value e f.tcode f.fc l))

/-- The encoding rules of sel (R96). -/
def selSpec (f : FWord) : OpSpec := { intSpec2 f (List.range 16) 0 0 with fc := .pred 1 }

/-- sel (R96): the predicate is read in each lane, with an s destination in the lowest active one. -/
def execSel (f : FWord) (s : State) : Host.Outcome State Fault Refusal :=
  runLanes (selSpec f) f s f.tcode (fun t e l =>
    if t.pred e f.fc.toNat l then t.value e f.tcode f.fa l else t.value e f.tcode f.fb l)

/-- The encoding rules of cmp (R96). -/
def cmpSpec (f : FWord) : OpSpec :=
  { intSpec2 f (typesIN ++ typesB) 7 0 with
    fd := .pred 1
    reserved := decide (6 ≤ f.q % 8)
    illegal := typesB.contains f.tcode && decide (2 ≤ f.q % 8) }

/-- cmp (R96). -/
def execCmp (f : FWord) (s : State) : Host.Outcome State Fault Refusal :=
  runPreds (cmpSpec f) f s (fun t e l =>
    let (a, b, _) := t.ints e f l
    cmpTrue f.q a b)

/-- mov (R97). -/
def execMov (f : FWord) (s : State) : Host.Outcome State Fault Refusal :=
  runLanes (intSpec1 f (List.range 16) 0) f s f.tcode (fun t e l => t.value e f.tcode f.fa l)

/-- A type that cvt takes (R98). -/
def intCvtType (c : Nat) : Bool := decide (c < 8) || typesF.contains c

/-- cvt between two integer types (R98). -/
def intCvtInts (f : FWord) : Bool := decide (f.tcode < 8) && decide (bitsOf f.q 7 3 < 8)

/-- The encoding rules of cvt (R98). -/
def intCvtSpec (f : FWord) : OpSpec :=
  let tt := f.tcode
  let st := bitsOf f.q 7 3
  let rnd := f.q % 8
  { intSpec1 f (List.range 16) 0 with
    fa := .source (Gen.src st)
    qBits := 511
    reserved := decide (25 ≤ st) || (bitOf f.q 8 && !intCvtInts f) || decide (6 ≤ rnd) || (intCvtInts f && decide (rnd ≠ 0))
    illegal := !(intCvtType tt && intCvtType st && (decide (tt < 8) || decide (st < 8))) || tt == st || (!intCvtInts f && rnd == 4) }

/-- cvt (R98, R40): the value of a type in another type, one of the two an integer type. -/
def intCvtValue (tt st : Nat) (ints sat : Bool) (md : Rnd) (x : Nat) : Nat :=
  if ints then (if sat then saturate tt (intOf st x) else wrapI (typeWidth tt) (intOf st x))
  else match fmtOf st, fmtOf tt with
    | some a, _ => convertInt (typeSigned tt) (typeWidth tt) (a.decode x) md
    | _, some b => convert b (FVal.ofInt (intOf st x)) md false
    | _, _ => 0

/-- cvt (R98, R40): to and from integer types. -/
def execCvt (f : FWord) (s : State) : Host.Outcome State Fault Refusal :=
  runLanes (intCvtSpec f) f s f.tcode (fun t e l =>
    let st := bitsOf f.q 7 3
    intCvtValue f.tcode st (intCvtInts f) (bitOf f.q 8) (t.roundMode e (f.q % 8) 0) (t.value e st f.fa l))

end Sys2Proof.Machine
end

