-- ==== Sys2Proof/Machine/Dual.lean ====
section
/-! DEFINITION. The D word (03_encoding.md R62 to R65): two short operations, each with the effect of an F word. -/

namespace Sys2Proof.Machine

open Sys2Proof

/-- What a D opcode computes from its two sources, under FTZ (R65). -/
def dualOp (dop : Nat) : Option (Bool → Nat → Nat → Nat) :=
  let i32 (op : Int → Int → Int) (_ : Bool) (a b : Nat) : Nat := wrapI 32 (op (signedOf 32 a) (signedOf 32 b))
  match dop with
  | 0x01 => some (i32 (fun a b => a + b))
  | 0x02 => some (i32 (fun a b => a - b))
  | 0x03 => some (i32 (fun a b => a * b))
  | 0x04 => some (i32 (fun a b => if b < a then b else a))
  | 0x05 => some (i32 (fun a b => if a < b then b else a))
  | 0x06 => some (fun _ a b => if b < a then b else a)
  | 0x07 => some (fun _ a b => if a < b then b else a)
  | 0x08 => some (fun _ a b => Nat.land a b)
  | 0x09 => some (fun _ a b => Nat.lor a b)
  | 0x0A => some (fun _ a b => Nat.xor a b)
  | 0x0B => some (fun _ a b => Nat.land a (2 ^ 32 - 1 - b))
  | 0x0C => some (fun _ a b => shiftLeft 32 a b)
  | 0x0D => some (fun _ a b => shiftRight 32 a b)
  | 0x0E => some (fun _ a b => shiftArith 32 a b)
  | 0x0F => some (fun _ _ b => b)
  | 0x10 => some (fun z a b => fAdd fmtF32 z .rne a b)
  | 0x11 => some (fun z a b => fSub fmtF32 z .rne a b)
  | 0x12 => some (fun z a b => fMul fmtF32 z .rne a b)
  | 0x13 => some (fun z a b => fMinMax fmtF32 z false false a b)
  | 0x14 => some (fun z a b => fMinMax fmtF32 z true false a b)
  | 0x18 => some (fun _ a b => packed2 (fun x y _ => fAdd fmtBf16 false .rne x y) a b 0)
  | 0x19 => some (fun _ a b => packed2 (fun x y _ => fMul fmtBf16 false .rne x y) a b 0)
  | 0x1A => some (fun _ a b => packed2 (fun x y _ => fMinMax fmtBf16 false true false x y) a b 0)
  | 0x1B => some (fun _ a b => packed2 (fun x y _ => fAdd fmtF16 false .rne x y) a b 0)
  | 0x1C => some (fun _ a b => packed2 (fun x y _ => fMul fmtF16 false .rne x y) a b 0)
  | 0x1D => some (fun _ a b => packed2 (fun x y _ => fMinMax fmtF16 false true false x y) a b 0)
  | _ => none

end Sys2Proof.Machine

namespace Sys2Proof

/-- The F word whose guard and operand fields are those of a slot (R63). -/
def DualSlot.word (d : DualSlot) : FWord :=
  { g := d.grd.setWidth 7, gn := d.neg, fd := d.vd.setWidth 9, fa := d.vd.setWidth 9, fb := d.vs.setWidth 9,
    fc := 0, ec := false, eb := false, ea := false, ty := 2, md := 0, ext := none }

/-- The banks of a slot (R64). -/
def DualSlot.banks (d : DualSlot) : List Nat := [d.vd.toNat % 4, d.vs.toNat % 4]

/-- The encoding trap of a D word, if any (R78). -/
def DualWord.trap (d : DualWord) (nv : Nat) : Option Nat :=
  let bad (x : DualSlot) : Bool := (Machine.dualOp x.dop.toNat).isNone
  if bad d.slot0 || bad d.slot1 then some 1
  else if d.slot0.rsv ≠ 0 || d.slot1.rsv ≠ 0 || d.rsv ≠ 0 then some 2
  else if [d.slot0.vd, d.slot0.vs, d.slot1.vd, d.slot1.vs].any (fun r => decide (nv ≤ r.toNat)) ||
      d.slot0.banks.any (fun k => d.slot1.banks.contains k) then some 1
  else none

end Sys2Proof

namespace Sys2Proof.Machine

open Sys2Proof

/-- Writes the result of a slot in its active lanes; the sources are read in `s`. -/
def State.dualWrite (s : State) (e : Env) (d : DualSlot) (t : State) : State :=
  match dualOp d.dop.toNat with
  | none => t
  | some op => (laneList e.act).foldl (fun u l =>
      u.write e 10 e.f.fd l (op (s.ftz e) (s.vreg e d.vd.toNat l).toNat (s.vreg e d.vs.toNat l).toNat)) t

/-- D_WORD (R63): both slots read before either writes, and complete together. -/
def execDWord (d : DualWord) (s : State) : Host.Outcome State Fault Refusal :=
  match s.envOf d.slot0.word, s.envOf d.slot1.word with
  | some e0, some e1 =>
    match d.trap (s.waveAt e0.key).nv with
    | some code => .next (s.raise e0 { code := code })
    | none =>
      let regs := [d.slot0.vd, d.slot0.vs, d.slot1.vd, d.slot1.vs].map BitVec.toNat
      if (s.turnWave e0).anyEmpty (regs, []) (e0.act ||| e1.act) then .next (s.block e0 .register)
      else .next ((s.dualWrite e1 d.slot1 (s.dualWrite e0 d.slot0 s)).advance e0)
  | _, _ => .fault .noIssuingWave

end Sys2Proof.Machine
end

