-- ==== Sys2Proof/Machine/FloatInstr.lean ====
section
/-! DEFINITION. The floating-point, conversion and packed instructions (04_compute_instructions.md R99 to R106). -/

namespace Sys2Proof.Machine

open Sys2Proof

/-! ### Encodings (R101) -/

/-- vd, va, vb of the type FTYPE names; FC is Q. -/
def fpSpec2 (f : FWord) (ok : List Nat) (rounds : Bool) (qBits : Nat) : OpSpec :=
  let g := Gen.src (typeOfFp f)
  { fd := .dest g, fa := .source g, fb := .source g, fc := .quals, qBits := qBits, typing := .fp ok rounds }

/-- vd, va, vb, vc of the type FTYPE names. -/
def fpSpec3 (f : FWord) (ok : List Nat) : OpSpec :=
  let g := Gen.src (typeOfFp f)
  { fd := .dest g, fa := .source g, fb := .source g, fc := .source g, typing := .fp ok true }

/-- vd, va of the type FTYPE names. -/
def fpSpec1 (f : FWord) (ok : List Nat) (rounds : Bool) : OpSpec :=
  let g := Gen.src (typeOfFp f)
  { fd := .dest g, fa := .source g, fc := .quals, typing := .fp ok rounds }

/-- The format of a word's type, `.f32` where FTYPE names no scalar one. -/
def fmtOfFp (f : FWord) : Fmt := (fmtOf (typeOfFp f)).getD fmtF32

/-- The element format of a word's packed type. -/
def packedFmt (f : FWord) : Fmt := match packedOf (typeOfFp f) with
  | some (t, _) => t
  | none => fmtBf16

/-- The packed 16-bit types of R101. -/
def typesPacked : List Nat := [22, 23]

/-! ### Shared forms -/

/-- Two sources and one rounded result (R102). -/
def runFp2 (f : FWord) (s : State) (op : Fmt → Bool → Rnd → Nat → Nat → Nat) : Host.Outcome State Fault Refusal :=
  let ty := typeOfFp f
  runLanes (fpSpec2 f typesF true 0) f s ty (fun t e l =>
    op (fmtOfFp f) (t.ftz e) (t.roundMode e f.rnd 0) (t.value e ty f.fa l) (t.value e ty f.fb l))

/-- One source and one rounded result (R102, R105). -/
def runFp1 (f : FWord) (s : State) (op : Fmt → Bool → Rnd → Nat → Nat) : Host.Outcome State Fault Refusal :=
  let ty := typeOfFp f
  runLanes (fpSpec1 f typesF true) f s ty (fun t e l =>
    op (fmtOfFp f) (t.ftz e) (t.roundMode e f.rnd 0) (t.value e ty f.fa l))

/-- fmin and fmax (R103). -/
def runMinMax (f : FWord) (s : State) (useMax : Bool) : Host.Outcome State Fault Refusal :=
  let ty := typeOfFp f
  runLanes (fpSpec2 f typesF false 1) f s ty (fun t e l =>
    fMinMax (fmtOfFp f) (t.ftz e) useMax (bitOf f.q 0) (t.value e ty f.fa l) (t.value e ty f.fb l))

/-- The approximations (R105). -/
def runApprox (f : FWord) (s : State) (op : Nat → Nat) : Host.Outcome State Fault Refusal :=
  let ty := typeOfFp f
  runLanes (fpSpec1 f [13, 14, 15] false) f s ty (fun t e l => approx op ty (t.ftz e) (t.value e ty f.fa l))

/-- A packed operation of two sources (R102): FTZ does not apply. -/
def runPacked2 (f : FWord) (s : State) (op : Fmt → Bool → Rnd → Nat → Nat → Nat) : Host.Outcome State Fault Refusal :=
  let ty := typeOfFp f
  runLanes (fpSpec2 f typesPacked true 0) f s ty (fun t e l =>
    packed2 (fun a b _ => op (packedFmt f) false (t.roundMode e f.rnd 0) a b) (t.value e ty f.fa l) (t.value e ty f.fb l) 0)

/-- The encoding rules of dot2 and dot4 (R106). -/
def dotSpec (f : FWord) (ok : List Nat) : OpSpec :=
  { fpSpec3 f ok with fd := .dest (Gen.src 13), fc := .source (Gen.src 13) }

/-- dot2 and dot4 (R106). -/
def runDot (f : FWord) (s : State) (ok : List Nat) (n : Nat) : Host.Outcome State Fault Refusal :=
  let ty := typeOfFp f
  runLanes (dotSpec f ok) f s 13 (fun t e l =>
    fDot (packedFmt f) n (t.ftz e) (t.roundMode e f.rnd 0) (t.value e ty f.fa l) (t.value e ty f.fb l)
      (t.value e 13 f.fc l))

/-! ### fcvt (R99) -/

/-- The target and source type codes of an fcvt, and its element select. -/
def cvtTypes (f : FWord) : Nat × Nat × Nat :=
  match ftypeCode f.ftype with
  | some t => (t, bitsOf f.q 4 0, bitsOf f.q 7 6)
  | none => (bitsOf f.q 4 0, 12 + bitsOf f.q 6 5, 0)

/-- The range of a scalar or packed element type: mantissa bits, the exponent of its least unit, its greatest exponent. -/
def rangeOf (code : Nat) : Option (Nat × Int × Int) :=
  let of (t : Fmt) : Nat × Int × Int :=
    (t.M, 1 - (t.bias : Int) - t.M, (t.maxCode / 2 ^ t.M : Nat) - (t.bias : Int))
  match fmtOf code, packedOf code with
  | some t, _ => some (of t)
  | none, some (t, _) => some (of t)
  | none, none => if code = 21 then some (0, -127, 127) else none

/-- The target represents every value of the source. -/
def widening (target source : Nat) : Bool :=
  match rangeOf target, rangeOf source with
  | some (m, lo, hi), some (m2, lo2, hi2) => decide (m2 ≤ m) && decide (lo ≤ lo2) && decide (hi2 ≤ hi)
  | _, _ => false

/-- An accepted pair of types with its element select. -/
def cvtOk (target source el : Nat) : Bool :=
  if typesF.contains target then
    if 12 ≤ source && source ≤ 21 then target != source && el == 0
    else if source = 22 || source = 23 then decide (el ≤ 1)
    else source == 24
  else if target = 22 || target = 23 then
    if source = 13 then el == 0
    else if source = 22 || source = 23 then target != source && el == 0
    else source == 24 && decide (el ≤ 1)
  else if target = 24 then (source == 13 || source == 22 || source == 23) && el == 0
  else decide (16 ≤ target) && decide (target ≤ 21) && typesF.contains source

/-- The source operand of an accepted pair. -/
def cvtSource (target source : Nat) : Gen :=
  if (target = 22 || target = 23) && source = 13 then Gen.vOnly 13 2 2
  else if target = 24 && source = 13 then Gen.vOnly 13 4 4
  else if target = 24 then Gen.vOnly source 2 2
  else Gen.src source

/-- The encoding of fcvt. -/
def cvtSpec (f : FWord) : OpSpec :=
  let (target, source, el) := cvtTypes f
  let inQ := (ftypeCode f.ftype).isNone
  let wide := widening target source
  { fd := .dest (Gen.src target), fa := .source (cvtSource target source), fc := .quals, qBits := 511, typing := .own
    reserved := decide (6 ≤ f.rnd) || decide (25 ≤ bitsOf f.q 4 0) || (if inQ then bitOf f.q 7 else bitOf f.q 5) ||
      (wide && (decide (f.rnd ≠ 0) || bitOf f.q 8))
    illegal := !cvtOk target source el || (inQ && (decide (target < 16) || decide (21 < target))) }

/-- The exact values of the source elements that an fcvt converts in a lane, in element order. -/
def State.cvtValues (s : State) (e : Env) (f : FWord) (l : Nat) : List FVal :=
  let (target, source, el) := cvtTypes f
  let reg (i : Nat) : Nat := match srcOf f.fa with
    | .v n => (s.vreg e (n + i) l).toNat
    | _ => 0
  let elem (t : Fmt) (x j : Nat) : FVal := t.decode (x / 2 ^ (t.width * j) % 2 ^ t.width)
  match packedOf target, packedOf source with
  | none, none => match fmtOf source with
    | some t => [t.decode (s.value e source f.fa l)]
    | none => [decodeE8m0 (s.value e source f.fa l)]
  | none, some (t, _) => [elem t (s.value e source f.fa l) el]
  | some (_, n), none => (List.range n).map (fun i => fmtF32.decode (reg i))
  | some (_, 2), some (t, 2) => (List.range 2).map (elem t (s.value e source f.fa l))
  | some (_, 2), some (t, _) => (List.range 2).map (fun j => elem t (s.value e source f.fa l) (2 * el + j))
  | some _, some (t, _) => (List.range 4).map (fun j => elem t (reg (j / 2)) (j % 2))

/-- The result of an fcvt in a lane: each element converted on its own, with draw `j` for element j. -/
def State.cvtResult (s : State) (e : Env) (f : FWord) (l : Nat) : Nat :=
  let (target, _, _) := cvtTypes f
  let key := s.srKeyOf e.key l
  let c := s.convOf e.key l
  let md (j : Nat) : Rnd := s.roundMode e f.rnd (srDraw key ((c + j) % 2 ^ 32))
  let one (x : FVal) (j : Nat) : Nat :=
    match packedOf target, fmtOf target with
    | some (t, _), _ => convert t x (md j) (bitOf f.q 8) * 2 ^ (t.width * j)
    | none, some t => convert t x (md j) (bitOf f.q 8)
    | none, none => convertE8m0 x (md j) (bitOf f.q 8)
  ((s.cvtValues e f l).zipIdx.map (fun (x, j) => one x j)).foldl (· + ·) 0

/-- fcvt (R99): a stochastic conversion also takes its draws from the counters of its lanes (R42). -/
def execFcvt (f : FWord) (s : State) : Host.Outcome State Fault Refusal :=
  let (target, _, _) := cvtTypes f
  let n := match packedOf target with
    | some (_, k) => k
    | none => 1
  runPlain (cvtSpec f) f s (fun e t =>
    let u := t.writeLanes e target (t.cvtResult e f)
    if f.rnd = 4 then e.resultLanes.foldl (fun v l => v.convAdd e.key l n) u else u)

/-! ### Meanings -/

/-- fadd (R102). -/
def execFadd (f : FWord) (s : State) : Host.Outcome State Fault Refusal := runFp2 f s fAdd
/-- fsub (R102). -/
def execFsub (f : FWord) (s : State) : Host.Outcome State Fault Refusal := runFp2 f s fSub
/-- fmul (R102). -/
def execFmul (f : FWord) (s : State) : Host.Outcome State Fault Refusal := runFp2 f s fMul

/-- fma (R102). -/
def execFma (f : FWord) (s : State) : Host.Outcome State Fault Refusal :=
  let ty := typeOfFp f
  runLanes (fpSpec3 f typesF) f s ty (fun t e l =>
    fFma (fmtOfFp f) (t.ftz e) (t.roundMode e f.rnd 0) (t.value e ty f.fa l) (t.value e ty f.fb l) (t.value e ty f.fc l))

/-- fmin (R103). -/
def execFmin (f : FWord) (s : State) : Host.Outcome State Fault Refusal := runMinMax f s false
/-- fmax (R103). -/
def execFmax (f : FWord) (s : State) : Host.Outcome State Fault Refusal := runMinMax f s true

/-- The encoding rules of fcmp (R104). -/
def fcmpSpec (f : FWord) : OpSpec := { fpSpec2 f typesF false 7 with fd := .pred 1 }

/-- fcmp (R104). -/
def execFcmp (f : FWord) (s : State) : Host.Outcome State Fault Refusal :=
  let ty := typeOfFp f
  runPreds (fcmpSpec f) f s (fun t e l =>
    fCmp (fmtOfFp f) (t.ftz e) f.q (t.value e ty f.fa l) (t.value e ty f.fb l))

/-- The encoding rules of fcls (R104). -/
def fclsSpec (f : FWord) : OpSpec := { fpSpec1 f typesF false with fd := .pred 1, qBits := 511 }

/-- fcls (R104): reads raw bits, so FTZ does not apply. -/
def execFcls (f : FWord) (s : State) : Host.Outcome State Fault Refusal :=
  let ty := typeOfFp f
  runPreds (fclsSpec f) f s (fun t e l =>
    bitOf f.q (fClass (fmtOfFp f) (t.value e ty f.fa l)))

/-- frcp (R105). -/
def execFrcp (f : FWord) (s : State) : Host.Outcome State Fault Refusal := runFp1 f s fRcp
/-- frsq (R105). -/
def execFrsq (f : FWord) (s : State) : Host.Outcome State Fault Refusal := runApprox f s frsq32
/-- fsqrt (R105). -/
def execFsqrt (f : FWord) (s : State) : Host.Outcome State Fault Refusal := runFp1 f s fSqrt
/-- fexp2 (R105). -/
def execFexp2 (f : FWord) (s : State) : Host.Outcome State Fault Refusal := runApprox f s fexp2_32
/-- flog2 (R105). -/
def execFlog2 (f : FWord) (s : State) : Host.Outcome State Fault Refusal := runApprox f s flog2_32
/-- fsin (R105). -/
def execFsin (f : FWord) (s : State) : Host.Outcome State Fault Refusal := runApprox f s fsin32
/-- fcos (R105). -/
def execFcos (f : FWord) (s : State) : Host.Outcome State Fault Refusal := runApprox f s fcos32
/-- ftanh (R105). -/
def execFtanh (f : FWord) (s : State) : Host.Outcome State Fault Refusal := runApprox f s ftanh32
/-- frnd (R102). -/
def execFrnd (f : FWord) (s : State) : Host.Outcome State Fault Refusal := runFp1 f s fRnd

/-- The encoding rules of fscl (R102). -/
def fsclSpec (f : FWord) : OpSpec := { fpSpec2 f typesF true 0 with fb := .source (Gen.src 2) }

/-- fscl (R102): the power is a 32-bit signed operand. -/
def execFscl (f : FWord) (s : State) : Host.Outcome State Fault Refusal :=
  let ty := typeOfFp f
  runLanes (fsclSpec f) f s ty (fun t e l =>
    fScl (fmtOfFp f) (t.ftz e) (t.roundMode e f.rnd 0) (t.value e ty f.fa l) (signedOf 32 (t.value e 2 f.fb l)))

/-- dot2 (R106). -/
def execDot2 (f : FWord) (s : State) : Host.Outcome State Fault Refusal := runDot f s typesPacked 2
/-- dot4 (R106). -/
def execDot4 (f : FWord) (s : State) : Host.Outcome State Fault Refusal := runDot f s [24] 4

/-- pfma (R102). -/
def execPfma (f : FWord) (s : State) : Host.Outcome State Fault Refusal :=
  let ty := typeOfFp f
  runLanes (fpSpec3 f typesPacked) f s ty (fun t e l =>
    packed2 (fFma (packedFmt f) false (t.roundMode e f.rnd 0)) (t.value e ty f.fa l) (t.value e ty f.fb l)
      (t.value e ty f.fc l))

/-- padd (R102). -/
def execPadd (f : FWord) (s : State) : Host.Outcome State Fault Refusal := runPacked2 f s fAdd
/-- pmul (R102). -/
def execPmul (f : FWord) (s : State) : Host.Outcome State Fault Refusal := runPacked2 f s fMul

/-- pmax (R103). -/
def execPmax (f : FWord) (s : State) : Host.Outcome State Fault Refusal :=
  let ty := typeOfFp f
  runLanes (fpSpec2 f typesPacked false 1) f s ty (fun t e l =>
    packed2 (fun a b _ => fMinMax (packedFmt f) false true (bitOf f.q 0) a b) (t.value e ty f.fa l) (t.value e ty f.fb l) 0)

end Sys2Proof.Machine
end

