-- ==== Sys2Proof/Machine/Lane.lean ====
section
/-! DEFINITION. The lane instructions (04_compute_instructions.md R108 to R114). The lanes that take part are the active
lanes of the issuing group (R85). -/

namespace Sys2Proof.Machine

open Sys2Proof

/-! ### Encodings (R108) -/

/-- Types of 32 or 64 bits. -/
def typesWide : List Nat := [2, 3, 6, 7, 10, 11, 12, 13]

/-- A v destination alone: the `vd` of shfl, scan and match. R108 writes `d` where more than a v register is meant; whether such a `vd`
may name an s register all the same, as `vd` may elsewhere (R54, R84), it does not say, and here it raises ILLEGAL_OP (log 78). -/
def laneV (ty : Nat) : Gen := { ty := ty, s := false }
/-- A v register or a mask register. -/
def laneD (ty : Nat) : Gen := { ty := ty, s := false, mask := true }

/-- A word whose source FA is read in further lanes (R109): those that are empty there block it or trap. -/
def State.laneCheck (s : State) (e : Env) (o : Operand) (lanes : Word) : Check :=
  let w := s.turnWave e
  let regs := o.regs e.f.fa
  let both : Bool := e.f.eb && e.f.fb == e.f.fa
  if w.anyEmpty regs lanes then
    (if e.f.ea || both then
      .trap { code := 3, lane := w.emptyLane regs lanes, detail := if e.f.ea then 0 else 1, aux := e.f.fa.toNat }
    else .wait .register [])
  else .ok

/-- The source lane of shfl for lane `i`, for a mode, a segment width and an offset (R111). -/
def shuffleLane (mode w i b : Nat) : Nat :=
  let base := i - i % w
  match mode with
  | 0 => base + b % w
  | 1 => if i < base + b then i else i - b
  | 2 => if base + w ≤ i + b then i else i + b
  | _ => base + Nat.xor (i % w) (b % w)

/-- The identity and the step of a redux or scan operator, on codes of a type (R112). -/
def combine (op ty : Nat) (ftz : Bool) : Nat × (Nat → Nat → Nat) :=
  let w := typeWidth ty
  match op with
  | 0 => (0, fun x y => (x + y) % 2 ^ w)
  | 1 => (wrapI w (typeMax ty), fun x y => if intOf ty y < intOf ty x then y else x)
  | 2 => (wrapI w (typeMin ty), fun x y => if intOf ty x < intOf ty y then y else x)
  | 3 => (2 ^ w - 1, Nat.land)
  | 4 => (0, Nat.lor)
  | 5 => (0, Nat.xor)
  | 6 => (0x80000000, fAdd fmtF32 ftz .rne)
  | _ => (0xFF800000, fMinMax fmtF32 ftz true false)

/-- The types of an operator (R112). -/
def combineTypes (op : Nat) : List Nat :=
  if op ≤ 2 then [2, 3, 6, 7] else if op ≤ 5 then [10, 11] else [13]

/-- The combination of the values of some lanes, in the order given. -/
def State.combined (s : State) (e : Env) (f : FWord) (lanes : List Nat) : Nat :=
  let (id, step) := combine (f.q % 8) f.tcode (s.ftz e)
  lanes.foldl (fun x l => step x (s.value e f.tcode f.fa l)) id

/-- The encoding rules of the lane instructions (R108 to R112). -/
def ballotSpec : OpSpec := { fd := .dest { ty := 10, mask := true }, fa := .pred 1, fc := .quals }
def voteSpec : OpSpec := { fd := .pred 1, fa := .pred 1, fc := .quals }
def electSpec : OpSpec := { fd := .pred 1, fc := .quals }
def shflSpec (f : FWord) : OpSpec :=
  { fd := .dest (laneV f.tcode), fa := .source (Gen.src f.tcode), fb := .source (Gen.src 10), fc := .quals,
    qBits := 31, typing := .codes typesWide, reserved := decide (5 ≤ bitsOf f.q 4 2) }
def bcastSpec (f : FWord) : OpSpec :=
  { fd := .dest (laneD f.tcode), fa := .source (Gen.src f.tcode), fb := .source (Gen.uniform 10), fc := .quals,
    typing := .codes typesWide }
def reduxSpec (f : FWord) : OpSpec :=
  { fd := .dest (laneD f.tcode), fa := .source (Gen.src f.tcode), fc := .quals, qBits := 7,
    typing := .codes (combineTypes (f.q % 8)) }
def scanSpec (f : FWord) : OpSpec :=
  { fd := .dest (laneV f.tcode), fa := .source (Gen.src f.tcode), fc := .quals, qBits := 15,
    typing := .codes (combineTypes (f.q % 8)) }
/-- match has a v destination, as R108's table gives it; 05_wave.md R118 names match beside ballot and bcast among the instructions with
a mask destination, and that form raises ILLEGAL_OP here (log 78). -/
def matchSpec (f : FWord) : OpSpec :=
  { fd := .dest (laneV 10), fa := .source (Gen.src f.tcode), fc := .quals, typing := .codes typesWide }

/-! ### Meanings -/

/-- ballot (R110). -/
def execBallot (f : FWord) (s : State) : Host.Outcome State Fault Refusal :=
  runLanes ballotSpec f s 10 (fun t e _ => (maskOf ((laneList e.act).filter (fun l => t.pred e f.fa.toNat l))).toNat)

/-- vany (R110). -/
def execVany (f : FWord) (s : State) : Host.Outcome State Fault Refusal :=
  runPreds voteSpec f s (fun t e _ => (laneList e.act).any (fun l => t.pred e f.fa.toNat l))

/-- vall (R110). -/
def execVall (f : FWord) (s : State) : Host.Outcome State Fault Refusal :=
  runPreds voteSpec f s (fun t e _ => (laneList e.act).all (fun l => t.pred e f.fa.toNat l))

/-- shfl (R111); on a latency core d is va (R114). -/
def execShfl (f : FWord) (s : State) : Host.Outcome State Fault Refusal :=
  let ty := f.tcode
  let seg := bitsOf f.q 4 2
  runWord (shflSpec f) f s (fun e t =>
    let lat := (t.waveAt e.key).latency
    let from' (l : Nat) : Nat := if lat then l else shuffleLane (f.q % 4) (2 ^ (5 - seg)) l (t.value e 10 f.fb l)
    t.checked e (t.laneCheck e (shflSpec f).fa (maskOf ((laneList e.act).map from')))
      (fun u => u.writeLanes e ty (fun l => t.value e ty f.fa (from' l))))

/-- redux (R112). -/
def execRedux (f : FWord) (s : State) : Host.Outcome State Fault Refusal :=
  let ty := f.tcode
  runLanes (reduxSpec f) f s ty (fun t e _ => t.combined e f (laneList e.act))

/-- scan (R112): inclusive, or exclusive under .excl. -/
def execScan (f : FWord) (s : State) : Host.Outcome State Fault Refusal :=
  let ty := f.tcode
  runLanes (scanSpec f) f s ty (fun t e l =>
    t.combined e f ((laneList e.act).filter (fun k => if bitOf f.q 3 then decide (k < l) else decide (k ≤ l))))

/-- match (R111): the mask of the lanes with the same value. -/
def execMatchLanes (f : FWord) (s : State) : Host.Outcome State Fault Refusal :=
  let ty := f.tcode
  runLanes (matchSpec f) f s 10 (fun t e l =>
    (maskOf ((laneList e.act).filter (fun k => t.value e ty f.fa k == t.value e ty f.fa l))).toNat)

/-- elect (R110). -/
def execElect (f : FWord) (s : State) : Host.Outcome State Fault Refusal :=
  runPreds electSpec f s (fun _ e l => l == lowestLane e.act)

/-- bcast (R111); on a latency core d is va (R114). -/
def execBcast (f : FWord) (s : State) : Host.Outcome State Fault Refusal :=
  let ty := f.tcode
  runWord (bcastSpec f) f s (fun e t =>
    let from' : Nat := if (t.waveAt e.key).latency then 0 else t.uvalue e 10 f.fb % 32
    t.checked e (t.laneCheck e (bcastSpec f).fa (maskOf [from']))
      (fun u => u.writeLanes e ty (fun _ => t.value e ty f.fa from')))

end Sys2Proof.Machine
end

