-- ==== Sys2Proof/Machine/Predicate.lean ====
section
/-! DEFINITION. The predicate instructions (04_compute_instructions.md R107). -/

namespace Sys2Proof.Machine

open Sys2Proof

/-- pd, pa, pb (R107). -/
def predSpec2 : OpSpec := { fd := .pred 1, fa := .pred 1, fb := .pred 1, fc := .quals, qBits := 3 }

/-- pd, pa. -/
def predSpec1 : OpSpec := { fd := .pred 1, fa := .pred 1, fc := .quals }

/-- n of a range: Q[4:0] + 1. -/
def rangeCount (f : FWord) : Nat := f.q % 32 + 1

/-- A bitwise operation on two predicates, each inverted where Q says so. -/
def runPred2 (f : FWord) (s : State) (op : Bool → Bool → Bool) : Host.Outcome State Fault Refusal :=
  runPreds predSpec2 f s (fun t e l =>
    op (t.pred e f.fa.toNat l != bitOf f.q 0) (t.pred e f.fb.toNat l != bitOf f.q 1))

/-- pand (R107). -/
def execPand (f : FWord) (s : State) : Host.Outcome State Fault Refusal := runPred2 f s (fun a b => a && b)
/-- por (R107). -/
def execPor (f : FWord) (s : State) : Host.Outcome State Fault Refusal := runPred2 f s (fun a b => a || b)
/-- pxor (R107). -/
def execPxor (f : FWord) (s : State) : Host.Outcome State Fault Refusal := runPred2 f s (fun a b => a != b)

/-- pnot (R107). -/
def execPnot (f : FWord) (s : State) : Host.Outcome State Fault Refusal :=
  runPreds predSpec1 f s (fun t e l => !t.pred e f.fa.toNat l)

/-- pmov (R107). -/
def execPmov (f : FWord) (s : State) : Host.Outcome State Fault Refusal :=
  runPreds predSpec1 f s (fun t e l => t.pred e f.fa.toNat l)

/-- The encoding rules of pset and pget (R107). -/
def psetSpec (f : FWord) : OpSpec :=
  { fd := .pred (rangeCount f), fa := .source (Gen.src 10), fc := .quals, qBits := 31 }
def pgetSpec (f : FWord) : OpSpec :=
  { fd := .dest (Gen.vOnly 10 1 1), fa := .pred (rangeCount f), fc := .quals, qBits := 31 }

/-- pset (R107): a range of predicates from the bits of a value. -/
def execPset (f : FWord) (s : State) : Host.Outcome State Fault Refusal :=
  let n := rangeCount f
  runPlain (psetSpec f) f s (fun e t => (laneList e.act).foldl (fun u l =>
    (List.range n).foldl (fun v i => v.setPred e (f.fd.toNat + i) l (bitOf (t.value e 10 f.fa l) i)) u) t)

/-- pget (R107): a range of predicates packed into a v register. -/
def execPget (f : FWord) (s : State) : Host.Outcome State Fault Refusal :=
  let n := rangeCount f
  runLanes (pgetSpec f) f s 10 (fun t e l =>
    (List.range n).foldl (fun x i => x + b2n (t.pred e (f.fa.toNat + i) l) * 2 ^ i) 0)

end Sys2Proof.Machine
end

