-- ==== Sys2Proof/Machine/Issue.lean ====
section
/-! DEFINITION. Issue in a pane (05_wave.md R120 to R122, R140, R141): the groups of a wave, fetching, trying which groups
can issue, the two paths of a turn, starvation, and swapping out. Written over the execution of one instruction, which the
dispatch supplies. -/

namespace Sys2Proof.Machine

open Sys2Proof

/-- The execution of one instruction on a state. -/
abbrev Exec := Instr → State → Host.Outcome State Fault Refusal

/-! ### Fetching -/

/-- What fetching at a program counter finds. -/
inductive Fetched where
  | words (w : DWord) (ext : Option DWord)
  /-- A frame that another package owns. -/
  | unowned (frame : Nat)
  | fault (t : Trap)

/-- The instruction cache that a core fetches through: its own, or, of a latency core, its cluster's (08_context.md R222). -/
def fetchSite (core : Nat) : Nat := if core < 1536 then core else 1536 + (core - 1536) / 4

/-- A cached line is the one a wave fetches from at an address. -/
def FetchedLine.serves (x : FetchedLine) (w : Wave) (va pa : Nat) : Bool :=
  x.site == fetchSite w.core && x.ctx == w.ctx && x.va == va / 128 && x.line == pa / 128

/-- The older word that a fetch of a word of an instruction (its first, or its second) finds in an instruction cache; whether it is
read again is open before an icinv (R222). -/
def State.cachedWord (s : State) (w : Wave) (second : Nat) (va pa : Nat) : Option DWord :=
  match s.icache.find? (fun x => x.serves w va pa) with
  | none => none
  | some x => if pa % 8 ≠ 0 ∨ Config.refetch (2 * s.tick + second) then none
      else some (BitVec.ofNat 64 (ofBytes ((x.bytes.drop (pa % 128)).take 8)))

/-- One instruction word, its first or its second: its value, or why it cannot be fetched; ADDR is the address of the first word
(R48). -/
def State.fetchOne (s : State) (w : Wave) (second first va : Nat) : Except Fetched DWord :=
  match s.fetchPlace w.ctx w.core va with
  | .error (.fault code g u) => .error (.fault { code := code, addr := first, guard := g, unbacked := u })
  | .error (.unowned f) => .error (.unowned f)
  | .ok pa => .ok ((s.cachedWord w second va pa).getD (BitVec.ofNat 64 (s.peekNat pa 8)))

/-- The line that a word was fetched from stays in the instruction cache; one that was read again takes its new bytes. -/
def State.keepFetched (s : State) (w : Wave) (second va : Nat) : State :=
  match s.fetchPlace w.ctx w.core va with
  | .error _ => s
  | .ok pa =>
    { s with icache := if (s.cachedWord w second va pa).isSome then s.icache
        else s.icache.filter (fun x => !x.serves w va pa) ++
          [{ site := fetchSite w.core, ctx := w.ctx, va := va / 128, line := pa / 128, bytes := s.peek (pa / 128 * 128) 128 }] }

/-- The words of the instruction at a program counter. -/
def State.fetch (s : State) (w : Wave) (pc : DWord) : Fetched :=
  match s.fetchOne w 0 pc.toNat pc.toNat with
  | .error x => x
  | .ok a =>
    if wordSize a = 8 then .words a none
    else match s.fetchOne w 1 pc.toNat (pc + 8).toNat with
      | .error x => x
      | .ok b => .words a (some b)

/-- A word without fields, for what is raised before a word is known. -/
def FWord0 : FWord :=
  { g := 0, gn := false, fd := 0, fa := 0, fb := 0, fc := 0, ec := false, eb := false, ea := false, ty := 0, md := 0,
    ext := none }

/-- Lanes of a wave with one program counter. -/
structure Group where
  pc : DWord
  lanes : Word
  deriving DecidableEq, Repr

/-- Issues a group of a wave: fetches, and executes what the decoder reads. -/
def State.issueGroup (s : State) (exec : Exec) (k : Nat) (g : Group) : Host.Outcome State Fault Refusal :=
  match Cells.find s.waves k with
  | none => .next s
  | some w =>
    let e : Env := { key := k, pc := g.pc, size := 8, lanes := g.lanes, act := g.lanes, f := FWord0 }
    let s1 : State := { s with cur := some { wave := k, pc := g.pc, lanes := g.lanes } }
    match s.fetch w g.pc with
    | .fault t => .next (s1.raise e { t with lane := lowestLane g.lanes })
    | .unowned f => .next (s1.hold e .ownership [{ frame := f, lane := lowestLane g.lanes, addr := g.pc.toNat }])
    | .words a ext =>
      let kept := (s.tlbFill w.ctx w.core g.pc.toNat).keepFetched w 0 g.pc.toNat
      let s2 : State := { (if ext.isSome then kept.keepFetched w 1 (g.pc + 8).toNat else kept) with
        cur := some { wave := k, pc := g.pc, lanes := g.lanes, word := a, ext := ext } }
      exec (decodeWords a (ext.getD 0)) s2

/-! ### Groups and their order -/

/-- The groups of a wave's ready lanes. -/
def Wave.groups (w : Wave) : List Group :=
  let ready := laneList w.ready
  let pcs := ready.foldl (fun (ps : List DWord) l => if ps.contains (w.pcOf l) then ps else ps ++ [w.pcOf l]) []
  pcs.map (fun p => { pc := p, lanes := maskOf (ready.filter (fun l => w.pcOf l == p)) })

/-- The highest starvation count in a group. -/
def Wave.starvation (w : Wave) (g : Group) : Nat :=
  (laneList g.lanes).foldl (fun m l => Nat.max m (Cells.get 0 w.starve l)) 0

/-- A group stands before another in a turn (R121, R122): starved lanes by their count, then the more populous, then the
lower program counter. -/
def Wave.before (w : Wave) (a b : Group) : Bool :=
  let sa := w.starvation a
  let sb := w.starvation b
  let ka := if 64 ≤ sa then sa else 0
  let kb := if 64 ≤ sb then sb else 0
  if ka ≠ kb then decide (kb < ka)
  else if ka ≠ 0 then decide (a.pc.toNat < b.pc.toNat)
  else if laneCount a.lanes ≠ laneCount b.lanes then decide (laneCount b.lanes < laneCount a.lanes)
  else decide (a.pc.toNat < b.pc.toNat)

/-- Enters a group into an ordered list. -/
def Wave.insertGroup (w : Wave) (g : Group) : List Group → List Group
  | [] => [g]
  | h :: hs => if w.before g h then g :: h :: hs else h :: Wave.insertGroup w g hs

/-- The groups of a wave in the order of a turn. -/
def Wave.ordered (w : Wave) : List Group := w.groups.foldr (fun g gs => w.insertGroup g gs) []

/-! ### Exclusions of R121 -/

/-- The opcodes of implicit and explicit region boundaries (R132). -/
def boundaryOpcode (op : Nat) : Bool :=
  op == 0x09C || op == 0x09D || (decide (0x0C8 ≤ op) && decide (op ≤ 0x0CA)) || (decide (0x100 ≤ op) && decide (op ≤ 0x102)) ||
  op == 0x108 || (decide (0x140 ≤ op) && decide (op ≤ 0x153)) || (decide (0x180 ≤ op) && decide (op ≤ 0x1B5)) ||
  (decide (0x1C8 ≤ op) && decide (op ≤ 0x1CA)) || (decide (0x1D0 ≤ op) && decide (op ≤ 0x1D3))

/-- What a word does that matters to pairing: a region boundary, a store to a global address, the s register or the masks
it writes. -/
structure PairInfo where
  boundary : Bool := false
  globalStore : Bool := false
  sreg : Option Nat := none
  masks : List Nat := []
  /-- A tret, which acts on every live lane (08_context.md R216): the other group of its turn completes before it. -/
  last : Bool := false
  deriving DecidableEq, Repr

/-- The pairing information of an instruction. -/
def pairInfo (i : Instr) : PairInfo :=
  match opcodeOf i with
  | none => {}
  | some (op, f) =>
    let o := op.toNat
    let fdIsData := o == 0x0C1 || o == 0x0C3 || o == 0x1C3 || o == 0x1D0 || o == 0x1D1
    { boundary := boundaryOpcode o
      globalStore := (o == 0x0C1 || o == 0x0C3) && !bitOf f.q 0
      sreg := if fdIsData then none else match srcOf f.fd with
        | .s n => some n
        | _ => none
      masks := if o = 0x09C then List.range 12 else match srcOf f.fd with
        | .special x => if 0x11 ≤ x ∧ x ≤ 0x1B then [x - 0x10] else []
        | _ => []
      last := o == 0x1C1 }

/-- Two instructions that may not share a turn (R121). -/
def excluded (a b : PairInfo) : Bool :=
  (a.sreg.isSome && a.sreg == b.sreg) || a.masks.any (fun m => b.masks.contains m) ||
  (a.boundary && (b.boundary || b.globalStore)) || (b.boundary && a.globalStore)

/-- The pairing information of what stands at a group's program counter. -/
def State.pairInfoAt (s : State) (k : Nat) (g : Group) : PairInfo :=
  match s.fetch (s.waveAt k) g.pc with
  | .words a ext => pairInfo (decodeWords a (ext.getD 0))
  | _ => {}

/-! ### A turn -/

/-- The group cannot issue now. -/
def heldBack : Host.Outcome State Fault Refusal → Option State
  | .next t => if t.last = .blocked then some t else none
  | _ => none

/-- The outcome is a trap or fault of the group. -/
def trapped : Host.Outcome State Fault Refusal → Bool
  | .next t => t.last == .trapped
  | _ => false

/-- Why a wave waited. -/
def State.whyBlocked (s : State) (k : Nat) : List BlockReason := (s.waveAt k).blocked.toList

/-- Tries the groups of a wave in order: the state with what the waiting ones have asked for, those that can issue, and why each
of the others waits. -/
def State.scanGroups (s : State) (exec : Exec) (k : Nat) : List Group → State × List Group × List BlockReason
  | [] => (s, [], [])
  | g :: gs =>
    match heldBack (s.issueGroup exec k g) with
    | some t =>
      let (u, ok, why) := State.scanGroups { t with cur := none } exec k gs
      (u, ok, t.whyBlocked k ++ why)
    | none =>
      let (t, ok, why) := State.scanGroups s exec k gs
      (t, g :: ok, why)

/-- Issues a group after another of its turn, which reads the registers and their full/empty bits of before the turn (R85), unless
the first has taken the wave away. -/
def State.issueSecond (s : State) (exec : Exec) (k : Nat) (regs : TurnRegs) (g : Group) :
    Host.Outcome State Fault Refusal :=
  match Cells.find s.waves k with
  | none => .next s
  | some w =>
    if w.life = .suspended || w.life = .stopped then .next s
    else ({ s with turnRegs := some regs } : State).issueGroup exec k g

/-- Issues two groups in one turn. The group that traps issues last, so that the other completes; where both trap, the
one with the lower program counter decides alone (R121). -/
def State.issuePair (s : State) (exec : Exec) (k : Nat) (a b : Group) : Host.Outcome State Fault Refusal :=
  let w := s.waveAt k
  let regs : TurnRegs := { regs := w.regs, vEmpty := w.vEmpty, sEmpty := w.sEmpty }
  let ra := s.issueGroup exec k a
  let rb := s.issueGroup exec k b
  match trapped ra, trapped rb with
  | true, true => if a.pc.toNat ≤ b.pc.toNat then ra else rb
  | false, true => if (s.pairInfoAt k a).last then rb else match ra with
    | .next t => t.issueSecond exec k regs b
    | r => r
  | ta, _ => if ta || (s.pairInfoAt k a).last then match rb with
      | .next t => t.issueSecond exec k regs a
      | r => r
    else match ra with
      | .next t => t.issueSecond exec k regs b
      | r => r

/-- Raises the starvation counts of the lanes of issuable groups that did not issue (R122). -/
def State.starve (s : State) (k : Nat) (gs : List Group) : State :=
  s.modWave k (fun w => { w with starve := gs.foldl (fun m g => (laneList g.lanes).foldl (fun m2 l =>
    Cells.set 0 m2 l (Cells.get 0 m2 l + 1)) m) w.starve })

/-- A reason to wait for which a wave leaves the active set (R140). -/
def BlockReason.swaps : BlockReason → Bool
  | .register => true
  | .counter => true
  | .handle => true
  | .engine => true
  | .barrierObject => true
  | _ => false

/-- The pane of a wave. -/
def Wave.pane (w : Wave) : Nat := w.slot / 32

/-- A wave of the active set with no issuable group leaves it where R140 says so and a ready wave is pending. -/
def State.swapOut (s : State) (k : Nat) : State :=
  let w := s.waveAt k
  let external : Bool := w.waits.any (fun x => match x.obj with
    | .mask _ => false
    | _ => true)
  let allAtMask : Bool := !w.waits.isEmpty && decide (w.ready = 0)
  let why := external || allAtMask || w.reasons.any BlockReason.swaps
  if !w.latency && decide (w.life = .active) && why && s.pendingReady w then
    s.modWave k (fun u => { u with life := .pending })
  else s

/-- Records why the groups of a wave that could not issue waited. -/
def State.setReasons (s : State) (k : Nat) (why : List BlockReason) : State := s.modWave k (fun w => { w with reasons := why })

/-- What ends a turn of a wave; its context is no longer QUIESCENT (12_barrier.md R282). -/
def State.endTurn (s : State) (w : Wave) : State :=
  let s1 : State := { s with cur := none, turnRegs := none, lastSlot := Cells.set 0 s.lastSlot (w.core * 4 + w.pane) w.slot }
  if (s1.ctxAt w.ctx).quiescent then s1.modCtx w.ctx (fun x => { x with quiescent := false }) else s1

/-- A wave that halt.stop has reached is HALTED at its issue slot, together with what the slot brings (08_context.md R219, R220). -/
def State.meetHalt (s : State) (k : Nat) : State :=
  if (s.waveAt k).halting then s.modWave k (fun w => { w with life := .halted, halting := false }) else s

/-- One turn of a wave: its groups issue, at most two together; or none can, and the wave waits. A turn that ends in a trap or
fault leaves every starvation count as the trap entry or the abort left it (R136). -/
def State.turn (s0 : State) (exec : Exec) (k : Nat) : Host.Outcome State Fault Refusal :=
  let s := s0.meetHalt k
  let w := s.waveAt k
  let finish (gs : List Group) (why : List BlockReason) (r : Host.Outcome State Fault Refusal) : Host.Outcome State Fault Refusal :=
    match r with
    | .next t => .next (((if t.last = .trapped then t else t.starve k gs).setReasons k why).endTurn w)
    | .fault f => .fault f
    | .refused f => .refused f
  match w.ordered with
  | [] => .next (({ s with last := .blocked } : State).swapOut k)
  | [g] =>
    let r := s.issueGroup exec k g
    match heldBack r with
    | some t => .next ((({ t with cur := none } : State).setReasons k (t.whyBlocked k)).swapOut k)
    | none => finish [] [] r
  | gs =>
    let (base, ok, why) := s.scanGroups exec k gs
    match ok with
    | [] => .next ((({ base with last := .blocked } : State).setReasons k why).swapOut k)
    | [g] => finish [] why (base.issueGroup exec k g)
    | a :: b :: rest =>
      if excluded (base.pairInfoAt k a) (base.pairInfoAt k b) then finish (b :: rest) why (base.issueGroup exec k a)
      else finish rest why (base.issuePair exec k a b)

/-- The waves of a pane's active set, in slot order after the slot that issued last (R120). -/
def State.paneWaves (s : State) (core pane : Nat) : List Nat :=
  let mine := (s.waves.filter (fun (_, w) => w.core == core && w.pane == pane && decide (w.life = .active) &&
    decide (w.ready ≠ 0))).map (·.1)
  let last := core * 128 + Cells.get 0 s.lastSlot (core * 4 + pane)
  mine.filter (fun k => decide (last < k)) ++ mine.filter (fun k => decide (k ≤ last))

/-- The slot goes to the first wave in that order that has an issuable group. -/
def State.paneTurn (s : State) (exec : Exec) : List Nat → Host.Outcome State Fault Refusal
  | [] => .next s
  | k :: ks =>
    match s.turn exec k with
    | .next t => if t.last = .blocked then State.paneTurn t exec ks else .next t
    | r => r

/-- A pending wave is ready where one of its groups could issue (R141): the mark `blocked` says why none can. -/
def State.markPending (s : State) (exec : Exec) (k : Nat) : State :=
  let (_, ok, why) := s.scanGroups exec k (s.waveAt k).ordered
  s.modWave k (fun w => { w with blocked := if ok.isEmpty then some (w.blocked.getD .register) else none, reasons := why })

end Sys2Proof.Machine
end

