-- ==== Sys2Proof/Machine/Retire.lean ====
section
/-! DEFINITION. The events of waves and their operations: results that fill their registers (03_encoding.md R70), operations
that retire (07_consistency.md R190), waves that enter the active set (05_wave.md R141), the abort of a stalled region
(R134), and words that no opcode is assigned to (03_encoding.md R75). -/

namespace Sys2Proof.Machine

open Sys2Proof

/-! ### Operations that retire -/

/-- The operations that retire with one that has ended: those of its wave and class that have ended and stand before any that
has not (R190); one that is not counted retires alone. -/
def State.retiring (s : State) (id : Nat) (o : EngineOp) : List Nat :=
  match o.cls with
  | none => [id]
  | some c => ((s.ops.filter (fun (_, p) => p.wave == o.wave && p.cls == some c)).takeWhile (fun (_, p) => p.done)).map (·.1)

/-- The blocks of a core and its pair retire where nothing holds them any longer (16_matrix.md R343, 10_kernel.md R247). -/
def State.retireNear (s : State) (core : Nat) : State :=
  (s.blocks.filter (fun (_, b) => b.core == core || b.core == Nat.xor core 1)).foldl (fun t (b, _) => t.tryRetire b) s

/-- An operation that has ended retires (R190): its class counter falls; its wave and its block leave where they waited for
it. -/
def State.retireOp (s : State) (id : Nat) : State :=
  match Cells.find s.ops id with
  | none => s
  | some o =>
    if !o.done then s
    else
      let gone := s.retiring id o
      let t : State := { s with ops := s.ops.filter (fun (i, _) => !gone.contains i) }
      let u := match o.cls with
        | none => t
        | some c => t.modWave o.wave (fun w => { w with counters := Cells.set 0 w.counters c (w.counter c - gone.length) })
      (u.tryLeave o.wave).retireNear o.core

/-- Marks an operation as ended. -/
def State.markDone (s : State) (id : Nat) : State :=
  { s with ops := Cells.modify s.ops id (fun o => { o with done := true, stuck := false }) }

/-- Carries an operation on, or retires it. -/
def State.carryOn (s : State) (id : Nat) : State :=
  match Cells.find s.ops id with
  | none => s
  | some o =>
    if o.done then s.retireOp id
    else match o.kind with
      | .placement j => s.stepPlacement id j
      | .put j => s.stepPut id o j
      | .coll j => s.stepColl id o j
      | .copied frames =>
        if s.shadowWaits.any (fun x => frames.contains (x.pa / 65536)) then s.stickOp id else (s.markDone id).retireOp id
      | .performed => (s.markDone id).retireOp id
      | .pool j => s.runPoolOp id o j
      | _ => s

/-! ### The active set -/

/-- The ready pending waves of a pane, oldest first. -/
def State.readyPending (s : State) (core pane : Nat) : Option Nat :=
  (s.waves.foldl (fun (best : Option (Nat × Nat)) (k, w) =>
    if w.core = core ∧ w.pane = pane ∧ w.life = .pending ∧ w.blocked = none ∧ w.ready ≠ 0 then
      match best with
      | none => some (w.age, k)
      | some (a, _) => if w.age < a then some (w.age, k) else best
    else best) none).map (·.2)

/-- The oldest ready pending wave of a pane enters a free place of its active set (R141). -/
def State.enterActive (s : State) (core pane : Nat) : State :=
  if 8 ≤ s.activeCount core pane then s
  else match s.readyPending core pane with
    | none => s
    | some k => s.modWave k (fun w => { w with life := .active })

/-- The panes a pending wave of which may enter the active set. -/
def State.activeEvents (s : State) : List Instr :=
  let panes := s.waves.foldl (fun ps (_, w) =>
    if w.life = .pending ∧ !ps.contains (w.core, w.pane) then ps ++ [(w.core, w.pane)] else ps) []
  (panes.filter (fun p => decide (s.activeCount p.1 p.2 < 8) && (s.readyPending p.1 p.2).isSome)).map
    (fun p => .waveEnterActive p.1 p.2)

/-! ### A stalled region -/

/-- The youngest wave of a core that stalls for a pending line and holds one (R134). -/
def State.youngestStalled (s : State) (core : Nat) : Option Nat :=
  (s.waves.foldl (fun (best : Option (Nat × Nat)) (k, w) =>
    if w.core = core ∧ w.reasons.contains .shadowOrLine ∧ !w.held.isEmpty ∧ (w.life = .active ∨ w.life = .pending) then
      match best with
      | none => some (w.age, k)
      | some (a, _) => if a < w.age then some (w.age, k) else best
    else best) none).map (·.2)

/-- REGION_STALL_ABORT (R134): the region is aborted as by a restartable fault (R136), without a record, and the wave is ready
at once. -/
def State.abortStalled (s : State) (core : Nat) : State :=
  match s.youngestStalled core with
  | none => s
  | some k => s.restartRegion k

/-! ### Meanings -/

/-- UNASSIGNED_OPCODE (R75, R78 step 2): ILLEGAL_OP at the instruction. -/
def execUnassignedOpcode (_w : DWord) (ext : Option DWord) (s : State) : Host.Outcome State Fault Refusal :=
  match s.cur with
  | none => .fault .noIssuingWave
  | some i => match Cells.find s.waves i.wave with
    | none => .fault .noIssuingWave
    | some _ =>
      let e : Env := { key := i.wave, pc := i.pc, size := if ext.isSome then 16 else 8, lanes := i.lanes, act := i.lanes, f := FWord0 }
      .next (s.raise e { code := 1 })

/-- REGISTER_FILL (R70): the values are written, and a wave that ends may leave (05_wave.md R144). -/
def execRegisterFill (fill : Nat) (s : State) : Host.Outcome State Fault Refusal :=
  .next (match Cells.find s.fills fill with
    | none => s
    | some x => (s.finishFill fill).tryLeave x.wave)

/-- ENGINE_OP_RETIRE (R190). -/
def execEngineOpRetire (op : Nat) (s : State) : Host.Outcome State Fault Refusal := .next (s.carryOn op)

/-- WAVE_ENTER_ACTIVE (R141). -/
def execWaveEnterActive (core pane : Nat) (s : State) : Host.Outcome State Fault Refusal := .next (s.enterActive core pane)

/-- REGION_STALL_ABORT (R134). -/
def execRegionStallAbort (core : Nat) (s : State) : Host.Outcome State Fault Refusal := .next (s.abortStalled core)

end Sys2Proof.Machine
end

