-- ==== Sys2Proof/Machine/System.lean ====
section
/-! DEFINITION. trap and tret (08_context.md R216), system registers, sysr and sysw (R208, R209, R211), halt (R219) and icinv
(R222). -/

namespace Sys2Proof.Machine

open Sys2Proof

/-! ### The registers, their levels and their reserved bits (R8, R9, R208) -/

/-- Who reaches a register (R208): any wave of the context, the wave itself in trap mode, a wave in system mode. -/
inductive Level where
  | user
  | trap
  | system
  deriving DecidableEq, Repr

/-- A register: its read and its write level, its reserved bits, and whether it names the issuing wave, block or core, so that
.ctx raises ILLEGAL_OP. -/
structure SysReg where
  read : Option Level
  write : Option Level := none
  reserved : Nat := 0
  own : Bool := false
  deriving DecidableEq, Repr

/-- Bits hi to lo. -/
def bitRange (hi lo : Nat) : Nat := 2 ^ (hi + 1) - 2 ^ lo

/-- A register of level U, S to write. -/
def SysReg.us (reserved : Nat) : SysReg := { read := some .user, write := some .system, reserved := reserved }
/-- A register of level U. -/
def SysReg.uu (reserved : Nat) : SysReg := { read := some .user, write := some .user, reserved := reserved }
/-- A register of level S. -/
def SysReg.ss (reserved : Nat) : SysReg := { read := some .system, write := some .system, reserved := reserved }
/-- A register that level S only writes. -/
def SysReg.ws (reserved : Nat) : SysReg := { read := none, write := some .system, reserved := reserved }
/-- A register that level U reads and none writes. -/
def SysReg.ru : SysReg := { read := some .user }
/-- A register that level S reads and none writes. -/
def SysReg.rs : SysReg := { read := some .system }

/-- The context block (R209). -/
def ctxReg (n : Nat) : Option SysReg :=
  match n with
  | 0x00 => some .ru
  | 0x01 => some (.ws (bitRange 63 48 + bitRange 28 8))
  | 0x02 => some (.us (bitRange 63 9 + bitRange 7 6))
  | 0x03 => some (.us (bitRange 63 18))
  | 0x04 => some (.us 0)
  | 0x05 => some (.us 0)
  | 0x06 => some (.us 0)
  | 0x07 => some (.us (bitRange 63 62 + bitRange 30 25))
  | 0x08 => some (.us (bitRange 15 0))
  | 0x09 => some (.us (bitRange 15 0))
  | 0x0A => some (.us (bitRange 15 0))
  | 0x0B => some (.us (bitRange 63 52 + bitRange 11 0))
  | 0x0C => some (.uu (bitRange 2 0))
  | 0x0D => some (.ss (bitRange 63 52 + bitRange 11 4))
  | 0x0E => some (.ss 0)
  | 0x0F => some (.us (bitRange 63 32))
  | 0x10 => some (.ss (bitRange 63 52 + bitRange 15 0))
  | 0x11 => some .rs
  | 0x12 => some (.ss (bitRange 63 1))
  | 0x13 => some (.ss (bitRange 63 48 + bitRange 19 8))
  | 0x14 => some (.ss 0)
  | 0x15 => some (.uu (bitRange 63 3))
  | 0x16 => some (.uu 0)
  | _ => none

/-- The wave block (R214, R215). -/
def waveReg (n : Nat) : Option SysReg :=
  if n < 8 then some { read := some .trap, own := true }
  else if n = 8 then some { read := some .trap, write := some .trap, own := true }
  else none

/-- The queue block (09_queue.md R225). -/
def queueReg (n : Nat) : Option SysReg :=
  if 0x400 ≤ n then none
  else match n % 16 with
    | 0 => some (.us (bitRange 63 52 + bitRange 11 4))
    | 1 => some (.us (bitRange 63 52 + bitRange 11 0))
    | 2 => some (.us (bitRange 63 48 + bitRange 7 3))
    | 3 => some (.ws (bitRange 63 8))
    | 4 => some .ru
    | 5 => some (.uu (bitRange 63 32))
    | 6 => some .ru
    | 7 => some .ru
    | 8 => some (.uu (bitRange 63 32))
    | _ => none

/-- The kernel block (10_kernel.md R249). -/
def kernelReg (n : Nat) : Option SysReg :=
  match n with
  | 0 => some .ru
  | 1 => some (.us (bitRange 63 21 + bitRange 15 11))
  | 2 => some .ru
  | _ => none

/-- The barrier block (12_barrier.md R276). -/
def barrierReg (n : Nat) : Option SysReg :=
  if n = 0x100 then some (.us (bitRange 63 32))
  else if 0x100 ≤ n then none
  else match n % 16 with
    | 0 => some (.us (bitRange 63 52 + bitRange 8 0))
    | 1 => some (.us (bitRange 19 18))
    | 2 => some (.ws (bitRange 63 8))
    | 3 => some .ru
    | _ => none

/-- The page block (13_page.md R309). -/
def pageReg (n : Nat) : Option SysReg :=
  match n with
  | 0x00 => some (.uu (bitRange 63 17))
  | 0x01 => some (.uu (bitRange 63 52))
  | 0x02 => some (.uu 0)
  | 0x03 => some .ru
  | 0x04 => some .ru
  | 0x05 => some (.us (bitRange 63 52 + bitRange 8 0))
  | 0x06 => some (.us (bitRange 63 32))
  | 0x10 => some (.ss (bitRange 63 2))
  | 0x11 => some .rs
  | 0x12 => some (.ws (bitRange 63 52 + bitRange 5 4))
  | 0x13 => some (.ss (bitRange 62 30))
  | 0x14 => some .rs
  | _ => none

/-- The coherence block (14_coherence.md R323). -/
def coherenceReg (n : Nat) : Option SysReg :=
  match n with
  | 0 => some (.ss (bitRange 63 52 + bitRange 6 0))
  | 1 => some .rs
  | 2 => some .rs
  | _ => none

/-- The matrix block (16_matrix.md R371). -/
def matrixReg (n : Nat) : Option SysReg :=
  match n with
  | 0 => some { SysReg.ru with own := true }
  | 1 => some { SysReg.ru with own := true }
  | 2 => some (.us (bitRange 63 52 + bitRange 20 1))
  | _ => none

/-- The pool block (17_block_pool.md R376). -/
def poolReg (n : Nat) : Option SysReg :=
  if 0x100 ≤ n then none
  else match n % 16 with
    | 0 => some (.us (bitRange 63 55 + bitRange 11 0))
    | 1 => some (.us (bitRange 63 60))
    | 2 => some (.us (bitRange 63 33 + bitRange 7 0))
    | 3 => some (.ss (bitRange 63 52 + bitRange 11 0))
    | 4 => some .ru
    | 5 => some (.ws (bitRange 63 8))
    | 6 => some .ru
    | _ => none

/-- The shutter block (19_shutter.md R429). -/
def shutterReg (n : Nat) : Option SysReg :=
  match n with
  | 0 => some (.us (bitRange 63 20))
  | 1 => some .ru
  | 2 => some .ru
  | _ => none

/-- The link block (20_link.md R444). -/
def linkReg (n : Nat) : Option SysReg :=
  match n with
  | 0x00 => some .ru
  | 0x01 => some .ru
  | 0x02 => some (.ss (bitRange 63 12))
  | 0x03 => some .rs
  | 0x04 => some (.ws (bitRange 63 8))
  | 0x05 => some (.uu (bitRange 63 1))
  | 0x06 => some (.ss (bitRange 63 52 + bitRange 11 4))
  | 0x07 => some (.ss 0)
  | 0x08 => some .ru
  | 0x10 => some (.ss (bitRange 63 6))
  | 0x11 => some (.ss (bitRange 31 24 + bitRange 15 12))
  | 0x12 => some (.ws (bitRange 63 8))
  | 0x13 => some .rs
  | _ => none

/-- The memory-device block (21_memory_devices.md). -/
def deviceReg (n : Nat) : Option SysReg :=
  match n with
  | 0 => some .rs
  | 1 => some .rs
  | 2 => some .rs
  | 3 => some (.ss (bitRange 63 16))
  | 4 => some (.ws (bitRange 63 15))
  | 5 => some (.ss (bitRange 63 52))
  | 6 => some (.ss 0)
  | 7 => some .rs
  | _ => none

/-- The platform block (22_platform.md R458). -/
def platformReg (n : Nat) : Option SysReg :=
  match n with
  | 0 => some .ru
  | 1 => some .ru
  | 2 => some (.us (bitRange 63 45 + bitRange 39 37 + bitRange 31 21 + bitRange 15 13))
  | 3 => some (.us (bitRange 31 12))
  | 4 => some (.ss (bitRange 63 9))
  | 5 => some .rs
  | _ => if 8 ≤ n ∧ n < 16 then some .ru else none

/-- The register of a number; none where no chapter assigns it (R208). -/
def sysReg (num : Nat) : Option SysReg :=
  let n := num % 4096
  match num / 4096 with
  | 0x0 => ctxReg n
  | 0x1 => waveReg n
  | 0x2 => queueReg n
  | 0x3 => kernelReg n
  | 0x4 => barrierReg n
  | 0x5 => pageReg n
  | 0x6 => coherenceReg n
  | 0x7 => if n = 0 then some { SysReg.ru with own := true } else none
  | 0x8 => matrixReg n
  | 0x9 => poolReg n
  | 0xA => shutterReg n
  | 0xB => linkReg n
  | 0xC => deviceReg n
  | 0xD => platformReg n
  | _ => none

/-! ### Reads -/

/-- KRN_STAT, KRN_LIMIT and KRN_FREE (10_kernel.md R249). -/
def Context.kernelRead (x : Context) (num : Nat) : Nat :=
  match num with
  | 0x3000 => x.krnPeak * 65536 + x.kernelsInUse
  | 0x3001 => x.krnLimit.toNat
  | _ => x.places1 * 65536 + x.places0

/-- The block of a wave. -/
def State.blockOf (s : State) (k : Nat) : Option Block := (s.waveAt k).block.bind (Cells.find s.blocks)

/-- A register that names the issuing wave, block or core (R214, 15_copy_and_tiles.md R340, 16_matrix.md R371). -/
def State.ownRead (s : State) (k num : Nat) : Nat × State :=
  let w := s.waveAt k
  match num with
  | 0x7000 => (match s.blockOf k with
    | none => 0
    | some b => b.handleWord, s)
  | 0x8000 => (if w.latency then 0 else s.banksWord w.core w.block, s)
  | 0x8001 => if w.latency then (0, s) else s.readMtxErr w.core
  | n => ((w.trapRec.getD (n % 8) 0).toNat, s)

/-- A read of a register but WAVE_RESUME, by a wave, for a target context. -/
def State.sysRead (s : State) (k c num : Nat) : Nat × State :=
  let x := s.ctxAt c
  match num / 4096 with
  | 0x0 => s.ctxRead c num
  | 0x1 => s.ownRead k num
  | 0x2 => (((x.queueAt (num / 16 % 64)).read (num % 16)).toNat, s)
  | 0x3 => (x.kernelRead num, s)
  | 0x4 => (if num = 0x4100 then x.wdCfg.toNat else ((x.groupAt (num / 16 % 16)).read (num % 16)).toNat, s)
  | 0x5 => ((s.pageRead c num).toNat, s)
  | 0x6 => ((s.cohRead num).toNat, s)
  | 0x7 => s.ownRead k num
  | 0x8 => if num = 0x8002 then (x.mtxBsave.toNat, s) else s.ownRead k num
  | 0x9 => (x.poolRead num, s)
  | 0xA => (x.shutterRead num, s)
  | 0xB => (s.linkRead c num, s)
  | 0xC => if num = 0xC007 then s.readMemErr else (s.deviceRead num, s)
  | 0xD => (s.platformRead num, s)
  | _ => (0, s)

/-! ### Writes -/

/-- A write of MTX_BSAVE (16_matrix.md R371). -/
def State.bsaveWrite (s : State) (c : Nat) (v : DWord) : State :=
  let st := (s.ctxAt c).st
  if st == .empty || st == .bound || st == .runnable || st == .saved then
    s.modCtx c (fun x => { x with mtxBsave := v &&& 0x000FFFFFFFE00001 })
  else s

/-- A write of SHT_CFG (19_shutter.md R429): what waits for shadows looks again. -/
def State.shtCfgWrite (s : State) (c : Nat) (v : DWord) : State :=
  if (s.ctxAt c).st = .destroying then s else (s.modCtx c (fun x => { x with shtCfg := v &&& 0xFFFFF })).roomChanged

/-- A write of WD_CFG (12_barrier.md R276). -/
def State.wdCfgWrite (s : State) (c : Nat) (v : DWord) : State :=
  if (s.ctxAt c).st = .destroying then s else s.modCtx c (fun x => { x with wdCfg := v &&& 0xFFFFFFFF })

/-- A write of a register but WAVE_RESUME, for a target context; `guest` is the writer's guest. -/
def State.sysPut (s : State) (guest c num : Nat) (v : DWord) : State :=
  match num / 4096 with
  | 0x0 => s.ctxWrite c num v
  | 0x2 => s.queueWrite c (num / 16 % 64) (num % 16) v false
  | 0x3 => s.writeKrnLimit c v
  | 0x4 => if num = 0x4100 then s.wdCfgWrite c v else s.groupWrite c (num / 16 % 16) (num % 16) v
  | 0x5 => if num = 0x5012 then s.plcCommand v else s.pageWrite c num v
  | 0x6 => s.writeDira v
  | 0x8 => s.bsaveWrite c v
  | 0x9 => s.poolWrite c num guest v
  | 0xA => s.shtCfgWrite c v
  | 0xB => s.linkWrite c num v
  | 0xC => s.deviceSet num v
  | 0xD => s.platformWrite num v
  | _ => s

/-- What a write of a register waits for: a RUN for the end of a save on its cores, an ARM for the ownership of the frame of
its bitmap (12_barrier.md R277). -/
def State.sysPutWaits (s : State) (c num : Nat) (v : DWord) : Check :=
  if num = 1 then .waitIf (decide (v.toNat % 256 = 3) && s.runWaits c) .cache
  else if num / 4096 = 4 ∧ num % 16 = 2 ∧ num < 0x4100 ∧ v.toNat % 256 = 1 then
    let y := (s.ctxAt c).groupAt (num / 16 % 16)
    let pa := bitsOf y.nodes.toNat 51 9 * 512
    if y.st = .off ∧ s.unowned pa then .wait .ownership [{ frame := pa / 65536 }] else .ok
  else .ok

/-! ### sysr and sysw (R211) -/

/-- The register number in FA: bits 15:0 of an s register, or a constant or literal. -/
def State.sysNum (s : State) (e : Env) : Nat :=
  match srcOf e.f.fa with
  | .s n => (s.sreg e n).toNat % 65536
  | _ => s.uvalue e 10 e.f.fa

/-- The register that a sysr or sysw names, its number and its target context; none where it raises ILLEGAL_OP. -/
def State.sysAccess (s : State) (e : Env) (write : Bool) : Option (SysReg × Nat × Nat) :=
  let w := s.waveAt e.key
  let useCtx := bitOf e.f.q 0
  let num := s.sysNum e
  let c := if useCtx then s.uvalue e 11 e.f.fb else w.ctx
  let inV := match srcOf e.f.fd with
    | .v _ => true
    | _ => false
  if 65535 < num ∨ 255 < c then none
  else match sysReg num with
    | none => none
    | some r =>
      let held := match if write then r.write else r.read with
        | none => false
        | some .user => true
        | some .system => (s.ctxAt w.ctx).sys
        | some .trap => w.trapMode
      let form := if num = 0x1008 then inV else !(write && inV)
      if held && form && !(useCtx && r.own) then some (r, num, c) else none

/-- The target context of sysr and sysw: an s register, an integer constant or a literal of any selector (R57, R211). -/
def targetCtx : Operand := .source { ty := 11, v := false, fconst := false, special := false }

/-- The encoding of sysr and sysw: FD aside. -/
def sysSpec (f : FWord) (fd : Operand) : OpSpec :=
  let useCtx := bitOf f.q 0
  { fd := fd, fa := poolNumber, fb := if useCtx then targetCtx else .unused, fc := .quals, qBits := 1, typing := .codes [10, 11]
    system := useCtx }

/-- Registers whose accesses order memory (R211). -/
def sysOrders (num : Nat) : Bool := num == 0x0E || decide (num ≤ 1)

/-- The v words of a value in a lane. -/
def sysWords (f : FWord) (lane x : Nat) : List (Nat × Word) :=
  match srcOf f.fd with
  | .v n => (n * 32 + lane, BitVec.ofNat 32 x) ::
      (if f.tcode = 11 then [((n + 1) * 32 + lane, BitVec.ofNat 32 (x / 2 ^ 32))] else [])
  | _ => []

/-- Gives a sysr its result, at long latency. -/
def State.sysResult (s : State) (e : Env) (x : Nat → Nat) : State :=
  match srcOf e.f.fd with
  | .s n =>
    let i := sIndex (s.waveAt e.key).trapMode n
    s.longResult e.key ([], [i]) [] [(i, BitVec.ofNat 64 (x (lowestLane e.act) % 2 ^ typeWidth e.f.tcode))]
  | fd =>
    let keys := match fd with
      | .v _ => s.destKeys e (if e.f.tcode = 11 then 2 else 1) e.f.fd e.act
      | _ => ([], [])
    s.longResult e.key keys ((laneList e.act).flatMap (fun l => sysWords e.f l (x l))) []

/-- sysr (R211). -/
def execSysr (f : FWord) (s : State) : Host.Outcome State Fault Refusal :=
  runWord (sysSpec f (.dest { ty := f.tcode })) f s (fun e t =>
    match t.sysAccess e false with
    | none => t.raise e { code := 1 }
    | some (_, num, c) =>
      if num = 0x1008 then
        (t.sysResult e (fun l => (Cells.get 0 (t.waveAt e.key).resumes l).toNat)).advance e
      else
        let u := if sysOrders num then t.acquire (t.waveAt e.key).core 4 else t
        let (x, v) := u.sysRead e.key c num
        (v.sysResult e (fun _ => x)).advance e)

/-- The value that a sysw gives a register: with .b32 the upper half keeps what it reads as (R211). -/
def sysNew (f : FWord) (old v : Nat) : Nat := if f.tcode = 11 then v else old / 2 ^ 32 * 2 ^ 32 + v % 2 ^ 32

/-- A sysw of WAVE_RESUME writes the resume address of each active lane (R215). -/
def State.resumeWrite (s : State) (e : Env) : State :=
  let v (l : Nat) : Nat := s.value e e.f.tcode e.f.fd l
  s.modWave e.key (fun w => { w with resumes := (laneList e.act).foldl (fun m l =>
    Cells.set 0 m l (BitVec.ofNat 64 (sysNew e.f (Cells.get 0 m l).toNat (v l)))) w.resumes })

/-- The wave waits until an operation on frames that its sysw of PLC_CMD has started is complete (13_page.md R309). -/
def State.holdFor (s : State) (k id : Nat) : State :=
  match Cells.find s.ops id with
  | none => s
  | some o => if o.done then s else s.modWave k (fun w => { w with hold := some (.operation id) })

/-- Performs a sysw that nothing stops: a release commits the held lines first, without a boundary (R211). -/
def State.sysPerform (s : State) (e : Env) (c num : Nat) (v : DWord) : State :=
  let guest := (s.ctxOf e).guest
  let missing := if sysOrders num then s.heldUnowned e.key else []
  if !missing.isEmpty then s.hold e .ownership missing
  else match if sysOrders num then s.commit e.key else (s, none) with
    | (s1, some t) => s1.raise e t
    | (s1, none) =>
      let t := (s1.advance e).sysPut guest c num v
      if num = 0x5012 then t.holdFor e.key s1.nextId else t

/-- sysw (R211). -/
def execSysw (f : FWord) (s : State) : Host.Outcome State Fault Refusal :=
  runWord (sysSpec f (.data { ty := f.tcode, fconst := false, special := false })) f s (fun e t =>
    match t.sysAccess e true with
    | none => t.raise e { code := 1 }
    | some (r, num, c) =>
      if num = 0x1008 then (t.resumeWrite e).advance e
      else
        let new := sysNew f (t.sysRead e.key c num).1 (t.uvalue e f.tcode f.fd)
        if Nat.land new r.reserved ≠ 0 then t.raise e { code := 2 }
        else match t.sysPutWaits c num (BitVec.ofNat 64 new) with
          | .wait b xs => t.hold e b xs
          | .trap x => t.raise e x
          | .ok => t.sysPerform e c num (BitVec.ofNat 64 new))

/-- SYSREG_WRITE (R208): a write from outside the waves, of a register that may be written and with no reserved bit set. -/
def execSysregWrite (ctx num : Nat) (value : DWord) (s : State) : Host.Outcome State Fault Refusal :=
  .next (match sysReg num with
    | none => s
    | some r =>
      if r.write.isNone || r.own || decide (Nat.land value.toNat r.reserved ≠ 0) then s
      else s.sysPut (s.ctxAt ctx).guest ctx num value)

/-! ### trap, tret, halt, icinv -/

/-- The encoding rules of trap, tret and halt (R216, R219). -/
def trapSpec : OpSpec := { fc := .quals, qBits := 0xFF }
def tretSpec : OpSpec := { fc := .quals }
def haltSpec : OpSpec := { fa := poolNumber, fc := .quals, qBits := 1, system := true }

/-- trap (R216): SW_TRAP; in trap mode a fatal fault with the record as held. -/
def execTrap (f : FWord) (s : State) : Host.Outcome State Fault Refusal :=
  runWord trapSpec f s (fun e t =>
    let w := t.waveAt e.key
    if w.trapMode then ({ t with last := .trapped } : State).fatal e.key w.trapRec (bitsOf (w.trapRec.headD 0).toNat 39 32)
    else t.raise e { code := 0x0F, detail := f.q % 256 })

/-- tret (R216): ILLEGAL_OP in normal mode, MISALIGN where a lane would go to an address that is no multiple of 8 (03_encoding.md
R47). -/
def execTret (f : FWord) (s : State) : Host.Outcome State Fault Refusal :=
  runWord tretSpec f s (fun e t =>
    let w := t.waveAt e.key
    let bad := (laneList w.m0).find? (fun l => decide ((Cells.get 0 w.resumes l).toNat % 8 ≠ 0))
    if !w.trapMode then t.raise e { code := 1 }
    else match bad with
    | some l => t.raise e { code := 4, lane := l, addr := (Cells.get 0 w.resumes l).toNat }
    | none =>
      (({ t with last := .issued } : State).returnFromTrap e.key).modWave e.key (fun w => { w with
        starve := (laneList e.lanes).foldl (fun m l => Cells.del m l) w.starve, blocked := none }))

/-- Issues halt (R219): ILLEGAL_OP for a target above 255, and where `bad` says so of the target and the issuing context. -/
def runHalt (bad : Nat → Nat → Bool) (act : Env → State → Nat → State) (f : FWord) (s : State) :
    Host.Outcome State Fault Refusal :=
  runWord haltSpec f s (fun e t =>
    let c := t.uvalue e 10 f.fa
    if decide (255 < c) || bad c (t.waveAt e.key).ctx then t.raise e { code := 1 } else act e (t.advance e) c)

/-- halt.stop (R219): it completes when no wave of the target is ACTIVE or PENDING, until when its wave issues nothing more. -/
def execHaltStop (f : FWord) (s : State) : Host.Outcome State Fault Refusal :=
  runHalt (fun c own => c == own) (fun e t c => (t.haltStop c).modWave e.key (fun w => { w with hold := some (.halts c) })) f s

/-- halt.go (R219). -/
def execHaltGo (f : FWord) (s : State) : Host.Outcome State Fault Refusal := runHalt (fun _ _ => false) (fun _ t c => t.haltGo c) f s

/-- Discards the instruction lines of a region in the instruction caches that a context's cores fetch through, or in one of them
(R222). -/
def State.discardFetched (s : State) (c : Nat) (only : Option Nat) (ps : List (Place × Nat)) : State :=
  let x := s.ctxAt c
  let near (site : Nat) : Bool := match only with
    | some n => site == n
    | none => if site < 1536 then x.grants site else (List.range 4).any (fun i => x.grants (1536 + 4 * (site - 1536) + i))
  { s with icache := s.icache.filter (fun l => !(near l.site && inParts ps l.line)) }

/-- icinv (R222): every instruction cache of the grant discards the region, on a latency core that of its cluster. -/
def execIcinv (f : FWord) (s : State) : Host.Outcome State Fault Refusal :=
  runWord (regionSpec f 14) f s (fun e t =>
    let w := t.waveAt e.key
    let va := t.address e f false (lowestLane e.act)
    t.checked e (t.partsCheck e va (regionSize f.q)) (fun u => (u.touchParts e.key va (regionSize f.q)).discardFetched w.ctx
      (if w.latency then some (fetchSite w.core) else none) (u.partsHere e.key va (regionSize f.q))))

end Sys2Proof.Machine
end

