-- ==== Sys2Proof/Machine/Dispatch.lean ====
section
/-! DEFINITION. The dispatch: one arm per instruction or event, each a direct call of its meaning. -/

namespace Sys2Proof.Machine

/-- Executes an instruction or an event. -/
def exec (i : Instr) (s : State) : Host.Outcome State Fault Refusal :=
  match i with
  | .add f => Sys2Proof.Machine.execAdd f s
  | .sub f => Sys2Proof.Machine.execSub f s
  | .mul f => Sys2Proof.Machine.execMul f s
  | .mulhi f => Sys2Proof.Machine.execMulhi f s
  | .mad f => Sys2Proof.Machine.execMad f s
  | .madhi f => Sys2Proof.Machine.execMadhi f s
  | .div f => Sys2Proof.Machine.execDiv f s
  | .rem f => Sys2Proof.Machine.execRem f s
  | .min f => Sys2Proof.Machine.execMin f s
  | .max f => Sys2Proof.Machine.execMax f s
  | .abs f => Sys2Proof.Machine.execAbs f s
  | .neg f => Sys2Proof.Machine.execNeg f s
  | .addc f => Sys2Proof.Machine.execAddc f s
  | .subb f => Sys2Proof.Machine.execSubb f s
  | .lea f => Sys2Proof.Machine.execLea f s
  | .and f => Sys2Proof.Machine.execAnd f s
  | .or f => Sys2Proof.Machine.execOr f s
  | .xor f => Sys2Proof.Machine.execXor f s
  | .andn f => Sys2Proof.Machine.execAndn f s
  | .not f => Sys2Proof.Machine.execNot f s
  | .shl f => Sys2Proof.Machine.execShl f s
  | .shr f => Sys2Proof.Machine.execShr f s
  | .sar f => Sys2Proof.Machine.execSar f s
  | .rot f => Sys2Proof.Machine.execRot f s
  | .bfe f => Sys2Proof.Machine.execBfe f s
  | .bfi f => Sys2Proof.Machine.execBfi f s
  | .popc f => Sys2Proof.Machine.execPopc f s
  | .clz f => Sys2Proof.Machine.execClz f s
  | .ctz f => Sys2Proof.Machine.execCtz f s
  | .brev f => Sys2Proof.Machine.execBrev f s
  | .prmt f => Sys2Proof.Machine.execPrmt f s
  | .sel f => Sys2Proof.Machine.execSel f s
  | .cmp f => Sys2Proof.Machine.execCmp f s
  | .mov f => Sys2Proof.Machine.execMov f s
  | .cvt f => Sys2Proof.Machine.execCvt f s
  | .fadd f => Sys2Proof.Machine.execFadd f s
  | .fsub f => Sys2Proof.Machine.execFsub f s
  | .fmul f => Sys2Proof.Machine.execFmul f s
  | .fma f => Sys2Proof.Machine.execFma f s
  | .fmin f => Sys2Proof.Machine.execFmin f s
  | .fmax f => Sys2Proof.Machine.execFmax f s
  | .fcmp f => Sys2Proof.Machine.execFcmp f s
  | .fcls f => Sys2Proof.Machine.execFcls f s
  | .frcp f => Sys2Proof.Machine.execFrcp f s
  | .frsq f => Sys2Proof.Machine.execFrsq f s
  | .fsqrt f => Sys2Proof.Machine.execFsqrt f s
  | .fexp2 f => Sys2Proof.Machine.execFexp2 f s
  | .flog2 f => Sys2Proof.Machine.execFlog2 f s
  | .fsin f => Sys2Proof.Machine.execFsin f s
  | .fcos f => Sys2Proof.Machine.execFcos f s
  | .ftanh f => Sys2Proof.Machine.execFtanh f s
  | .frnd f => Sys2Proof.Machine.execFrnd f s
  | .fscl f => Sys2Proof.Machine.execFscl f s
  | .fcvt f => Sys2Proof.Machine.execFcvt f s
  | .dot2 f => Sys2Proof.Machine.execDot2 f s
  | .dot4 f => Sys2Proof.Machine.execDot4 f s
  | .pfma f => Sys2Proof.Machine.execPfma f s
  | .padd f => Sys2Proof.Machine.execPadd f s
  | .pmul f => Sys2Proof.Machine.execPmul f s
  | .pmax f => Sys2Proof.Machine.execPmax f s
  | .pand f => Sys2Proof.Machine.execPand f s
  | .por f => Sys2Proof.Machine.execPor f s
  | .pxor f => Sys2Proof.Machine.execPxor f s
  | .pnot f => Sys2Proof.Machine.execPnot f s
  | .pmov f => Sys2Proof.Machine.execPmov f s
  | .pset f => Sys2Proof.Machine.execPset f s
  | .pget f => Sys2Proof.Machine.execPget f s
  | .ballot f => Sys2Proof.Machine.execBallot f s
  | .vany f => Sys2Proof.Machine.execVany f s
  | .vall f => Sys2Proof.Machine.execVall f s
  | .shfl f => Sys2Proof.Machine.execShfl f s
  | .redux f => Sys2Proof.Machine.execRedux f s
  | .scan f => Sys2Proof.Machine.execScan f s
  | .matchLanes f => Sys2Proof.Machine.execMatchLanes f s
  | .elect f => Sys2Proof.Machine.execElect f s
  | .bcast f => Sys2Proof.Machine.execBcast f s
  | .dWord d => Sys2Proof.Machine.execDWord d s
  | .bra f => Sys2Proof.Machine.execBra f s
  | .brx f => Sys2Proof.Machine.execBrx f s
  | .call f => Sys2Proof.Machine.execCall f s
  | .ret f => Sys2Proof.Machine.execRet f s
  | .exit f => Sys2Proof.Machine.execExit f s
  | .region f => Sys2Proof.Machine.execRegion f s
  | .yield f => Sys2Proof.Machine.execYield f s
  | .bkpt f => Sys2Proof.Machine.execBkpt f s
  | .join f => Sys2Proof.Machine.execJoin f s
  | .leave f => Sys2Proof.Machine.execLeave f s
  | .waitm f => Sys2Proof.Machine.execWaitm f s
  | .mset f => Sys2Proof.Machine.execMset f s
  | .mop f => Sys2Proof.Machine.execMop f s
  | .nop f => Sys2Proof.Machine.execNop f s
  | .ld f => Sys2Proof.Machine.execLd f s
  | .st f => Sys2Proof.Machine.execSt f s
  | .ldx f => Sys2Proof.Machine.execLdx f s
  | .stx f => Sys2Proof.Machine.execStx f s
  | .pref f => Sys2Proof.Machine.execPref f s
  | .cinv f => Sys2Proof.Machine.execCinv f s
  | .cwb f => Sys2Proof.Machine.execCwb f s
  | .stmap f => Sys2Proof.Machine.execStmap f s
  | .stunmap f => Sys2Proof.Machine.execStunmap f s
  | .stflush f => Sys2Proof.Machine.execStflush f s
  | .kvld f => Sys2Proof.Machine.execKvld f s
  | .atom f => Sys2Proof.Machine.execAtom f s
  | .atomSc f => Sys2Proof.Machine.execAtomSc f s
  | .red f => Sys2Proof.Machine.execRed f s
  | .fence f => Sys2Proof.Machine.execFence f s
  | .waitc f => Sys2Proof.Machine.execWaitc f s
  | .cpy f => Sys2Proof.Machine.execCpy f s
  | .cpyt f => Sys2Proof.Machine.execCpyt f s
  | .gath f => Sys2Proof.Machine.execGath f s
  | .tmset f => Sys2Proof.Machine.execTmset f s
  | .hacq f => Sys2Proof.Machine.execHacq f s
  | .hwait f => Sys2Proof.Machine.execHwait f s
  | .hrel f => Sys2Proof.Machine.execHrel f s
  | .tagq f => Sys2Proof.Machine.execTagq f s
  | .mxa f => Sys2Proof.Machine.execMxa f s
  | .mxap f => Sys2Proof.Machine.execMxap f s
  | .accal f => Sys2Proof.Machine.execAccal f s
  | .accfr f => Sys2Proof.Machine.execAccfr f s
  | .acczr f => Sys2Proof.Machine.execAcczr f s
  | .accdr f => Sys2Proof.Machine.execAccdr f s
  | .accrd f => Sys2Proof.Machine.execAccrd f s
  | .accwr f => Sys2Proof.Machine.execAccwr f s
  | .qmc f => Sys2Proof.Machine.execQmc f s
  | .smx f => Sys2Proof.Machine.execSmx f s
  | .cred f => Sys2Proof.Machine.execCred f s
  | .amask f => Sys2Proof.Machine.execAmask f s
  | .cjoin f => Sys2Proof.Machine.execCjoin f s
  | .cleave f => Sys2Proof.Machine.execCleave f s
  | .cqry f => Sys2Proof.Machine.execCqry f s
  | .bmakeNew f => Sys2Proof.Machine.execBmakeNew f s
  | .bmakeDrop f => Sys2Proof.Machine.execBmakeDrop f s
  | .barr f => Sys2Proof.Machine.execBarr f s
  | .bwait f => Sys2Proof.Machine.execBwait f s
  | .barw f => Sys2Proof.Machine.execBarw f s
  | .sstep f => Sys2Proof.Machine.execSstep f s
  | .launch f => Sys2Proof.Machine.execLaunch f s
  | .joink f => Sys2Proof.Machine.execJoink f s
  | .kqQuery f => Sys2Proof.Machine.execKqQuery f s
  | .kqKill f => Sys2Proof.Machine.execKqKill f s
  | .balloc f => Sys2Proof.Machine.execBalloc f s
  | .bfree f => Sys2Proof.Machine.execBfree f s
  | .seqnew f => Sys2Proof.Machine.execSeqnew f s
  | .seqdrop f => Sys2Proof.Machine.execSeqdrop f s
  | .seqfork f => Sys2Proof.Machine.execSeqfork f s
  | .kvapp f => Sys2Proof.Machine.execKvapp f s
  | .kvpub f => Sys2Proof.Machine.execKvpub f s
  | .seqlen f => Sys2Proof.Machine.execSeqlen f s
  | .poolq f => Sys2Proof.Machine.execPoolq f s
  | .snapNew f => Sys2Proof.Machine.execSnapNew f s
  | .snapNest f => Sys2Proof.Machine.execSnapNest f s
  | .sacc f => Sys2Proof.Machine.execSacc f s
  | .srej f => Sys2Proof.Machine.execSrej f s
  | .sqry f => Sys2Proof.Machine.execSqry f s
  | .sgrow f => Sys2Proof.Machine.execSgrow f s
  | .sgrowTrim f => Sys2Proof.Machine.execSgrowTrim f s
  | .pin f => Sys2Proof.Machine.execPin f s
  | .unpin f => Sys2Proof.Machine.execUnpin f s
  | .hint f => Sys2Proof.Machine.execHint f s
  | .pgqry f => Sys2Proof.Machine.execPgqry f s
  | .pgown f => Sys2Proof.Machine.execPgown f s
  | .recode f => Sys2Proof.Machine.execRecode f s
  | .trap f => Sys2Proof.Machine.execTrap f s
  | .tret f => Sys2Proof.Machine.execTret f s
  | .sysr f => Sys2Proof.Machine.execSysr f s
  | .sysw f => Sys2Proof.Machine.execSysw f s
  | .haltStop f => Sys2Proof.Machine.execHaltStop f s
  | .haltGo f => Sys2Proof.Machine.execHaltGo f s
  | .tlbinv f => Sys2Proof.Machine.execTlbinv f s
  | .icinv f => Sys2Proof.Machine.execIcinv f s
  | .sig f => Sys2Proof.Machine.execSig f s
  | .waitsig f => Sys2Proof.Machine.execWaitsig f s
  | .qpush f => Sys2Proof.Machine.execQpush f s
  | .put f => Sys2Proof.Machine.execPut f s
  | .get f => Sys2Proof.Machine.execGet f s
  | .coll f => Sys2Proof.Machine.execColl f s
  | .linkq f => Sys2Proof.Machine.execLinkq f s
  | .unassignedOpcode w ext => Sys2Proof.Machine.execUnassignedOpcode w ext s
  | .registerFill fill => Sys2Proof.Machine.execRegisterFill fill s
  | .engineOpRetire op => Sys2Proof.Machine.execEngineOpRetire op s
  | .waveEnterActive core pane => Sys2Proof.Machine.execWaveEnterActive core pane s
  | .dispatchChoose => Sys2Proof.Machine.execDispatchChoose s
  | .blockPlace die => Sys2Proof.Machine.execBlockPlace die s
  | .prologue block => Sys2Proof.Machine.execPrologue block s
  | .preemptComplete ctx => Sys2Proof.Machine.execPreemptComplete ctx s
  | .destroyComplete ctx => Sys2Proof.Machine.execDestroyComplete ctx s
  | .entryAccept ctx queue => Sys2Proof.Machine.execEntryAccept ctx queue s
  | .entryLaunch ctx queue hseq => Sys2Proof.Machine.execEntryLaunch ctx queue hseq s
  | .entrySignal ctx queue hseq => Sys2Proof.Machine.execEntrySignal ctx queue hseq s
  | .entryWait ctx queue hseq => Sys2Proof.Machine.execEntryWait ctx queue hseq s
  | .entryNop ctx queue hseq => Sys2Proof.Machine.execEntryNop ctx queue hseq s
  | .map frame ctx tier shared dframe => Sys2Proof.Machine.execMap frame ctx tier shared dframe s
  | .unmap frame => Sys2Proof.Machine.execUnmap frame s
  | .move frame tier => Sys2Proof.Machine.execMove frame tier s
  | .take frame => Sys2Proof.Machine.execTake frame s
  | .migrationLineCopy frame => Sys2Proof.Machine.execMigrationLineCopy frame s
  | .migrationCommit frame => Sys2Proof.Machine.execMigrationCommit frame s
  | .migrationRetire frame => Sys2Proof.Machine.execMigrationRetire frame s
  | .migrationAbort frame => Sys2Proof.Machine.execMigrationAbort frame s
  | .ownershipRelease frame => Sys2Proof.Machine.execOwnershipRelease frame s
  | .handoverComplete frame => Sys2Proof.Machine.execHandoverComplete frame s
  | .gets agent line => Sys2Proof.Machine.execGets agent line s
  | .getx agent line => Sys2Proof.Machine.execGetx agent line s
  | .upg agent line => Sys2Proof.Machine.execUpg agent line s
  | .puts agent line => Sys2Proof.Machine.execPuts agent line s
  | .putx agent msg => Sys2Proof.Machine.execPutx agent msg s
  | .wbk agent msg => Sys2Proof.Machine.execWbk agent msg s
  | .iack agent line => Sys2Proof.Machine.execIack agent line s
  | .rdat agent msg => Sys2Proof.Machine.execRdat agent msg s
  | .rack agent line => Sys2Proof.Machine.execRack agent line s
  | .dats agent msg => Sys2Proof.Machine.execDats agent msg s
  | .datx agent msg => Sys2Proof.Machine.execDatx agent msg s
  | .grnt agent line => Sys2Proof.Machine.execGrnt agent line s
  | .inv agent line => Sys2Proof.Machine.execInv agent line s
  | .rcls agent line => Sys2Proof.Machine.execRcls agent line s
  | .rclx agent line => Sys2Proof.Machine.execRclx agent line s
  | .ackp agent line => Sys2Proof.Machine.execAckp agent line s
  | .noncachingRequest req => Sys2Proof.Machine.execNoncachingRequest req s
  | .shutterUpdate agent ctx shutter => Sys2Proof.Machine.execShutterUpdate agent ctx shutter s
  | .copyTileWrite op => Sys2Proof.Machine.execCopyTileWrite op s
  | .mtxOperation core op => Sys2Proof.Machine.execMtxOperation core op s
  | .credRoundComplete cluster round => Sys2Proof.Machine.execCredRoundComplete cluster round s
  | .shutterRestore ctx shutter => Sys2Proof.Machine.execShutterRestore ctx shutter s
  | .shutterScrub ctx shutter => Sys2Proof.Machine.execShutterScrub ctx shutter s
  | .shadowWaitProceed ctx => Sys2Proof.Machine.execShadowWaitProceed ctx s
  | .powerUp => Sys2Proof.Machine.execPowerUp s
  | .regionStallAbort core => Sys2Proof.Machine.execRegionStallAbort core s
  | .freePlaceReport die => Sys2Proof.Machine.execFreePlaceReport die s
  | .bind ctx => Sys2Proof.Machine.execBind ctx s
  | .arm ctx => Sys2Proof.Machine.execArm ctx s
  | .run ctx => Sys2Proof.Machine.execRun ctx s
  | .preempt ctx => Sys2Proof.Machine.execPreempt ctx s
  | .destroy ctx => Sys2Proof.Machine.execDestroy ctx s
  | .resume ctx agent slot => Sys2Proof.Machine.execResume ctx agent slot s
  | .fail ctx agent slot => Sys2Proof.Machine.execFail ctx agent slot s
  | .sliceExpiry ctx => Sys2Proof.Machine.execSliceExpiry ctx s
  | .ctxRectWrite ctx value => Sys2Proof.Machine.execCtxRectWrite ctx value s
  | .ctxFqPtrWrite ctx value => Sys2Proof.Machine.execCtxFqPtrWrite ctx value s
  | .ctxDbgDataAccess ctx write => Sys2Proof.Machine.execCtxDbgDataAccess ctx write s
  | .krnLimitWrite ctx value => Sys2Proof.Machine.execKrnLimitWrite ctx value s
  | .cohDiraWrite value => Sys2Proof.Machine.execCohDiraWrite value s
  | .mtxErrRead core => Sys2Proof.Machine.execMtxErrRead core s
  | .memErrRead => Sys2Proof.Machine.execMemErrRead s
  | .sysregWrite ctx num value => Sys2Proof.Machine.execSysregWrite ctx num value s
  | .queueEnable ctx queue => Sys2Proof.Machine.execQueueEnable ctx queue s
  | .queuePause ctx queue => Sys2Proof.Machine.execQueuePause ctx queue s
  | .queueResume ctx queue => Sys2Proof.Machine.execQueueResume ctx queue s
  | .queueDisable ctx queue => Sys2Proof.Machine.execQueueDisable ctx queue s
  | .queueClear ctx queue => Sys2Proof.Machine.execQueueClear ctx queue s
  | .queueDoorbellWrite ctx queue value => Sys2Proof.Machine.execQueueDoorbellWrite ctx queue value s
  | .queueCplConsWrite ctx queue value => Sys2Proof.Machine.execQueueCplConsWrite ctx queue value s
  | .ssArm ctx group => Sys2Proof.Machine.execSsArm ctx group s
  | .ssReset ctx group => Sys2Proof.Machine.execSsReset ctx group s
  | .ssDone node tag stepNo => Sys2Proof.Machine.execSsDone node tag stepNo s
  | .ssTimeout ctx group => Sys2Proof.Machine.execSsTimeout ctx group s
  | .watchdogExpiry ctx => Sys2Proof.Machine.execWatchdogExpiry ctx s
  | .placementTick => Sys2Proof.Machine.execPlacementTick s
  | .recall dframe node => Sys2Proof.Machine.execRecall dframe node s
  | .ownTimeout frame => Sys2Proof.Machine.execOwnTimeout frame s
  | .shootdownRequest req => Sys2Proof.Machine.execShootdownRequest req s
  | .shootdownAck serial child count fenced => Sys2Proof.Machine.execShootdownAck serial child count fenced s
  | .shootdownChildTimeout serial child => Sys2Proof.Machine.execShootdownChildTimeout serial child s
  | .fencedNodeNotice node => Sys2Proof.Machine.execFencedNodeNotice node s
  | .poolCreate ctx pool => Sys2Proof.Machine.execPoolCreate ctx pool s
  | .poolReset ctx pool => Sys2Proof.Machine.execPoolReset ctx pool s
  | .flitReceive port crcOk intact flit => Sys2Proof.Machine.execFlitReceive port crcOk intact flit s
  | .portLock port => Sys2Proof.Machine.execPortLock port s
  | .portTrainingDone port => Sys2Proof.Machine.execPortTrainingDone port s
  | .portTrainingTimeout port => Sys2Proof.Machine.execPortTrainingTimeout port s
  | .portLossOfLock port => Sys2Proof.Machine.execPortLossOfLock port s
  | .portRetrainDone port => Sys2Proof.Machine.execPortRetrainDone port s
  | .portRetrainTimeout port => Sys2Proof.Machine.execPortRetrainTimeout port s
  | .nodeHandshakeDone node => Sys2Proof.Machine.execNodeHandshakeDone node s
  | .nodeTrainingTimeout node => Sys2Proof.Machine.execNodeTrainingTimeout node s
  | .nodeRetrainTimeout node => Sys2Proof.Machine.execNodeRetrainTimeout node s
  | .fabricAccess req => Sys2Proof.Machine.execFabricAccess req s
  | .fabricAck node seq refused => Sys2Proof.Machine.execFabricAck node seq refused s
  | .fabricReply request reply => Sys2Proof.Machine.execFabricReply request reply s
  | .fenceBoundExpiry wave => Sys2Proof.Machine.execFenceBoundExpiry wave s
  | .collMessage msg => Sys2Proof.Machine.execCollMessage msg s
  | .lnkUnfence node => Sys2Proof.Machine.execLnkUnfence node s
  | .lnkDown node => Sys2Proof.Machine.execLnkDown node s
  | .lnkFence node => Sys2Proof.Machine.execLnkFence node s
  | .sessionOpen slot => Sys2Proof.Machine.execSessionOpen slot s
  | .sessionLock slot => Sys2Proof.Machine.execSessionLock slot s
  | .sessionUnlock slot => Sys2Proof.Machine.execSessionUnlock slot s
  | .sessionClose slot => Sys2Proof.Machine.execSessionClose slot s
  | .keyupd slot => Sys2Proof.Machine.execKeyupd slot s
  | .spdmMessage slot msg => Sys2Proof.Machine.execSpdmMessage slot msg s
  | .getMeasurements index => Sys2Proof.Machine.execGetMeasurements index s
  | .hostAccess req => Sys2Proof.Machine.execHostAccess req s
  | .hbmReply dframe line err => Sys2Proof.Machine.execHbmReply dframe line err s
  | .mapout stack layer => Sys2Proof.Machine.execMapout stack layer s
  | .wake => Sys2Proof.Machine.execWake s
  | .standby => Sys2Proof.Machine.execStandby s
  | .thermalTrip => Sys2Proof.Machine.execThermalTrip s
  | .clockTick m => Sys2Proof.Machine.execClockTick m s
  | .collTimeout ctx group => Sys2Proof.Machine.execCollTimeout ctx group s
  | .lpddrReply dframe line err => Sys2Proof.Machine.execLpddrReply dframe line err s
  | .cxlMemResponse dframe line err => Sys2Proof.Machine.execCxlMemResponse dframe line err s

end Sys2Proof.Machine
end

