-- ==== Sys2Proof/Machine/Schedule.lean ====
section
/-! DEFINITION. What may move next: an event from outside, an event the package owes itself, or a turn of a pane. Events
that the spec orders among themselves stay in order; between the others nothing is fixed, and a free value chooses. -/

namespace Sys2Proof.Machine

open Sys2Proof

/-- Something that may move. -/
inductive Move where
  | inbox
  /-- An entry of the agenda, by its place. -/
  | owed (place : Nat)
  | event (i : Instr)
  | pane (core pane : Nat)
  deriving DecidableEq, Repr

/-- Two owed events that keep their order: messages between one agent and one home in one direction (14_coherence.md R314),
requests of one line that come from no agent, and those that are the same event. -/
def State.sameChannel (s : State) (a b : Instr) : Bool :=
  match messagePair a, messagePair b with
  | some (x, d, k), some (y, e, l) => x == y && d == e && s.homeOf k == s.homeOf l
  | none, none => match messageLine a, messageLine b with
    | some k, some l => k == l
    | _, _ => decide (a = b)
  | _, _ => false

/-- The places of the agenda's entries that no earlier entry holds back. -/
def State.owedPlaces (s : State) : List Nat :=
  (s.agenda.zipIdx.filter (fun (i, n) => !(s.agenda.take n).any (fun j => s.sameChannel j i))).map (·.2)

/-- The panes with a wave that may issue. -/
def State.panes (s : State) : List (Nat × Nat) :=
  s.waves.foldl (fun ps (_, w) =>
    if w.life = .active ∧ w.ready ≠ 0 ∧ !ps.contains (w.core, w.pane) then ps ++ [(w.core, w.pane)] else ps) []

/-- Events that follow from the state alone. -/
def State.derived (s : State) : List Instr :=
  match s.power with
  | .released => [.powerUp]
  | .running =>
    s.activeEvents ++ s.queueEvents ++ (if s.eligible.isEmpty then [] else [.dispatchChoose]) ++
    ([0, 1].filter s.canPlace).map (fun d => .blockPlace d) ++ s.releaseEvents ++ s.shutterEvents ++ s.contextEvents
  | _ => []

/-- An event, not an instruction word. -/
def isEvent (i : Instr) : Bool := (encode i).isNone

/-- An event from outside reaches the package: one that has not booted, or is off, hears only its power supply and the host
(22_platform.md R452, R455). -/
def State.takes (s : State) (i : Instr) : Bool :=
  isEvent i && (s.power == .running || (match i with
    | .powerUp => true
    | .wake => true
    | .standby => true
    | .thermalTrip => true
    | .hostAccess _ => true
    | _ => false))

/-- Everything that may move. -/
def State.moves (s : State) : List Move :=
  (if s.inbox.isEmpty then [] else [.inbox]) ++ s.owedPlaces.map Move.owed ++ s.derived.map Move.event ++
  s.panes.map (fun p => .pane p.1 p.2)

/-- Performs a move. -/
def State.perform (s : State) (exec : Exec) (m : Move) : Host.Outcome State Fault Refusal :=
  match m with
  | .inbox => match s.inbox with
    | [] => .next s
    | i :: is => if s.takes i then exec i { s with inbox := is } else .next { s with inbox := is }
  | .owed n => match s.agenda[n]? with
    | none => .next s
    | some i => if isEvent i then exec i { s with agenda := s.agenda.eraseIdx n } else .next { s with agenda := s.agenda.eraseIdx n }
  | .event i => exec i s
  | .pane c p => s.paneTurn exec (s.paneWaves c p)

/-- The next mover: the only one there is, or one that a free value chooses. -/
def State.nextMove (s : State) : Option Move :=
  match s.moves with
  | [] => none
  | [m] => some m
  | ms => ms[Config.turn s.tick % ms.length]?

/-- The accumulator elements whose parity fails, once a soft error may have struck one (16_matrix.md R350). -/
def State.struck (s : State) : Cells Bool :=
  match Config.softError s.tick with
  | none => s.accParity
  | some k => Cells.set false s.accParity (k % (1536 * 65536)) true

/-- Time goes on. -/
def State.pass (s : State) : State :=
  { s with tick := s.tick + 1
           cycle := s.cycle + Config.cycles s.tick
           latencyCycle := s.latencyCycle + Config.latencyCycles s.tick
           timeNs := s.timeNs + Config.nanoseconds s.tick
           accParity := s.struck }

/-- What a wave's held instruction waits for has come about, so that the wave issues again. -/
def State.holdOver (s : State) (h : Hold) : Bool :=
  match h with
  | .operation id => match Cells.find s.ops id with
    | none => true
    | some o => o.done
  | .writeback agent lines => lines.all (fun l => match s.cacheAt agent l with
    | none => true
    | some c => c.st != .evict) && lines.all (fun l => Cells.get 0 s.writebacks (cacheKey agent l) == 0)
  | .reply fill _ _ _ => match Cells.find s.fills fill with
    | none => true
    | some x => x.ready
  | .halts c => s.waves.all (fun (_, w) => w.ctx != c || decide (w.life ≠ .active ∧ w.life ≠ .pending))
  | _ => false

/-- Ends what holds a wave: the entries of a region boundary that waited for replies move behind it (05_wave.md R132). -/
def State.settleHold (s : State) (k : Nat) : State :=
  match (s.waveAt k).hold with
  | none => s
  | some h =>
    if !s.holdOver h then s
    else s.modWave k (fun w =>
      let u := { w with hold := none }
      match h with
      | .reply _ lanes next true => if u.trapMode then u else u.setEntries (laneList lanes) (fun _ => next)
      | _ => u)

/-- A wave of the active set that has no group at all, its lanes waiting, leaves it where R140 of 05_wave.md says so, or is HALTED
(08_context.md R219). -/
def State.settleIdle (s : State) (k : Nat) : State := if (s.waveAt k).ready = 0 then (s.meetHalt k).swapOut k else s

/-- What holds as soon as a step has ended: waits that are over end, and waves that could issue are known (05_wave.md R141). -/
def State.settle (s : State) (exec : Exec) : State :=
  if s.power ≠ .running then s
  else
    let keys := s.waves.map (·.1)
    let s1 := keys.foldl (fun t k => ((((t.settleHold k).settleSignal k).settleSteps k).settleFence k).settleIdle k) s.serveReads
    let s2 := (((((s1.settleDeficits).settleMapout).settleStarved).settleFabric).settleHost).settleShoots
    let marked := (s2.waves.filter (fun (_, w) => w.life == .pending || (w.life == .active && w.blocked.isSome))).map (·.1)
    marked.foldl (fun t k => t.markPending exec k) s2

/-- One step over the execution of instructions. -/
def State.stepWith (s : State) (exec : Exec) : Host.Outcome State Fault Refusal :=
  match s.nextMove with
  | none => .next s.pass
  | some m => match s.perform exec m with
    | .next t => .next (t.settle exec).pass
    | r => r

/-! ### A state that fetches a given instruction -/

/-- Where the wave that issues next fetches: the device byte. -/
def State.nextFetch (s : State) : Option Nat :=
  match s.moves with
  | [.pane c p] => match s.paneWaves c p with
    | k :: _ => match (s.waveAt k).ordered with
      | g :: _ => match s.fetchPlace (s.waveAt k).ctx (s.waveAt k).core g.pc.toNat with
        | .ok pa => s.device pa
        | .error _ => none
      | [] => none
    | [] => none
  | _ => none

/-- An image with the smallest payload that runs: the level-3 table at package address 0, whose entry 0 leads back to itself
as the level-2 table, and whose entry 1 maps the 512 MiB from virtual address 2^29 on to package address 0. -/
def fetchImage : ConfigImage :=
  { order := 0, rev := 0, node := 0, coremap := List.replicate 16 96, mapout0 := 0, mapout1 := 0, trims := [], identity := {}
    signatureOk := true, strap := 0, trains := true, portsUp := [], payload := toBytes 8 1 ++ toBytes 8 0x1F, paFrame := 0, root := 0
    entry := 0x20000100, fqBase := 0x8000, fqSize := 0 }

/-- The package just booted with that image. -/
def bootedState : State := ({ State.reset with flash := some fetchImage } : State).boot

/-- A state with bytes placed where its next instruction is fetched. -/
def State.fetching (s : State) (bs : List Byte) : State :=
  let t := if s.nextFetch.isSome then s else bootedState
  match t.nextFetch with
  | none => t
  | some k => { t with icache := [] }.store k bs

end Sys2Proof.Machine
end

