-- ==== Sys2Proof/Machine/Step.lean ====
section
/-! DEFINITION. The step of the machine, and a state that fetches a given instruction next. -/

namespace Sys2Proof.Machine

open Sys2Proof

/-- One step: what may move next moves, and time goes on. -/
def step (s : State) : Host.Outcome State Fault Refusal := s.stepWith exec

/-- `s` with an instruction, of bits `w` below `nbits`, stored where `step` fetches next. A state in which no single wave is
about to issue (right after reset nothing runs, and a program comes in with boot's payload, 22_platform.md R452) is
replaced by the package just booted with a payload of two page-table entries, whose boot thread issues next. -/
def State.withFetchWord (s : State) (nbits w : Nat) : State := s.fetching (toBytes 16 (w % 2 ^ nbits))

end Sys2Proof.Machine
end

