-- ==== Sys2Proof/Safety.lean ====
section
/-! DEFINITION. What the statements say of an outcome and of a state: that an instruction issues and completes, what its
destination holds, what it leaves alone, and the form that memory keeps. -/

namespace Sys2Proof.Machine

open Sys2Proof

/-! ### Outcomes -/

/-- The outcome is a next state. -/
def Completes (r : Host.Outcome State Fault Refusal) : Prop := ∃ t, r = .next t

/-- Memory is in its canonical form. -/
def State.MemOk (s : State) : Prop := Memory.wf s.mem = true

/-! ### Issue (03_encoding.md R78) -/

/-- A word issues: it stands in issue with the environment `e`, no check of steps 3 to 6 stands against it, and some lane
is active. -/
structure Issues (p : OpSpec) (f : FWord) (s : State) (e : Env) : Prop where
  env : s.envOf f = some e
  legal : p.trap (s.encEnv e.key) f = none
  active : e.act ≠ 0
  full : s.emptyCheck p e = .ok

/-! ### Results -/

/-- The destination field FD of the word in issue holds the result `x` of a type in a lane: a v register or an aligned pair, an
s register, or a mask register (03_encoding.md R27, R51, R54, R66). -/
def State.ResultIs (t : State) (e : Env) (ty lane x : Nat) : Prop :=
  let w := t.waveAt e.key
  match srcOf e.f.fd with
  | .v n =>
    if typeWidth ty = 64 then
      w.regs.vGet n lane = BitVec.ofNat 32 x ∧ w.regs.vGet (n + 1) lane = BitVec.ofNat 32 (x / 2 ^ 32)
    else w.regs.vGet n lane = extend32 ty x
  | .s n => w.regs.sGet w.trapMode n = extend64 ty x
  | .special k => w.regs.mGet (k - 0x10) = if w.latency then BitVec.ofNat 32 x &&& 1 else BitVec.ofNat 32 x
  | _ => True

/-- The v register `n` of a lane is part of FD's result of a type. -/
def Env.WritesV (e : Env) (ty n lane : Nat) : Prop :=
  lane ∈ laneList e.act ∧ ∃ d, srcOf e.f.fd = .v d ∧ (n = d ∨ (typeWidth ty = 64 ∧ n = d + 1))

/-- Everything outside the wave in issue stands as it did. -/
def State.OnlyWave (t s : State) (k : Nat) : Prop :=
  { t with waves := s.waves, last := s.last } = s ∧ ∀ j, j ≠ k → Cells.find t.waves j = Cells.find s.waves j

/-- Of a wave, only registers, program counters, starvation counts and waits have changed. -/
def Wave.SameBut (w u : Wave) : Prop :=
  u = { w with regs := u.regs, pcs := u.pcs, starve := u.starve, blocked := u.blocked, waits := u.waits }

/-- The lanes of the group that wait on nothing stand behind the instruction. -/
def State.MovesOn (t s : State) (e : Env) : Prop :=
  ∀ l ∈ laneList (e.lanes &&& ~~~ (s.waveAt e.key).waiting), (t.waveAt e.key).pcOf l = e.pc + BitVec.ofNat 64 e.size

/-- What an instruction leaves alone whose only effects are its destination FD, of a type, and predicates of the active
lanes: every other register of the wave, and everything outside the wave, memory and system registers included. -/
structure State.OnlyDest (t s : State) (e : Env) (ty : Nat) (ps : List Nat) : Prop where
  outside : t.OnlyWave s e.key
  ofWave : (s.waveAt e.key).SameBut (t.waveAt e.key)
  keepsV : ∀ n l, l < 32 → ¬ e.WritesV ty n l → (t.waveAt e.key).regs.vGet n l = (s.waveAt e.key).regs.vGet n l
  keepsS : ∀ i, (∀ d, srcOf e.f.fd = .s d → i ≠ sIndex (s.waveAt e.key).trapMode d) →
    Cells.get 0 (t.waveAt e.key).regs.s i = Cells.get 0 (s.waveAt e.key).regs.s i
  keepsP : ∀ i, (∀ l ∈ laneList e.act, ∀ n ∈ ps, i ≠ pIndex (s.waveAt e.key).trapMode n * 32 + l) →
    Cells.get false (t.waveAt e.key).regs.p i = Cells.get false (s.waveAt e.key).regs.p i
  keepsM : ∀ k, (∀ d, srcOf e.f.fd = .special d → k ≠ d - 0x10) →
    (t.waveAt e.key).regs.mGet k = (s.waveAt e.key).regs.mGet k
  moves : t.MovesOn s e

/-- Every result lane's destination holds the value `val` gives it, and nothing else has changed. -/
def State.Writes (t s : State) (e : Env) (ty : Nat) (val : Nat → Nat) : Prop :=
  (∀ l ∈ e.resultLanes, t.ResultIs e ty l (val l)) ∧ t.OnlyDest s e ty []

/-- Where a condition holds, an instruction computes a value of a type in each result lane, and does nothing else. -/
def ComputesIf (p : FWord → OpSpec) (i : FWord → Instr) (ok : FWord → State → Env → Prop) (ty : FWord → Nat)
    (val : FWord → State → Env → Nat → Nat) : Prop :=
  ∀ f s e, Issues (p f) f s e → ok f s e → ∃ t, exec (i f) s = .next t ∧ t.Writes s e (ty f) (val f s e)

/-- An instruction computes a value of a type in each result lane, and does nothing else. -/
def Computes (p : FWord → OpSpec) (i : FWord → Instr) (ty : FWord → Nat) (val : FWord → State → Env → Nat → Nat) : Prop :=
  ComputesIf p i (fun _ _ _ => True) ty val

/-- Each predicate of a range from `n` on holds in each active lane what `val` gives it, p0 true (03_encoding.md R66), and
no other register and nothing outside the wave has changed. -/
structure State.WritesPreds (t s : State) (e : Env) (n count : Nat) (val : Nat → Nat → Bool) : Prop where
  holds : ∀ l ∈ laneList e.act, ∀ i, i < count →
    (t.waveAt e.key).regs.pGet (s.waveAt e.key).trapMode (n + i) l = (n + i == 0 || val i l)
  outside : t.OnlyWave s e.key
  ofWave : (s.waveAt e.key).SameBut (t.waveAt e.key)
  keepsV : (t.waveAt e.key).regs.v = (s.waveAt e.key).regs.v
  keepsS : (t.waveAt e.key).regs.s = (s.waveAt e.key).regs.s
  keepsM : (t.waveAt e.key).regs.m = (s.waveAt e.key).regs.m
  keepsP : ∀ j, (∀ l ∈ laneList e.act, ∀ i, i < count → j ≠ pIndex (s.waveAt e.key).trapMode (n + i) * 32 + l) →
    Cells.get false (t.waveAt e.key).regs.p j = Cells.get false (s.waveAt e.key).regs.p j
  moves : t.MovesOn s e

/-- An instruction computes the predicate FD in each active lane, and does nothing else. -/
def Decides (p : FWord → OpSpec) (i : FWord → Instr) (val : FWord → State → Env → Nat → Bool) : Prop :=
  ∀ f s e, Issues (p f) f s e → ∃ t, exec (i f) s = .next t ∧
    t.WritesPreds s e f.fd.toNat 1 (fun _ l => val f s e l)

/-! ### Control -/

/-- An instruction passes: no register has changed, nothing outside the wave, and its lanes go on. -/
structure State.Passes (t s : State) (e : Env) : Prop where
  outside : t.OnlyWave s e.key
  ofWave : (s.waveAt e.key).SameBut (t.waveAt e.key)
  regs : (t.waveAt e.key).regs = (s.waveAt e.key).regs
  moves : t.MovesOn s e

/-- The active lanes of a group go to targets of their own, its other lanes behind the instruction; of the rest only
registers may have changed. -/
structure State.BranchesTo (t s : State) (e : Env) (target : Nat → DWord) : Prop where
  outside : t.OnlyWave s e.key
  ofWave : (s.waveAt e.key).SameBut (t.waveAt e.key)
  taken : ∀ l ∈ laneList e.act, (t.waveAt e.key).pcOf l = target l
  falls : ∀ l ∈ laneList (e.lanes &&& ~~~ e.act &&& ~~~ (s.waveAt e.key).waiting),
    (t.waveAt e.key).pcOf l = e.pc + BitVec.ofNat 64 e.size

/-- Only mask register `k` of the wave in issue has changed, and holds `x` (on a latency core its bit 0). -/
structure State.WritesMask (t s : State) (e : Env) (k : Nat) (x : Word) : Prop where
  outside : t.OnlyWave s e.key
  ofWave : (s.waveAt e.key).SameBut (t.waveAt e.key)
  holds : (t.waveAt e.key).regs.mGet k = if (s.waveAt e.key).latency then x &&& 1 else x
  keeps : ∀ j, j ≠ k → (t.waveAt e.key).regs.mGet j = (s.waveAt e.key).regs.mGet j
  others : { (t.waveAt e.key).regs with m := (s.waveAt e.key).regs.m } = (s.waveAt e.key).regs
  moves : t.MovesOn s e

/-! ### Region boundaries (05_wave.md R132, R135) -/

/-- A boundary opens: the frames of the wave's pending lines are owned, the lines are committed, and `s1` is the state behind
that, with the region-entry counter raised and the entries at the instruction. -/
structure State.Opens (s : State) (e : Env) (s1 : State) : Prop where
  owned : s.heldUnowned e.key = []
  opens : s.openBoundary e = (s1, none)

/-- A boundary instruction has had its effect: the entries of its lanes move behind it, and the lanes go on. -/
def State.closed (t : State) (e : Env) : State := (t.closeBoundary e).advance e

/-- Where a condition holds of the state behind the commit, a boundary instruction completes with its effect on that state;
its operands are those of the state in which it issues. -/
def AtBoundary (p : FWord → State → OpSpec) (i : FWord → Instr) (ok : FWord → State → Env → State → Prop)
    (act : FWord → State → Env → State → State) : Prop :=
  ∀ f s e s1, Issues (p f s) f s e → s.Opens e s1 → ok f s e s1 → exec (i f) s = .next ((act f s e s1).closed e)

/-- The same for an instruction that acts on the block of the issuing wave and reads the registers that `q` names. -/
def OnBlockReading (p q : FWord → State → OpSpec) (i : FWord → Instr) (ok : FWord → State → Env → State → Nat → Block → Prop)
    (act : FWord → State → Env → State → Nat → Block → State) : Prop :=
  ∀ f s e s1 b blk, s.envOf f = some e → (p f s).trap (s.encEnv e.key) f = none → e.act ≠ 0 → s.emptyCheck (q f s) e = .ok →
    s.Opens e s1 → s.issuerBlock = some (b, blk) → ok f s e s1 b blk → exec (i f) s = .next ((act f s e s1 b blk).closed e)

/-- The same for one that reads every register its operands name. -/
def OnBlock (p : FWord → State → OpSpec) (i : FWord → Instr) (ok : FWord → State → Env → State → Nat → Block → Prop)
    (act : FWord → State → Env → State → Nat → Block → State) : Prop := OnBlockReading p p i ok act

/-! ### Results in flight (03_encoding.md R70) -/

/-- What holds of the registers now, or as soon as a result that this instruction has put in flight is written. -/
def State.Lands (t : State) (ok : State → Prop) : Prop :=
  ok t ∨ ∃ id, (Cells.find t.fills id).isSome ∧ .registerFill id ∈ t.agenda ∧ ok (t.finishFill id)

/-- FD, an s register, holds a 64-bit value now, or as soon as a result in flight is written. -/
def State.AnswersS (t s : State) (e : Env) (x : Nat) : Prop :=
  t.Lands (fun u => ∀ n, srcOf e.f.fd = .s n →
    (u.waveAt e.key).regs.sGet (s.waveAt e.key).trapMode n = BitVec.ofNat 64 x)

/-- The destination field FD of the word in issue holds element `i`, of a type, of its group in a lane: `x`. -/
def State.ElementIs (t : State) (e : Env) (ty lane i x : Nat) : Prop :=
  let w := t.waveAt e.key
  match srcOf e.f.fd with
  | .v n =>
    if typeWidth ty = 64 then
      w.regs.vGet (n + 2 * i) lane = BitVec.ofNat 32 x ∧ w.regs.vGet (n + 2 * i + 1) lane = BitVec.ofNat 32 (x / 2 ^ 32)
    else w.regs.vGet (n + i) lane = extend32 ty x
  | .s n => w.regs.sGet w.trapMode n = extend64 ty x
  | _ => True

/-- The registers of the group of `cnt` elements that FD names in a lane. -/
def Env.GroupHas (e : Env) (ty cnt : Nat) (lanes : List Nat) (n lane : Nat) : Prop :=
  lane ∈ lanes ∧ ∃ d, srcOf e.f.fd = .v d ∧ d ≤ n ∧ n < d + cnt * ((typeWidth ty + 31) / 32)

/-- The registers of the wave in issue are those of `s` but for FD, which holds the elements of each lane's bytes. -/
def State.HoldsElements (u s : State) (e : Env) (ty cnt : Nat) (lanes : List Nat) (bytes : Nat → List Byte) : Prop :=
  let sz := typeWidth ty / 8
  let w := s.waveAt e.key
  let v := u.waveAt e.key
  (∀ l ∈ lanes, ∀ i, i < cnt → u.ElementIs e ty l i (ofBytes (((bytes l).drop (i * sz)).take sz))) ∧
  (∀ n l, l < 32 → ¬ e.GroupHas ty cnt lanes n l → v.regs.vGet n l = w.regs.vGet n l) ∧
  (∀ i, (∀ d, srcOf e.f.fd = .s d → i ≠ sIndex w.trapMode d) → Cells.get 0 v.regs.s i = Cells.get 0 w.regs.s i) ∧
  v.regs.p = w.regs.p ∧ v.regs.m = w.regs.m

/-- A load completes: its bytes reach FD at once or as a result in flight, the other waves stand as they did, and the lanes go
on; where no line of it has to be restored first, memory, stash and contexts stand as they did. -/
structure State.Loads (t s : State) (e : Env) (ty cnt : Nat) (lanes : List Nat) (bytes : Nat → List Byte) (still : Prop) :
    Prop where
  lands : t.Lands (fun u => u.HoldsElements s e ty cnt lanes bytes)
  waves : ∀ j, j ≠ e.key → Cells.find t.waves j = Cells.find s.waves j
  memory : still → t.mem = s.mem
  stash : still → t.stash = s.stash
  contexts : still → t.ctxs = s.ctxs
  moves : t.MovesOn s e

/-! ### Memory -/

/-- The byte that a store of lanes leaves at an address: that of the highest lane whose `n` bytes at `addr` hold it. -/
def lastByte (lanes : List Nat) (addr : Nat → Nat) (n : Nat) (data : Nat → List Byte) (a : Nat) (old : Byte) : Byte :=
  match lanes.reverse.find? (fun l => decide (addr l ≤ a) && decide (a < addr l + n)) with
  | none => old
  | some l => (data l).getD (a - addr l) 0

/-- Read-modify-writes of `n` bytes one after another on a memory of bytes: the old values, and the memory behind them. -/
def rmwLanes (n : Nat) (addr : Nat → Nat) (f : Nat → Nat → Nat) : List Nat → (Nat → Byte) → List (Nat × Nat) × (Nat → Byte)
  | [], m => ([], m)
  | l :: ls, m =>
    let old := ofBytes ((List.range n).map (fun i => m (addr l + i)))
    let r := rmwLanes n addr f ls (fun a =>
      if addr l ≤ a ∧ a < addr l + n then (toBytes n (f l old)).getD (a - addr l) 0 else m a)
    ((l, old) :: r.1, r.2)

/-- A plain place for an access: of this package, at device byte `d`, under no shutter and not poisoned. -/
structure State.Plain (s : State) (p : Place) (d : Nat) : Prop where
  here : p.remote = none
  device : s.device p.pa = some d
  open' : s.shutterOf p.pa = none
  clean : (s.lineMetaAt p.pa).poison = false


/-- The walk for an address of a wave reads no line under a shutter, whose restore would be an effect of its own
(13_page.md R286, 19_shutter.md R424). -/
def State.WalkClear (s : State) (k va : Nat) : Prop :=
  ∀ a ∈ s.walkReads va 4 (bitsOf (s.ctxAt (s.seat k).1).ptroot.toNat 51 12 * 4096), s.shutterOf a = none

/-- The other waves stand as they did, but for what a waitsig of theirs has seen (09_queue.md R233). -/
def State.OthersStand (t s : State) (k : Nat) : Prop :=
  ∀ j, j ≠ k → (Cells.find t.waves j).map (fun w => { w with seenWord := none }) =
    (Cells.find s.waves j).map (fun w => { w with seenWord := none })

/-! ### Operands as numbers -/

/-- The bits of the sources A, B and C in a lane, at the width of the word's type. -/
def natA (f : FWord) (s : State) (e : Env) (l : Nat) : Nat := s.value e f.tcode f.fa l
def natB (f : FWord) (s : State) (e : Env) (l : Nat) : Nat := s.value e f.tcode f.fb l
def natC (f : FWord) (s : State) (e : Env) (l : Nat) : Nat := s.value e f.tcode f.fc l

/-- The numbers that they stand for: signed for an I type, natural for an N type. -/
def intA (f : FWord) (s : State) (e : Env) (l : Nat) : Int := intOf f.tcode (natA f s e l)
def intB (f : FWord) (s : State) (e : Env) (l : Nat) : Int := intOf f.tcode (natB f s e l)
def intC (f : FWord) (s : State) (e : Env) (l : Nat) : Int := intOf f.tcode (natC f s e l)

/-- The bits of the sources of a word of class 001, at the width of its type. -/
def fpA (f : FWord) (s : State) (e : Env) (l : Nat) : Nat := s.value e (typeOfFp f) f.fa l
def fpB (f : FWord) (s : State) (e : Env) (l : Nat) : Nat := s.value e (typeOfFp f) f.fb l
def fpC (f : FWord) (s : State) (e : Env) (l : Nat) : Nat := s.value e (typeOfFp f) f.fc l

/-- `sat(x)` of 04_compute_instructions.md R89. -/
def clamp (ty : Nat) (x : Int) : Int := Max.max (typeMin ty) (Min.min x (typeMax ty))

/-- The bits of an exact result: clamped under .sat, else wrapped (R89). -/
def fitted (f : FWord) (x : Int) : Nat := wrapI (typeWidth f.tcode) (if bitOf f.mod 0 then clamp f.tcode x else x)

/-! ### Traps -/

/-- The instruction raises a trap: the outcome is the state that `State.raise` makes of it. -/
def Raises (r : Host.Outcome State Fault Refusal) (s : State) (e : Env) (t : Trap) : Prop := r = .next (s.raise e t)

end Sys2Proof.Machine
end

