-- ==== Sys2Proof/Certificates/Slice0/Obligations.lean ====
section
/-! DEFINITION. The statements for the provers. -/

open Sys2Proof Sys2Proof.Machine

/-! ### Integer and address instructions (04_compute_instructions.md R88 to R98) -/

/-- The integer arithmetic of R89 and R90: the exact result of the operands as numbers of the type, clamped under .sat and
else wrapped; the upper half is the floor of the exact product over 2^w. -/
def Obligations.IntegerArithmetic : Prop :=
  Computes (fun f => intSpec2 f typesIN 0 1) Instr.add FWord.tcode (fun f s e l => fitted f (intA f s e l + intB f s e l)) ∧
  Computes (fun f => intSpec2 f typesIN 0 1) Instr.sub FWord.tcode (fun f s e l => fitted f (intA f s e l - intB f s e l)) ∧
  Computes (fun f => intSpec2 f typesIN 0 1) Instr.mul FWord.tcode (fun f s e l => fitted f (intA f s e l * intB f s e l)) ∧
  Computes (fun f => intSpec3 f typesIN 1) Instr.mad FWord.tcode
    (fun f s e l => fitted f (intA f s e l * intB f s e l + intC f s e l)) ∧
  Computes (fun f => intSpec1 f typesI 1) Instr.abs FWord.tcode (fun f s e l => fitted f ((intA f s e l).natAbs : Int)) ∧
  Computes (fun f => intSpec1 f typesI 1) Instr.neg FWord.tcode (fun f s e l => fitted f (-intA f s e l)) ∧
  Computes (fun f => intSpec2 f typesIN 0 0) Instr.min FWord.tcode
    (fun f s e l => wrapI (typeWidth f.tcode) (Min.min (intA f s e l) (intB f s e l))) ∧
  Computes (fun f => intSpec2 f typesIN 0 0) Instr.max FWord.tcode
    (fun f s e l => wrapI (typeWidth f.tcode) (Max.max (intA f s e l) (intB f s e l))) ∧
  Computes (fun f => intSpec2 f typesIN 0 0) Instr.mulhi FWord.tcode
    (fun f s e l => wrapI (typeWidth f.tcode) (intA f s e l * intB f s e l / 2 ^ typeWidth f.tcode)) ∧
  Computes (fun f => intSpec3 f typesIN 0) Instr.madhi FWord.tcode
    (fun f s e l => wrapI (typeWidth f.tcode) (intA f s e l * intB f s e l / 2 ^ typeWidth f.tcode + intC f s e l))

/-- div and rem (R91), where no active lane has a zero divisor or .nt is given: the quotient truncated toward zero and the
remainder that has the sign of the dividend; for a zero divisor all ones and the dividend. div and rem (R91) without .nt,
where an active lane has a zero divisor: ARITH, class H, at the instruction, its record naming the lowest such lane. -/
def Obligations.DivideAndRemainder : Prop :=
  (let fine : FWord → State → Env → Prop := fun f s e => bitOf f.mod 0 = true ∨ ∀ l ∈ laneList e.act, natB f s e l ≠ 0
   ComputesIf (fun f => intSpec2 f typesIN 0 1) Instr.div fine FWord.tcode (fun f s e l =>
     if natB f s e l = 0 then 2 ^ typeWidth f.tcode - 1
     else wrapI (typeWidth f.tcode) (Int.tdiv (intA f s e l) (intB f s e l))) ∧
   ComputesIf (fun f => intSpec2 f typesIN 0 1) Instr.rem fine FWord.tcode (fun f s e l =>
     if natB f s e l = 0 then natA f s e l
     else wrapI (typeWidth f.tcode) (Int.tmod (intA f s e l) (intB f s e l)))) ∧
  (∀ f s e l, Issues (intSpec2 f typesIN 0 1) f s e → bitOf f.mod 0 = false → l ∈ laneList e.act → natB f s e l = 0 →
     (∀ k ∈ laneList e.act, k < l → natB f s e k ≠ 0) →
     exec (.div f) s = .next (s.raise e { code := 0x05, lane := l }) ∧
     exec (.rem f) s = .next (s.raise e { code := 0x05, lane := l }))

/-- addc and subb (R92): the exact sum or difference with the carry in, wrapped, and its carry or borrow out in every active
lane; with an s destination both come from the lowest active lane (03_encoding.md R51). -/
def Obligations.CarryAndBorrow : Prop :=
  ∀ f s e, Issues (carrySpec f) f s e →
    let k : Nat → Int := fun l => if s.pred e f.fc.toNat l then 1 else 0
    let sum : Nat → Int := fun l => natA f s e l + natB f s e l + k l
    let dif : Nat → Int := fun l => natA f s e l - natB f s e l - k l
    let src : Nat → Nat := fun l => match srcOf f.fd with
      | .s _ => lowestLane e.act
      | _ => l
    let does : State → (Nat → Int) → (Nat → Bool) → Prop := fun t x out =>
      (∀ l ∈ e.resultLanes, t.ResultIs e f.tcode l (wrapI (typeWidth f.tcode) (x l))) ∧
      (∀ l ∈ laneList e.act, (t.waveAt e.key).regs.pGet (s.waveAt e.key).trapMode f.fc.toNat l =
        (f.fc.toNat == 0 || out (src l))) ∧
      t.OnlyDest s e f.tcode [f.fc.toNat]
    (∃ t, exec (.addc f) s = .next t ∧ does t sum (fun l => decide (2 ^ typeWidth f.tcode ≤ sum l))) ∧
    (∃ t, exec (.subb f) s = .next t ∧ does t dif (fun l => decide (dif l < 0)))

/-- lea (R93), the logic and the shift instructions (R94): the shift count is a 32-bit operand. The bit-field, counting and
permutation instructions (R95). What the bit-field results are, bit by bit (R95): the field that bfe extracts, the base into
which bfi inserts, and the reverse of brev. sel, cmp, mov (R96, R97) and cvt (R98, 02_numbers.md R40). -/
def Obligations.LogicBitsAndMoves : Prop :=
  (let cnt : FWord → State → Env → Nat → Nat := fun f s e l => s.value e 10 f.fb l
   let logic : FWord → OpSpec := fun f => intSpec2 f typesB 0 0
   Computes leaSpec Instr.lea FWord.tcode (fun f s e l =>
     let x : Int := if f.mod = 0 then (s.value e f.tcode f.fb l : Int)
       else if f.mod = 1 then signedOf 32 (s.value e 10 f.fb l) else (s.value e 10 f.fb l : Int)
     wrapI (typeWidth f.tcode) (natA f s e l + x * 2 ^ (f.q % 8))) ∧
   Computes logic Instr.and FWord.tcode (fun f s e l => natA f s e l &&& natB f s e l) ∧
   Computes logic Instr.or FWord.tcode (fun f s e l => natA f s e l ||| natB f s e l) ∧
   Computes logic Instr.xor FWord.tcode (fun f s e l => natA f s e l ^^^ natB f s e l) ∧
   Computes logic Instr.andn FWord.tcode (fun f s e l => natA f s e l &&& (2 ^ typeWidth f.tcode - 1 - natB f s e l)) ∧
   Computes (fun f => intSpec1 f typesB 0) Instr.not FWord.tcode (fun f s e l => 2 ^ typeWidth f.tcode - 1 - natA f s e l) ∧
   Computes (fun f => intSpecShift f typesB 0) Instr.shl FWord.tcode
     (fun f s e l => natA f s e l * 2 ^ cnt f s e l % 2 ^ typeWidth f.tcode) ∧
   Computes (fun f => intSpecShift f typesB 0) Instr.shr FWord.tcode
     (fun f s e l => if typeWidth f.tcode ≤ cnt f s e l then 0 else natA f s e l / 2 ^ cnt f s e l) ∧
   Computes (fun f => intSpecShift f typesI 0) Instr.sar FWord.tcode
     (fun f s e l => wrapI (typeWidth f.tcode) (intA f s e l / 2 ^ cnt f s e l)) ∧
   Computes (fun f => intSpecShift f typesB 1) Instr.rot FWord.tcode
     (fun f s e l => rotate (bitOf f.q 0) (typeWidth f.tcode) (natA f s e l) (cnt f s e l))) ∧
  (Computes (fun f => intSpecShift f [2, 6, 3, 7] 0) Instr.bfe FWord.tcode
     (fun f s e l => bitExtract f.tcode (natA f s e l) (s.value e 10 f.fb l)) ∧
   Computes bfiSpec Instr.bfi FWord.tcode
     (fun f s e l => bitInsert (typeWidth f.tcode) (natA f s e l) (natB f s e l) (s.value e 10 f.fc l)) ∧
   Computes countSpec Instr.popc (fun _ => 6) (fun f s e l =>
     ((List.range (typeWidth f.tcode)).filter (fun i => (natA f s e l).testBit i)).length) ∧
   Computes countSpec Instr.clz (fun _ => 6) (fun f s e l => leadingZeros (typeWidth f.tcode) (natA f s e l)) ∧
   Computes countSpec Instr.ctz (fun _ => 6) (fun f s e l => trailingZeros (typeWidth f.tcode) (natA f s e l)) ∧
   Computes (fun f => intSpec1 f typesB 0) Instr.brev FWord.tcode
     (fun f s e l => bitReverse (typeWidth f.tcode) (natA f s e l)) ∧
   Computes (fun f => intSpec3 f [10] 0) Instr.prmt FWord.tcode
     (fun f s e l => permute (natA f s e l) (natB f s e l) (natC f s e l))) ∧
  ((∀ ty a ctl i, ty ∈ [2, 6, 3, 7] → i < typeWidth ty →
     let w := typeWidth ty
     let pos := ctl % 256
     let len := Nat.min (ctl / 256 % 256) w
     let bit (j : Nat) : Bool := if j < w then a.testBit j else typeSigned ty && a.testBit (w - 1)
     (bitExtract ty a ctl).testBit i =
       (if i < len then bit (pos + i) else typeSigned ty && decide (0 < len) && bit (pos + (len - 1)))) ∧
   (∀ w a b ctl i, i < w →
     let pos := ctl % 256
     let len := Nat.min (ctl / 256 % 256) w
     (bitInsert w a b ctl).testBit i = (if pos ≤ i ∧ i < pos + len then a.testBit (i - pos) else b.testBit i)) ∧
   (∀ w a i, i < w → (bitReverse w a).testBit i = a.testBit (w - 1 - i))) ∧
  (Computes selSpec Instr.sel FWord.tcode
     (fun f s e l => if s.pred e f.fc.toNat l then natA f s e l else natB f s e l) ∧
   Computes (fun f => intSpec1 f (List.range 16) 0) Instr.mov FWord.tcode natA ∧
   Decides cmpSpec Instr.cmp (fun f s e l =>
     let x := intA f s e l
     let y := intB f s e l
     [decide (x = y), decide (x ≠ y), decide (x < y), decide (x ≤ y), decide (x > y), decide (x ≥ y)].getD f.q false) ∧
   Computes intCvtSpec Instr.cvt FWord.tcode (fun f s e l =>
     let tt := f.tcode
     let st := bitsOf f.q 7 3
     let x := s.value e st f.fa l
     if tt < 8 ∧ st < 8 then wrapI (typeWidth tt) (if bitOf f.q 8 then clamp tt (intOf st x) else intOf st x)
     else match fmtOf st, fmtOf tt with
       | some a, _ => convertInt (typeSigned tt) (typeWidth tt) (a.decode x) (s.roundMode e (f.q % 8) 0)
       | _, some b => convert b (FVal.ofInt (intOf st x)) (s.roundMode e (f.q % 8) 0) false
       | _, _ => 0))

/-! ### Floating-point, packed and predicate instructions (R99 to R107) -/

/-- The floating-point arithmetic of R102 and R103 and the correctly rounded frcp and fsqrt of R105: the result is formed
exactly from the flushed sources, rounded once in the word's mode, and flushed (02_numbers.md R34, R35). -/
def Obligations.FloatArithmetic : Prop :=
  let z : FWord → State → Env → Bool := fun f s e => (fmtOfFp f).ftz (s.ftz e)
  let src : FWord → State → Env → Nat → FVal := fun f s e x => (fmtOfFp f).decode ((fmtOfFp f).flush (z f s e) x)
  let out : FWord → State → Env → FVal → Nat := fun f s e x =>
    (fmtOfFp f).flush (z f s e) (arith (fmtOfFp f) x (s.roundMode e f.rnd 0))
  let two : FWord → OpSpec := fun f => fpSpec2 f typesF true 0
  let one : FWord → OpSpec := fun f => fpSpec1 f typesF true
  Computes two Instr.fadd typeOfFp (fun f s e l =>
    out f s e (FVal.add (src f s e (fpA f s e l)) (src f s e (fpB f s e l)) (s.roundMode e f.rnd 0))) ∧
  Computes two Instr.fsub typeOfFp (fun f s e l =>
    let minusB := (fpB f s e l % 2 ^ (fmtOfFp f).width) ^^^ 2 ^ ((fmtOfFp f).width - 1)
    out f s e (FVal.add (src f s e (fpA f s e l)) (src f s e minusB) (s.roundMode e f.rnd 0))) ∧
  Computes two Instr.fmul typeOfFp (fun f s e l =>
    out f s e (FVal.mul (src f s e (fpA f s e l)) (src f s e (fpB f s e l)))) ∧
  Computes (fun f => fpSpec3 f typesF) Instr.fma typeOfFp (fun f s e l =>
    out f s e (FVal.add (FVal.mul (src f s e (fpA f s e l)) (src f s e (fpB f s e l))) (src f s e (fpC f s e l))
      (s.roundMode e f.rnd 0))) ∧
  Computes one Instr.frcp typeOfFp (fun f s e l => out f s e (src f s e (fpA f s e l)).recip) ∧
  Computes one Instr.fsqrt typeOfFp (fun f s e l => out f s e (src f s e (fpA f s e l)).sqrt) ∧
  Computes one Instr.frnd typeOfFp (fun f s e l =>
    out f s e ((src f s e (fpA f s e l)).round (s.roundMode e f.rnd 0))) ∧
  Computes fsclSpec Instr.fscl typeOfFp (fun f s e l =>
    out f s e (match src f s e (fpA f s e l) with
      | .fin n m d x => .fin n m d (x + signedOf 32 (s.value e 2 f.fb l))
      | y => y)) ∧
  Computes (fun f => fpSpec2 f typesF false 1) Instr.fmin typeOfFp (fun f s e l =>
    fMinMax (fmtOfFp f) (s.ftz e) false (bitOf f.q 0) (fpA f s e l) (fpB f s e l)) ∧
  Computes (fun f => fpSpec2 f typesF false 1) Instr.fmax typeOfFp (fun f s e l =>
    fMinMax (fmtOfFp f) (s.ftz e) true (bitOf f.q 0) (fpA f s e l) (fpB f s e l))

/-- The rounding modes of 02_numbers.md R33 and R41 on a magnitude: to nearest with ties to even, toward zero, upward and
downward of the signed value, and stochastic with a draw of 16 bits. A floating-point arithmetic result that is NaN is the
canonical NaN of its format, and any NaN source gives it (02_numbers.md R36). -/
def Obligations.RoundingAndNans : Prop :=
  (∀ (neg : Bool) (num den : Nat), 0 < den →
     (let r := roundNat .rne neg num den
      2 * num ≤ (2 * r + 1) * den ∧ 2 * r * den ≤ 2 * num + den ∧
        (2 * num = (2 * r + 1) * den ∨ 2 * r * den = 2 * num + den → r % 2 = 0)) ∧
     (let r := roundNat .rtz neg num den; r * den ≤ num ∧ num < (r + 1) * den) ∧
     (let r := roundNat .rup false num den; num ≤ r * den ∧ r * den < num + den) ∧
     (let r := roundNat .rup true num den; r * den ≤ num ∧ num < (r + 1) * den) ∧
     (let r := roundNat .rdn false num den; r * den ≤ num ∧ num < (r + 1) * den) ∧
     (let r := roundNat .rdn true num den; num ≤ r * den ∧ r * den < num + den) ∧
     (∀ g, g < 65536 → let r := roundNat (.sr g) neg num den
       r * den * 65536 ≤ num * 65536 + g * den ∧ num * 65536 + g * den < (r + 1) * den * 65536)) ∧
  (∀ t ∈ [fmtF64, fmtF32, fmtF16, fmtBf16], ∀ (z : Bool) (md : Rnd) (a b c : Nat) (k : Int),
     let canon := t.nan.getD 0
     (∀ r ∈ [fAdd t z md a b, fSub t z md a b, fMul t z md a b, fFma t z md a b c, fRcp t z md a, fSqrt t z md a,
         fRnd t z md a, fScl t z md a k], t.isNanCode r = true → r = canon) ∧
     (t.isNanCode a = true →
       fAdd t z md a b = canon ∧ fAdd t z md b a = canon ∧ fSub t z md a b = canon ∧ fSub t z md b a = canon ∧
       fMul t z md a b = canon ∧ fMul t z md b a = canon ∧ fFma t z md a b c = canon ∧ fFma t z md b a c = canon ∧
       fFma t z md b c a = canon ∧ fRcp t z md a = canon ∧ fSqrt t z md a = canon ∧ fRnd t z md a = canon ∧
       fScl t z md a k = canon))

/-- fcmp and fcls (R104): the conditions on the flushed values, and the class of the raw bits. fcvt (R99): the destination
holds the converted elements; a stochastic conversion raises the conversion counter of each lane it draws in by the number
of elements (02_numbers.md R42), and no other conversion touches a counter. -/
def Obligations.FloatCompareAndConvert : Prop :=
  (Decides fcmpSpec Instr.fcmp (fun f s e l =>
     let t := fmtOfFp f
     let x := t.decode (t.flush (t.ftz (s.ftz e)) (fpA f s e l))
     let y := t.decode (t.flush (t.ftz (s.ftz e)) (fpB f s e l))
     let un := x.isNan || y.isNan
     let o := x.cmp y
     [!un && o == .eq, un || o != .eq, !un && o == .lt, !un && o != .gt, !un && o == .gt, !un && o != .lt, un,
       !un].getD f.q false) ∧
   Decides fclsSpec Instr.fcls (fun f s e l => bitOf f.q (fClass (fmtOfFp f) (fpA f s e l)))) ∧
  ((∀ f s e, Issues (cvtSpec f) f s e → f.rnd ≠ 4 → ∃ t, exec (.fcvt f) s = .next t ∧
     t.Writes s e (cvtTypes f).1 (s.cvtResult e f)) ∧
   (∀ f s e, Issues (cvtSpec f) f s e → f.rnd = 4 → ∃ t, exec (.fcvt f) s = .next t ∧
     let n := match packedOf (cvtTypes f).1 with
       | some (_, k) => k
       | none => 1
     (∃ u, u.Writes s e (cvtTypes f).1 (s.cvtResult e f) ∧ t.OnlyWave u e.key ∧
       t.waveAt e.key = { u.waveAt e.key with conv := (t.waveAt e.key).conv }) ∧
     (∀ l ∈ e.resultLanes, Cells.get 0 (t.waveAt e.key).conv l = Cells.get 0 (s.waveAt e.key).conv l + BitVec.ofNat 32 n) ∧
     (∀ l, l ∉ e.resultLanes → Cells.get 0 (t.waveAt e.key).conv l = Cells.get 0 (s.waveAt e.key).conv l)))

/-- The approximations (R105): the .f32 operation on the flushed source, flushed again; for .f16 and .bf16 the source is
widened, the .f32 operation applied and its result rounded to nearest, with no flush. Exact points and special values of the
approximations (R105), whatever the free values are. That a free value outside the bound gives way to the correctly rounded
result is the model's choice (log entry 27). -/
def Obligations.FloatApproximations : Prop :=
  (let does (i : FWord → Instr) (op : Nat → Nat) : Prop :=
     Computes (fun f => fpSpec1 f [13, 14, 15] false) i typeOfFp (fun f s e l =>
       if typeOfFp f = 13 then fmtF32.flush (s.ftz e) (op (fmtF32.flush (s.ftz e) (fpA f s e l % 2 ^ 32)))
       else arith (fmtOfFp f) (fmtF32.decode (op (convert fmtF32 ((fmtOfFp f).decode (fpA f s e l)) .rne false))) .rne)
   does Instr.frsq frsq32 ∧ does Instr.fexp2 fexp2_32 ∧ does Instr.flog2 flog2_32 ∧ does Instr.fsin fsin32 ∧
   does Instr.fcos fcos32 ∧ does Instr.ftanh ftanh32) ∧
  (frsq32 0x3F800000 = 0x3F800000 ∧ frsq32 0x40800000 = 0x3F000000 ∧ frsq32 0 = 0x7F800000 ∧ frsq32 0x80000000 = 0xFF800000 ∧
   frsq32 0xBF800000 = 0x7FC00000 ∧ frsq32 0x7F800000 = 0 ∧
   fexp2_32 0x40400000 = 0x41000000 ∧ fexp2_32 0x43000000 = 0x7F800000 ∧ fexp2_32 0xFF800000 = 0 ∧
   flog2_32 0x41000000 = 0x40400000 ∧ flog2_32 0x80000000 = 0xFF800000 ∧ flog2_32 0xBF800000 = 0x7FC00000 ∧
   flog2_32 0x7F800000 = 0x7F800000 ∧
   fsin32 0x80000000 = 0x80000000 ∧ fsin32 0xBF000000 = 0x80000000 ∧ fsin32 0x7F800000 = 0x7FC00000 ∧
   fcos32 0x3F800000 = 0x3F800000 ∧ fcos32 0x3F000000 = 0xBF800000 ∧ fcos32 0x3E800000 = 0 ∧
   ftanh32 0x80000000 = 0x80000000 ∧ ftanh32 0xC1100000 = 0xBF800000 ∧ ftanh32 0x7F800000 = 0x3F800000)

/-- The packed instructions (R102, R103) complete and give each 16-bit element the exact result of its sources' elements,
rounded once and without FTZ; dot2 and dot4 (R106) complete and give the exact sum of an .f32 addend and of two or four
products, rounded once. The sum of finite addends is their sum as rational numbers. The sign of a zero sum of more than two
addends is the model's choice (log entry 79). -/
def Obligations.PackedAndDot : Prop :=
  let ran (i : FWord → Instr) (p : FWord → OpSpec) (ty : FWord → Nat) (val : FWord → State → Env → Nat → Nat) : Prop :=
    ∀ f s e, Issues (p f) f s e → ∃ t : State, exec (i f) s = .next t ∧ t.Writes s e (ty f) (val f s e)
  let elem (f : FWord) (w x j : Nat) : FVal := (packedFmt f).decode (x / 2 ^ (w * j) % 2 ^ w)
  let each (f : FWord) (s : State) (e : Env) (val : Nat → FVal) : Nat :=
    arith (packedFmt f) (val 0) (s.roundMode e f.rnd 0) + 65536 * arith (packedFmt f) (val 1) (s.roundMode e f.rnd 0)
  let dot (n w : Nat) (f : FWord) (s : State) (e : Env) (l : Nat) : Nat :=
    let products := (List.range n).map (fun j => FVal.mul (elem f w (fpA f s e l) j) (elem f w (fpB f s e l) j))
    let addend := fmtF32.decode (fmtF32.flush (s.ftz e) (s.value e 13 f.fc l))
    fmtF32.flush (s.ftz e) (arith fmtF32 (sumExact (s.roundMode e f.rnd 0) (addend :: products)) (s.roundMode e f.rnd 0))
  let number : FVal → Rat
    | .fin neg num den exp => (if neg then -1 else 1) * ((num : Rat) / (den : Rat)) * (2 : Rat) ^ exp
    | _ => 0
  ran Instr.padd (fun f => fpSpec2 f typesPacked true 0) typeOfFp (fun f s e l => each f s e (fun j =>
    FVal.add (elem f 16 (fpA f s e l) j) (elem f 16 (fpB f s e l) j) (s.roundMode e f.rnd 0))) ∧
  ran Instr.pmul (fun f => fpSpec2 f typesPacked true 0) typeOfFp (fun f s e l => each f s e (fun j =>
    FVal.mul (elem f 16 (fpA f s e l) j) (elem f 16 (fpB f s e l) j))) ∧
  ran Instr.pfma (fun f => fpSpec3 f typesPacked) typeOfFp (fun f s e l => each f s e (fun j =>
    FVal.add (FVal.mul (elem f 16 (fpA f s e l) j) (elem f 16 (fpB f s e l) j)) (elem f 16 (fpC f s e l) j)
      (s.roundMode e f.rnd 0))) ∧
  ran Instr.pmax (fun f => fpSpec2 f typesPacked false 1) typeOfFp (fun f s e l =>
    let larger (x y : Nat) : Nat := fMinMax (packedFmt f) false true (bitOf f.q 0) x y
    larger (fpA f s e l % 65536) (fpB f s e l % 65536) +
      65536 * larger (fpA f s e l / 65536 % 65536) (fpB f s e l / 65536 % 65536)) ∧
  ran Instr.dot2 (fun f => dotSpec f typesPacked) (fun _ => 13) (dot 2 16) ∧
  ran Instr.dot4 (fun f => dotSpec f [24]) (fun _ => 13) (dot 4 8) ∧
  (∀ md xs, (∀ x ∈ xs, ∃ n a d b, x = FVal.fin n a d b ∧ 0 < d) →
    (∃ n a d b, sumExact md xs = .fin n a d b ∧ 0 < d) ∧ number (sumExact md xs) = (xs.map number).sum) ∧
  (∀ md xs, (∃ b, FVal.nan b ∈ xs) → 1 < xs.length → ∃ b, sumExact md xs = .nan b)

/-- The predicate instructions (R107); p0 stays true, and a range write leaves every other predicate alone. ballot, vany,
vall, elect (R110) and match (R111), over the lanes that take part. -/
def Obligations.PredicatesAndVotes : Prop :=
  (let a : FWord → State → Env → Nat → Bool := fun f s e l => s.pred e f.fa.toNat l ^^ bitOf f.q 0
   let b : FWord → State → Env → Nat → Bool := fun f s e l => s.pred e f.fb.toNat l ^^ bitOf f.q 1
   Decides (fun _ => predSpec2) Instr.pand (fun f s e l => a f s e l && b f s e l) ∧
   Decides (fun _ => predSpec2) Instr.por (fun f s e l => a f s e l || b f s e l) ∧
   Decides (fun _ => predSpec2) Instr.pxor (fun f s e l => a f s e l ^^ b f s e l) ∧
   Decides (fun _ => predSpec1) Instr.pnot (fun f s e l => !s.pred e f.fa.toNat l) ∧
   Decides (fun _ => predSpec1) Instr.pmov (fun f s e l => s.pred e f.fa.toNat l) ∧
   (∀ f s e, Issues (psetSpec f) f s e → ∃ t, exec (.pset f) s = .next t ∧
     t.WritesPreds s e f.fd.toNat (f.q % 32 + 1) (fun i l => (s.value e 10 f.fa l).testBit i)) ∧
   (∀ f s e, Issues (pgetSpec f) f s e → ∃ t, exec (.pget f) s = .next t ∧ ∃ val, t.Writes s e 10 val ∧
     ∀ l i, (val l).testBit i = (decide (i < f.q % 32 + 1) && s.pred e (f.fa.toNat + i) l))) ∧
  (let part : Env → List Nat := fun e => laneList e.act
   (∀ f s e, Issues ballotSpec f s e → ∃ t, exec (.ballot f) s = .next t ∧ ∃ x, t.Writes s e 10 (fun _ => x) ∧
     ∀ i, i < 32 → x.testBit i = (e.act.getLsbD i && s.pred e f.fa.toNat i)) ∧
   Decides (fun _ => voteSpec) Instr.vany (fun f s e _ => (part e).any (fun l => s.pred e f.fa.toNat l)) ∧
   Decides (fun _ => voteSpec) Instr.vall (fun f s e _ => (part e).all (fun l => s.pred e f.fa.toNat l)) ∧
   Decides (fun _ => electSpec) Instr.elect (fun _ _ e l => decide ((part e).head? = some l)) ∧
   (∀ f s e, Issues (matchSpec f) f s e → ∃ t, exec (.matchLanes f) s = .next t ∧ ∃ val, t.Writes s e 10 val ∧
     ∀ l i, i < 32 → (val l).testBit i = (e.act.getLsbD i && decide (natA f s e i = natA f s e l))))

/-! ### Lane instructions (R108 to R114) -/

/-- redux and scan (R112): the values of the lanes that take part, combined in increasing lane order from the identity of
the operator; scan stops at the lane itself, or below it under .excl. shfl and bcast (R111, R114) where the source is full
in every lane read: the value of the source lane before the turn. Which lanes are examined for empty registers is the
model's reading of R109 (log entry 19). -/
def Obligations.CrossLaneResults : Prop :=
  (let step : FWord → State → Env → Nat → Nat → Nat := fun f s e x y =>
     let w := typeWidth f.tcode
     match f.q % 8 with
     | 0 => (x + y) % 2 ^ w
     | 1 => if intOf f.tcode y < intOf f.tcode x then y else x
     | 2 => if intOf f.tcode x < intOf f.tcode y then y else x
     | 3 => x &&& y
     | 4 => x ||| y
     | 5 => x ^^^ y
     | 6 => fAdd fmtF32 (s.ftz e) .rne x y
     | _ => fMinMax fmtF32 (s.ftz e) true false x y
   let identity : FWord → Nat := fun f =>
     let w := typeWidth f.tcode
     match f.q % 8 with
     | 0 => 0
     | 1 => if typeSigned f.tcode then 2 ^ (w - 1) - 1 else 2 ^ w - 1
     | 2 => if typeSigned f.tcode then 2 ^ (w - 1) else 0
     | 3 => 2 ^ w - 1
     | 4 => 0
     | 5 => 0
     | 6 => 0x80000000
     | _ => 0xFF800000
   let fold : FWord → State → Env → List Nat → Nat := fun f s e ls =>
     ls.foldl (fun x l => step f s e x (natA f s e l)) (identity f)
   Computes reduxSpec Instr.redux FWord.tcode (fun f s e _ => fold f s e (laneList e.act)) ∧
   Computes scanSpec Instr.scan FWord.tcode (fun f s e l =>
     fold f s e ((laneList e.act).filter (fun k => decide (k < l) || (!bitOf f.q 3 && k == l))))) ∧
  (let src : FWord → State → Env → Nat → Nat := fun f s e i =>
     if (s.waveAt e.key).latency then i
     else
       let w := 2 ^ (5 - bitsOf f.q 4 2)
       let b := s.value e 10 f.fb i
       let base := i - i % w
       match f.q % 4 with
       | 0 => base + b % w
       | 1 => if (i : Int) - b < base then i else i - b
       | 2 => if base + w ≤ i + b then i else i + b
       | _ => base + ((i % w) ^^^ (b % w))
   let from' : FWord → State → Env → Nat := fun f s e =>
     if (s.waveAt e.key).latency then 0 else s.uvalue e 10 f.fb % 32
   let full (p : FWord → OpSpec) (lanes : FWord → State → Env → Word) : FWord → State → Env → Prop :=
     fun f s e => (s.turnWave e).anyEmpty ((p f).fa.regs f.fa) (lanes f s e) = false
   ComputesIf shflSpec Instr.shfl (full shflSpec (fun f s e => maskOf ((laneList e.act).map (src f s e)))) FWord.tcode
     (fun f s e l => natA f s e (src f s e l)) ∧
   ComputesIf bcastSpec Instr.bcast (full bcastSpec (fun f s e => maskOf [from' f s e])) FWord.tcode
     (fun f s e _ => natA f s e (from' f s e)))

/-- The D word (03_encoding.md R62 to R65), where its checks pass and no register of it is empty: both slots read before
either writes, each writes the result of its operation to its destination in its own active lanes, and the lanes go on. -/
def Obligations.DualIssue : Prop :=
  ∀ d s e0 e1, s.envOf d.slot0.word = some e0 → s.envOf d.slot1.word = some e1 →
    d.trap (s.waveAt e0.key).nv = none →
    (s.turnWave e0).anyEmpty ([d.slot0.vd, d.slot0.vs, d.slot1.vd, d.slot1.vs].map BitVec.toNat, [])
      (e0.act ||| e1.act) = false →
    ∃ t, exec (.dWord d) s = .next t ∧
      (∀ op, dualOp d.slot0.dop.toNat = some op → ∀ l ∈ laneList e0.act, ((t.waveAt e0.key).regs.vGet d.slot0.vd.toNat l).toNat =
        op (s.ftz e0) (s.vreg e0 d.slot0.vd.toNat l).toNat (s.vreg e0 d.slot0.vs.toNat l).toNat % 2 ^ 32) ∧
      (∀ op, dualOp d.slot1.dop.toNat = some op → ∀ l ∈ laneList e1.act, ((t.waveAt e0.key).regs.vGet d.slot1.vd.toNat l).toNat =
        op (s.ftz e1) (s.vreg e1 d.slot1.vd.toNat l).toNat (s.vreg e1 d.slot1.vs.toNat l).toNat % 2 ^ 32) ∧
      (∀ n l, l < 32 → ¬ (n = d.slot0.vd.toNat ∧ l ∈ laneList e0.act) → ¬ (n = d.slot1.vd.toNat ∧ l ∈ laneList e1.act) →
        (t.waveAt e0.key).regs.vGet n l = (s.waveAt e0.key).regs.vGet n l) ∧
      (t.waveAt e0.key).regs = { (s.waveAt e0.key).regs with v := (t.waveAt e0.key).regs.v } ∧
      (s.waveAt e0.key).SameBut (t.waveAt e0.key) ∧ t.OnlyWave s e0.key ∧ t.MovesOn s e0

/-! ### Control (05_wave.md R123 to R132) -/

/-- bra, brx, call and ret (R124, R125): active lanes go to the target and the other lanes of the group on; call writes the
link first; brx and ret need targets that are multiples of 8, and raise MISALIGN for the lowest lane whose is not. nop,
yield and bkpt (R131, 08_context.md R219), join and leave (R127), mset and mop (R130): a yield that finds a pending wave of
its pane ready leaves the active set, and a bkpt that is armed halts the wave behind it and queues its record. -/
def Obligations.ControlFlow : Prop :=
  ((∀ f s e, Issues braSpec f s e → ∃ t, exec (.bra f) s = .next t ∧
     t.BranchesTo s e (fun _ => e.pc + BitVec.ofInt 64 (8 * f.ofs)) ∧ (t.waveAt e.key).regs = (s.waveAt e.key).regs) ∧
   (∀ f s e, Issues callSpec f s e → ∃ t u : State, exec (.call f) s = .next t ∧ u.Writes s e 11 (fun _ => (e.pc + 8).toNat) ∧
     t.BranchesTo s e (fun _ => e.pc + BitVec.ofInt 64 (8 * f.ofs)) ∧ (t.waveAt e.key).regs = (u.waveAt e.key).regs) ∧
   (∀ f s e i, i ∈ [Instr.brx, Instr.ret] → Issues targetSpec f s e → (∀ l ∈ laneList e.act, s.value e 11 f.fa l % 8 = 0) →
     ∃ t, exec (i f) s = .next t ∧ t.BranchesTo s e (fun l => BitVec.ofNat 64 (s.value e 11 f.fa l)) ∧
       (t.waveAt e.key).regs = (s.waveAt e.key).regs) ∧
   (∀ f s e i l, i ∈ [Instr.brx, Instr.ret] → Issues targetSpec f s e → l ∈ laneList e.act → s.value e 11 f.fa l % 8 ≠ 0 →
     (∀ k ∈ laneList e.act, k < l → s.value e 11 f.fa k % 8 = 0) →
     exec (i f) s = .next (s.raise e { code := 4, lane := l, addr := s.value e 11 f.fa l }))) ∧
  (let passes (r : Host.Outcome State Fault Refusal) (s : State) (e : Env) : Prop := ∃ t, r = .next t ∧ t.Passes s e
   let masks (p : OpSpec) (i : FWord → Instr) (val : FWord → State → Env → Word) : Prop :=
     ∀ f s e, Issues p f s e → ∃ t, exec (i f) s = .next t ∧ t.WritesMask s e (f.fd.toNat % 64 - 0x10) (val f s e)
   let old : FWord → State → Env → Word := fun f s e => (s.waveAt e.key).regs.mGet (f.fd.toNat % 64 - 0x10)
   let a : FWord → State → Env → Word := fun f s e => BitVec.ofNat 32 (s.uvalue e 10 f.fa)
   let b : FWord → State → Env → Word := fun f s e => BitVec.ofNat 32 (s.uvalue e 10 f.fb)
   (∀ f s e, Issues {} f s e → passes (exec (.nop f) s) s e) ∧
   (∀ f s e, Issues {} f s e → (s.waveAt e.key).latency = true ∨ (s.waveAt e.key).life ≠ .active ∨
     s.pendingReady (s.waveAt e.key) = false → passes (exec (.yield f) s) s e) ∧
   (∀ f s e, Issues {} f s e → (s.waveAt e.key).latency = false → (s.waveAt e.key).life = .active →
     s.pendingReady (s.waveAt e.key) = true → ∃ t, exec (.yield f) s = .next t ∧ (t.waveAt e.key).life = .pending ∧ (t.waveAt e.key).regs = (s.waveAt e.key).regs ∧
       t.MovesOn s e ∧ t.mem = s.mem ∧ t.ctxs = s.ctxs ∧ ∀ j, j ≠ e.key → Cells.find t.waves j = Cells.find s.waves j) ∧
   (∀ f s e, Issues bkptSpec f s e → bitOf (s.ctxOf e).dbg.toNat 0 = false → passes (exec (.bkpt f) s) s e) ∧
   (∀ f s e, Issues bkptSpec f s e → bitOf (s.ctxOf e).dbg.toNat 0 = true →
     exec (.bkpt f) s = .next (((s.advance e).modWave e.key (fun w => { w with life := .halted })).queueRecord
       (s.waveAt e.key).ctx (s.recordOf e.key e.pc s.issueWords.1 s.issueWords.2 { code := 0, detail := f.q }))) ∧
   masks maskSpec Instr.join (fun f s e => old f s e ||| e.act) ∧
   masks maskSpec Instr.leave (fun f s e => old f s e &&& ~~~ e.act) ∧
   masks msetSpec Instr.mset a ∧
   masks mopSpec Instr.mop (fun f s e => [a f s e &&& b f s e, a f s e ||| b f s e, a f s e &&& ~~~ b f s e,
     a f s e ^^^ b f s e].getD (f.q % 4) 0))

/-- waitm (R128), where no lane of the group waits and no lane waits twice: with no member among the active lanes it passes;
the members wait at it while some member of the mask is elsewhere, and the last to arrive releases all of them. -/
def Obligations.WaitAtMask : Prop :=
  ∀ f s e, Issues waitmSpec f s e →
    let w := s.waveAt e.key
    let k := f.fa.toNat % 64 - 0x10
    let mask := w.regs.mGet k &&& w.m0
    let mine := e.act &&& mask
    let there := w.waits.foldl (fun m x => if x.obj = .mask k then m ||| x.lanes else m) mine
    e.lanes &&& w.waiting = 0 → w.waits.Pairwise (fun x y => x.lanes &&& y.lanes = 0) →
    ∃ t, exec (.waitm f) s = .next t ∧ t.OnlyWave s e.key ∧ w.SameBut (t.waveAt e.key) ∧ (t.waveAt e.key).regs = w.regs ∧
      (∀ l ∈ laneList (e.lanes &&& ~~~ mine), (t.waveAt e.key).pcOf l = e.pc + BitVec.ofNat 64 e.size) ∧
      (mine ≠ 0 → mask &&& ~~~ there ≠ 0 →
        (∃ x ∈ (t.waveAt e.key).waits, x.lanes = mine ∧ x.obj = .mask k ∧ x.pc = e.pc ∧ x.size = e.size) ∧
        ∀ l ∈ laneList mine, (t.waveAt e.key).pcOf l = w.pcOf l) ∧
      (mine ≠ 0 → mask &&& ~~~ there = 0 → (∀ x ∈ (t.waveAt e.key).waits, x.obj ≠ .mask k) ∧
        (∀ l ∈ laneList mine, (t.waveAt e.key).pcOf l = e.pc + BitVec.ofNat 64 e.size) ∧
        ∀ x ∈ w.waits, x.obj = .mask k → ∀ l ∈ laneList x.lanes, (t.waveAt e.key).pcOf l = x.pc + BitVec.ofNat 64 x.size)

/-- The region boundary (R132): in normal mode it raises the region-entry counter and sets the entries of the active lanes
to itself and, with the instruction done, behind it; in trap mode it sets no entries. Where no line is pending nothing else
changes. region is nothing more, and exit takes its lanes out of every mask. Where the traps of a boundary instruction stand
to its boundary is the model's reading (log entry 24). -/
def Obligations.RegionBoundary : Prop :=
  (∀ (s : State) (e : Env) (w : Wave), Cells.find s.waves e.key = some w → w.held = [] → ∃ s1 : State, s.Opens e s1 ∧ s1.OnlyWave s e.key ∧
    s1.waveAt e.key = { w with regionCount := w.regionCount + 1, entries := (s1.waveAt e.key).entries } ∧
    (w.trapMode = true → (s1.waveAt e.key).entries = w.entries) ∧
    (w.trapMode = false → ∀ l, l < 32 → Cells.get 0 (s1.waveAt e.key).entries l =
      if l ∈ laneList e.act then e.pc else Cells.get 0 w.entries l)) ∧
  (∀ (s : State) (e : Env) (w : Wave), Cells.find s.waves e.key = some w → (s.closed e).OnlyWave s e.key ∧ (s.closed e).MovesOn s e ∧
    ((s.closed e).waveAt e.key).regs = w.regs ∧ ((s.closed e).waveAt e.key).regionCount = w.regionCount ∧
    (w.trapMode = true → ((s.closed e).waveAt e.key).entries = w.entries) ∧
    (w.trapMode = false → ∀ l, l < 32 → Cells.get 0 ((s.closed e).waveAt e.key).entries l =
      if l ∈ laneList e.act then e.pc + BitVec.ofNat 64 e.size else Cells.get 0 w.entries l)) ∧
  AtBoundary (fun _ _ => {}) Instr.region (fun _ _ _ _ => True) (fun _ _ _ s1 => s1) ∧
  (∀ f s e s1, Issues {} f s e → s.Opens e s1 →
    exec (.exit f) s = .next (((s1.endLanes e).closed e).tryLeave e.key) ∧
    (∀ k, k < 12 → ((s1.endLanes e).waveAt e.key).regs.mGet k &&& e.act = 0) ∧
    (∀ k l, k < 12 → (s1.waveAt e.key).latency = false → l < 32 → e.act.getLsbD l = false →
      (((s1.endLanes e).waveAt e.key).regs.mGet k).getLsbD l = ((s1.waveAt e.key).regs.mGet k).getLsbD l))

/-- The commit (R135) of one held line of this package, in a frame under no shutter and with no poison: each byte of the
line reads afterwards as the wave's last store to it or, where there was none, as before; of memory nothing else changes,
and the line's sync record names the wave where a st.rel was among the stores (07_consistency.md R183), else it stands. A
first line that may not be performed, its frame gone (01_package.md R22) or another party's synchronising access before its
st.rel (07_consistency.md R185), stops the commit with nothing performed. That a committed store is performed for every
agent at once is the model's choice (log entry 14). -/
def Obligations.CommitPerforms : Prop :=
  (∀ (s : State) (k : Nat) (h : HeldLine) (t : State), s.commit k = (t, none) → (s.waveAt k).held = [h] → h.remote = none →
    h.pa % 128 = 0 → (∀ i, (Cells.find h.bytes i).isSome → i < 128) → Cells.risingFrom none h.bytes = true →
    (∃ p, Cells.find s.place (h.pa / 65536) = some p ∧ p.shut = false) → (s.lineMetaAt h.pa).poison = false →
    (t.waveAt k).held = [] ∧
    (∀ i, i < 128 → t.peekByte (h.pa + i) = (Cells.find h.bytes i).getD (s.peekByte (h.pa + i))) ∧
    (∀ d, s.device h.pa = some d → ∀ a, a < d ∨ d + 128 ≤ a →
      Cells.get Memory.default t.mem a = Cells.get Memory.default s.mem a) ∧
    (∀ x, h.sync.getLast? = some x → (t.lineMetaAt h.pa).scope = x.2.2 ∧ (t.lineMetaAt h.pa).node = s.node ∧
      (t.lineMetaAt h.pa).agent = (s.ctxAt (s.waveAt k).ctx).agentOf (s.waveAt k).core) ∧
    (h.sync = [] → t.lineMetaAt h.pa = s.lineMetaAt h.pa)) ∧
  (∀ (s : State) (k : Nat) (h : HeldLine) (hs : List HeldLine) (x : Trap), (s.waveAt k).held = h :: hs → s.lineTrap k h = some x →
    s.commit k = (s.modWave k (fun w => { w with held := [] }), some x))

/-! ### Memory access (06_memory_access.md) -/

/-- The checks of a global access (R172), in their order: the lowest lane whose address is misaligned, does not translate,
or may not be accessed decides; with none, a line whose last synchronising access shares no scope stands against a
synchronising access (07_consistency.md R184, R185). Loads and stores that a check stands against trap, or wait. -/
def Obligations.AccessChecks : Prop :=
  (∀ (s : State) (k : Nat) (lanes : List Nat) (ea : Nat → Nat) (a : AccessKind) (l : Nat) (r : List Nat),
    let before (ok : Nat → Prop) : Prop := ∃ q, lanes = q ++ l :: r ∧ ∀ j ∈ q, ok j
    let aligned (j : Nat) : Prop := ea j % a.align = 0
    let place (j : Nat) : Except AddrFault Place := s.placeOf k (ea j) a.len
    (before aligned → ea l % a.align ≠ 0 → s.globalCheck k lanes ea a =
      .trap { code := 4, lane := l, addr := ea l, write := a.need.write, step := 1 }) ∧
    (∀ x, (∀ j ∈ lanes, aligned j) → before (fun j => ∃ p, place j = .ok p ∧ p.remote = none) → place l = .error x →
      s.globalCheck k lanes ea a = .ofTrap (x.trap l (ea l) a.need.write)) ∧
    (∀ x p, (∀ j ∈ lanes, aligned j) → (∀ j ∈ lanes, ∃ p, place j = .ok p ∧ p.remote = none) →
      before (fun j => ∀ p, place j = .ok p → s.permitted (s.waveAt k).ctx a.need p = .ok ()) → place l = .ok p →
      s.permitted (s.waveAt k).ctx a.need p = .error x → s.globalCheck k lanes ea a = .ofTrap (x.trap l (ea l) a.need.write)) ∧
    (∀ p sc, (∀ j ∈ lanes, aligned j) →
      (∀ j ∈ lanes, ∃ p, place j = .ok p ∧ p.remote = none ∧ s.permitted (s.waveAt k).ctx a.need p = .ok ()) →
      a.sync = some sc → place l = .ok p →
      let party := (s.node, (s.ctxAt (s.waveAt k).ctx).agentOf (s.waveAt k).core)
      before (fun j => ∀ p, place j = .ok p → (s.lineMetaAt p.pa).syncOk sc party = true) →
      (s.lineMetaAt p.pa).syncOk sc party = false → s.globalCheck k lanes ea a = .trap
        { code := 7, lane := l, detail := sc, addr := ea l, aux := (s.lineMetaAt p.pa).record, write := a.need.write, step := 5 })) ∧
  (∀ f s e c, bitOf f.q 0 = false → c ≠ .ok →
    let len := typeWidth f.tcode / 8 * elementCount f
    let stops (i : Instr) : Prop := match c with
      | .trap t => Raises (exec i s) s e t
      | .wait r xs => exec i s = .next (s.hold e r xs)
      | .ok => False
    (Issues (ldStSpec f s.onLatency false) f s e → s.globalCheck e.key (loadLanes e) (s.address e f false)
      { need := { read := true }, len := len, align := len
        sync := if bitsOf f.q 8 7 = 1 then some (bitsOf f.q 6 4) else none } = c → stops (.ld f)) ∧
    (Issues (ldStSpec f s.onLatency true) f s e → s.globalCheck e.key (laneList e.act) (s.address e f false)
      { need := { write := true }, len := len, align := len
        sync := if bitsOf f.q 8 7 = 1 then some (bitsOf f.q 6 4) else none, replies := false } = c → stops (.st f)))

/-- ld and ldx from global addresses (R156 to R163): each lane's elements are the bytes at its address, the wave's own
pending bytes over those that its core sees, an acquire having made its L0 forget. That a load reads what was performed
last, and that a remote load holds its wave, are the model's choices (log entries 14 and 50). -/
def Obligations.GlobalLoads : Prop :=
  let does (p : FWord → State → OpSpec) (i : FWord → Instr) (ea : FWord → State → Env → Nat → Nat) (sync : FWord → Option Nat) :
      Prop :=
    ∀ f s e, Issues (p f s) f s e → bitOf f.q 0 = false →
      let lanes := if namesS f.fd then [lowestLane e.act] else laneList e.act
      let len := typeWidth f.tcode / 8 * elementCount f
      let place := fun l => s.place! e.key (ea f s e l) len
      let w := s.waveAt e.key
      let u := match sync f with
        | none => s
        | some sc => s.acquire w.core sc
      s.globalCheck e.key lanes (ea f s e) { need := { read := true }, len := len, align := len, sync := sync f } = .ok →
      (∀ l ∈ lanes, (place l).remote = none) →
      ∃ t, exec (i f) s = .next t ∧ t.Loads s e f.tcode (elementCount f) lanes
        (fun l => overlay (w.heldOver none (place l).pa) ((place l).pa % 128) (u.coreRead w.core (place l).pa len))
        (∀ l ∈ lanes, s.shutterOf (place l).pa = none ∧ s.WalkClear e.key (ea f s e l))
  does (fun f s => ldStSpec f s.onLatency false) Instr.ld (fun f s e => s.address e f false)
    (fun f => if bitsOf f.q 8 7 = 1 then some (bitsOf f.q 6 4) else none) ∧
  does (fun f s => ldxStxSpec f s.onLatency false) Instr.ldx (fun f s e => s.indexed e f false) (fun _ => none)

/-- st and stx to global addresses (R156 to R163, 05_wave.md R133): in normal mode on a Bricor core the bytes are held and
memory stands as it did; in trap mode and on a latency core they are performed at once, in rising lane order. That a
committed store is performed for every agent at once is the model's choice (log entry 14). -/
def Obligations.GlobalStores : Prop :=
  let does (p : FWord → State → OpSpec) (i : FWord → Instr) (ea : FWord → State → Env → Nat → Nat) (sync : FWord → Option Nat) :
      Prop :=
    ∀ f s e, Issues (p f s) f s e → bitOf f.q 0 = false →
      let lanes := laneList e.act
      let len := typeWidth f.tcode / 8 * elementCount f
      let place := fun l => s.place! e.key (ea f s e l) len
      let data := s.dataBytes e f.tcode (elementCount f)
      let w := s.waveAt e.key
      s.globalCheck e.key lanes (ea f s e) { need := { write := true }, len := len, align := len, sync := sync f, replies := false } = .ok →
      s.holdCheck e.key lanes (ea f s e) len = .ok → (∀ l ∈ lanes, s.WalkClear e.key (ea f s e l)) →
      (w.holds = true → ∃ t, exec (i f) s = .next t ∧ t.mem = s.mem ∧ t.ctxs = s.ctxs ∧ t.MovesOn s e ∧
        (t.waveAt e.key).regs = w.regs ∧ (∀ j, j ≠ e.key → Cells.find t.waves j = Cells.find s.waves j) ∧
        ∀ node line off, Cells.find ((t.waveAt e.key).heldOver node (line * 128)) off =
          match lanes.reverse.find? (fun l => decide ((place l).remote = node) && decide ((place l).pa / 128 = line) &&
            decide ((place l).pa % 128 ≤ off) && decide (off < (place l).pa % 128 + len)) with
          | some l => some ((data l).getD (off - (place l).pa % 128) 0)
          | none => Cells.find (w.heldOver node (line * 128)) off) ∧
      (w.holds = false → ∀ d : Nat → Nat, (∀ l ∈ lanes, s.Plain (place l) (d l)) →
        ∃ t, exec (i f) s = .next t ∧ t.ctxs = s.ctxs ∧ t.MovesOn s e ∧ (t.waveAt e.key).regs = w.regs ∧
          t.OthersStand s e.key ∧
          ∀ a, Cells.get Memory.default t.mem a = lastByte lanes d len data a (Cells.get Memory.default s.mem a))
  does (fun f s => ldStSpec f s.onLatency true) Instr.st (fun f s e => s.address e f false)
    (fun f => if bitsOf f.q 8 7 = 1 then some (bitsOf f.q 6 4) else none) ∧
  does (fun f s => ldxStxSpec f s.onLatency true) Instr.stx (fun f s e => s.indexed e f false) (fun _ => none)

/-- ld, ldx, st and stx of stash addresses (R148 to R150): on tiles that are not mapped they read and write the stash bytes
of the block that the address names, and memory stands as it did. -/
def Obligations.StashAccess : Prop :=
  let bytesPer : FWord → Nat := fun f => typeWidth f.tcode / 8 * elementCount f
  let plain (s : State) (e : Env) (ea : Nat → Nat) (len : Nat) (sp : Nat → StashSpot) (l : Nat) : Prop :=
    s.stashSpot (s.waveAt e.key) (ea l) len = some (sp l) ∧ (s.tileAt (sp l).block ((sp l).off / 1024)).st = .unmapped
  let loads (p : FWord → State → OpSpec) (i : FWord → Instr) (ea : FWord → State → Env → Nat → Nat) : Prop :=
    ∀ f s e sp, Issues (p f s) f s e → bitOf f.q 0 = true →
      let lanes := if namesS f.fd then [lowestLane e.act] else laneList e.act
      s.stashCheck e.key lanes (ea f s e) (bytesPer f) (bytesPer f) false = .ok →
      (∀ l ∈ lanes, plain s e (ea f s e) (bytesPer f) sp l) →
      ∃ t, exec (i f) s = .next t ∧ t.Loads s e f.tcode (elementCount f) lanes
        (fun l => s.stashRaw (sp l).block (sp l).off (bytesPer f)) True
  let stores (p : FWord → State → OpSpec) (i : FWord → Instr) (ea : FWord → State → Env → Nat → Nat) : Prop :=
    ∀ f s e sp, Issues (p f s) f s e → bitOf f.q 0 = true →
      let lanes := laneList e.act
      s.stashCheck e.key lanes (ea f s e) (bytesPer f) (bytesPer f) true = .ok →
      (∀ l ∈ lanes, plain s e (ea f s e) (bytesPer f) sp l) →
      ∃ t, exec (i f) s = .next t ∧ t.mem = s.mem ∧ t.ctxs = s.ctxs ∧ t.MovesOn s e ∧
        (t.waveAt e.key).regs = (s.waveAt e.key).regs ∧ (∀ j, j ≠ e.key → Cells.find t.waves j = Cells.find s.waves j) ∧
        ∀ a, Cells.get 0 t.stash a = lastByte lanes (fun l => s.stashKey (sp l).block (sp l).off) (bytesPer f)
          (s.dataBytes e f.tcode (elementCount f)) a (Cells.get 0 s.stash a)
  loads (fun f s => ldStSpec f s.onLatency false) Instr.ld (fun f s e => s.address e f true) ∧
  loads (fun f s => ldxStxSpec f s.onLatency false) Instr.ldx (fun f s e => s.indexed e f true) ∧
  stores (fun f s => ldStSpec f s.onLatency true) Instr.st (fun f s e => s.address e f true) ∧
  stores (fun f s => ldxStxSpec f s.onLatency true) Instr.stx (fun f s e => s.indexed e f true)

/-- atom, atom.sc and red (R167 to R171) on plain places: behind the wave's commit, the lanes read, modify and write memory
one after another in rising lane order; atom and atom.sc give each lane the old value, and atom.sc takes a ticket for each.
-/
def Obligations.Atomics : Prop :=
  let does (kind : Nat) (i : FWord → Instr) : Prop :=
    ∀ f s e s1 d, Issues (atomicSpec f kind) f s e → s.Opens e s1 →
      let lanes := if kind = 2 then laneList e.act else if namesS f.fd then [lowestLane e.act] else laneList e.act
      let ea := fun l => s.value e 11 f.fa l
      let n := typeWidth f.tcode / 8
      s1.globalCheck e.key lanes ea { need := { read := true, write := true }, len := n, align := n
                                      sync := atomicSync f kind, replies := kind != 2 } = .ok →
      (∀ l ∈ lanes, s1.Plain (s1.place! e.key (ea l) n) (d l) ∧ (s1.place! e.key (ea l) n).pa % n = 0 ∧ s1.WalkClear e.key (ea l)) →
      let r := rmwLanes n d (fun l old => atomicNew (atomicOp f) f.mod f.tcode old (s.operands e f l).1 (s.operands e f l).2)
        lanes (fun a => Cells.get Memory.default s1.mem a)
      ∃ t, exec (i f) s = .next t ∧ (∀ a, Cells.get Memory.default t.mem a = r.2 a) ∧ t.ctxs = s1.ctxs ∧ t.MovesOn s1 e ∧
        t.tickets = s1.tickets + (if kind = 1 then lanes.length else 0) ∧
        (kind = 2 → (t.waveAt e.key).regs = (s1.waveAt e.key).regs) ∧
        (kind ≠ 2 → t.Lands (fun u => u.HoldsElements s1 e f.tcode 1 lanes
          (fun l => toBytes n (((r.1.find? (fun x => x.1 == l)).map (·.2)).getD 0))))
  does 0 Instr.atom ∧ does 1 Instr.atomSc ∧ does 2 Instr.red

/-- pref, cinv, cwb (R164, R165) and icinv (08_context.md R222): none changes a register of the wave; cinv takes the lines
of the region out of the core's L0, and under .l1 out of every L0 and out of the cache of its cluster; cwb leaves no dirty
line of the region in the cluster's cache, and under .sync every line of the region that may be written with no sync record.
-/
def Obligations.CacheControl : Prop :=
  let passes (t s : State) (e : Env) : Prop :=
    (t.waveAt e.key).regs = (s.waveAt e.key).regs ∧ t.MovesOn s e ∧ t.ctxs = s.ctxs ∧ t.mem = s.mem ∧ t.stash = s.stash ∧
    ∀ j, j ≠ e.key → Cells.find t.waves j = Cells.find s.waves j
  let parts (f : FWord) (s : State) (e : Env) : List (Place × Nat) :=
    s.partsHere e.key (s.address e f false (lowestLane e.act)) (regionSize f.q)
  let cluster (s : State) (e : Env) : Nat := clusterOf (s.waveAt e.key).core
  let clear (f : FWord) (s : State) (e : Env) : Prop :=
    s.partsCheck e (s.address e f false (lowestLane e.act)) (regionSize f.q) = .ok ∧
    ∀ x ∈ regionParts (s.address e f false (lowestLane e.act)) (regionSize f.q), s.WalkClear e.key x.1
  (∀ f s e, Issues prefSpec f s e → exec (.pref f) s = .next (((laneList e.act).foldl (fun u l =>
    u.prefetch e.key (s.address e f false l) (bitOf f.q 0)) s).advance e)) ∧
  (∀ f s e, Issues (regionSpec f 15) f s e → clear f s e →
    (bitOf f.q 0 = true → s.regionBusy (cluster s e) (parts f s e) true = false) → ∃ t, exec (.cinv f) s = .next t ∧ passes t s e ∧
    (bitOf f.q 0 = false → ∀ x ∈ t.l0, x.core = (s.waveAt e.key).core → inParts (parts f s e) x.line = false) ∧
    (bitOf f.q 0 = true →
      (∀ x ∈ t.l0, (if (s.waveAt e.key).latency then x.core = (s.waveAt e.key).core else clusterOf x.core = cluster s e) →
        inParts (parts f s e) x.line = false) ∧
      (∀ line c, line < 2 ^ 46 → inParts (parts f s e) line = true → t.cacheAt (cluster s e) line = some c →
        c.st ≠ .shared ∧ c.st ≠ .modified))) ∧
  (∀ f s e, Issues (regionSpec f 0x1E) f s e → clear f s e → s.regionBusy (cluster s e) (parts f s e) false = false →
    ∃ t, exec (.cwb f) s = .next t ∧ passes t s e ∧
    (∀ line c, line < 2 ^ 46 → inParts (parts f s e) line = true → t.cacheAt (cluster s e) line = some c →
      c.st = .modified → c.dirty = false) ∧
    (bitOf f.q 4 = true → ∀ q n, (q, n) ∈ parts f s e →
      s.permitted (s.waveAt e.key).ctx { write := true, here := true } q = .ok () →
      ∀ i, i < n / 128 → (t.lineMetaAt (q.pa + 128 * i)).scope = 7)) ∧
  (∀ f s e, Issues (regionSpec f 14) f s e → clear f s e → ∃ t, exec (.icinv f) s = .next t ∧ passes t s e ∧ t.l0 = s.l0 ∧
    ∀ x ∈ t.icache, x ∈ s.icache ∧ (x.site = fetchSite (s.waveAt e.key).core → (s.waveAt e.key).latency = true ∨
      (s.ctxAt (s.waveAt e.key).ctx).grants (s.waveAt e.key).core = true → inParts (parts f s e) x.line = false))

/-- stmap, stunmap and stflush (R153): with their checks passed, the named tiles become MAPPED onto successive KiB from the
address on, or UNMAPPED, or have no dirty line, and the other tiles of the block stand as they did. The STEP of the records
is the model's reading (log entry 65). -/
def Obligations.StashMapping : Prop :=
  let does (i : FWord → Instr) (fb : Operand) (tile : Tile → Nat → Nat → Tile → Prop) : Prop :=
    ∀ f s e s1 b blk, Issues (tilesSpec fb) f s e → s.Opens e s1 → s.issuerBlock = some (b, blk) →
      (Cells.find s1.blocks b).isSome →
      let sa := s.uvalue e 10 f.fa
      let ga := match fb with
        | .unused => 0
        | _ => s.uvalue e 11 f.fb
      let n := f.q % 512 + 1
      s1.remapCheck b blk sa ga n = .ok →
      ∃ u : State, exec (i f) s = .next (u.closed e) ∧ u.mem = s1.mem ∧ u.waves = s1.waves ∧ u.ctxs = s1.ctxs ∧
        (∀ k, k < n → tile (s1.tileAt b (sa / 1024 + k)) ga k (u.tileAt b (sa / 1024 + k))) ∧
        ∀ k, k < sa / 1024 ∨ sa / 1024 + n ≤ k → u.tileAt b k = s1.tileAt b k
  does Instr.stmap (tileOperand 11) (fun _ ga k y => y.st = .mapped ∧ y.lines = [] ∧
    y.va = BitVec.ofNat 64 ga + BitVec.ofNat 64 (1024 * k)) ∧
  does Instr.stunmap .unused (fun _ _ _ y => y.st = .unmapped) ∧
  does Instr.stflush .unused (fun x _ _ y => y.st = x.st ∧ y.va = x.va ∧ ∀ l ∈ y.lines, l.2 ≠ .dirty)

/-! ### Consistency (07_consistency.md) -/

/-- fence and waitc (R186 to R192): a fence commits; one that acquires leaves only read-only lines in the core's L0, a
sequentially consistent one at .pkg or .sys takes a ticket, and one that releases at .sys holds the wave until its posted
writes are acknowledged, while any other sets pd; waitc waits until the counter of its class is low enough. How lost writes
are counted until a fence reports them is the model's reading (log entry 55). -/
def Obligations.Fences : Prop :=
  (∀ f s e s1, Issues (fenceSpec f) f s e → s.Opens e s1 →
    let kind := bitsOf f.q 1 0
    let scope := bitsOf f.q 4 2
    let core := (s1.waveAt e.key).core
    ∃ u : State, exec (.fence f) s = .next ((u.closed e).settleFence e.key) ∧ u.mem = s1.mem ∧ u.ctxs = s1.ctxs ∧
      (kind % 2 = 1 → ∀ x ∈ u.l0, x.core = core → x.ro.isSome) ∧
      u.tickets = s1.tickets + (if kind = 3 ∧ (scope = 3 ∨ scope = 4) then 1 else 0) ∧
      (2 ≤ kind → scope = 4 → (u.waveAt e.key).hold = some (.fence e.act f.fd.toNat e.pc e.size 0) ∧
        (u.waveAt e.key).regs = (s1.waveAt e.key).regs) ∧
      (kind = 1 ∨ scope ≠ 4 → ∀ l ∈ laneList e.act,
        (u.waveAt e.key).regs.pGet (s1.waveAt e.key).trapMode f.fd.toNat l = true)) ∧
  (∀ f s e, Issues (waitcSpec f) f s e → (s.waveAt e.key).counter (f.q % 8) ≤ s.uvalue e 10 f.fa →
    ∃ t, exec (.waitc f) s = .next t ∧ t.MovesOn s e ∧ (t.waveAt e.key).regs = (s.waveAt e.key).regs ∧ t.mem = s.mem ∧
      ∀ x ∈ t.l0, x.core = (s.waveAt e.key).core → x.ro.isSome) ∧
  (∀ f s e, Issues (waitcSpec f) f s e → s.uvalue e 10 f.fa < (s.waveAt e.key).counter (f.q % 8) →
    exec (.waitc f) s = .next (s.block e .counter))

/-! ### Engine operations and waves (03_encoding.md R70, 05_wave.md R134, R141, 07_consistency.md R190) -/

/-- An operation that is issued (R190) takes the next number, its event is owed, its class's counter rises by one, and
nothing else changes. Once it has ended, it retires with the ended operations of its wave and class that stand before every
one that has not, and the counter falls by their number. Events of waves: a result in flight is written and its registers
are full (R70); the oldest ready pending wave of a pane enters a free place of its active set (R141); the youngest wave of a
core that stalls for a line while it holds one goes back to its entries with nothing held (R134); a word that no opcode is
assigned to raises ILLEGAL_OP (R75). -/
def Obligations.OperationsAndWaves : Prop :=
  ((∀ (s : State) (e : Env) (cls : Option Nat) (kind : OpKind) (w : Wave), Cells.find s.waves e.key = some w →
     let t := s.issueOp e cls kind
     let o : EngineOp :=
       { wave := e.key, block := w.block, core := w.core, cls := cls, kind := kind, arrival := some s.nextId }
     t.ops = Cells.put s.ops s.nextId o ∧ t.nextId = s.nextId + 1 ∧ (∀ i, o.event s.nextId = some i → i ∈ t.agenda) ∧
     (∀ c, (t.waveAt e.key).counter c = w.counter c + if cls = some c then 1 else 0) ∧
     t.waveAt e.key = { w with counters := (t.waveAt e.key).counters } ∧
     (∀ j, j ≠ e.key → Cells.find t.waves j = Cells.find s.waves j) ∧
     { t with ops := s.ops, nextId := s.nextId, agenda := s.agenda, waves := s.waves } = s) ∧
   (∀ (s : State) (id : Nat) (o : EngineOp) (c : Nat) (w : Wave), Cells.find s.ops id = some o → o.done = true →
     o.cls = some c → Cells.find s.waves o.wave = some w → w.life ≠ .ending → Cells.risingFrom none s.ops = true →
     (∀ x ∈ s.blocks, ∃ y ∈ s.waves, y.2.block = some x.1) →
     ∃ t : State, exec (.engineOpRetire id) s = .next t ∧
       (∀ i p, Cells.find s.ops i = some p →
         let goes : Prop := p.wave = o.wave ∧ p.cls = some c ∧ ∀ j q, Cells.find s.ops j = some q → q.wave = o.wave →
           q.cls = some c → j ≤ i → q.done = true
         (goes → Cells.find t.ops i = none) ∧ (¬ goes → Cells.find t.ops i = some p)) ∧
       (t.waveAt o.wave).counter c = w.counter c - (s.ops.length - t.ops.length) ∧
       t.waveAt o.wave = { w with counters := (t.waveAt o.wave).counters } ∧ t.mem = s.mem ∧ t.ctxs = s.ctxs)) ∧
  ((∀ (s : State) (id : Nat) (x : Fill) (w : Wave), Cells.find s.fills id = some x → Cells.find s.waves x.wave = some w →
     w.life ≠ .ending → ∃ t : State, exec (.registerFill id) s = .next t ∧ Cells.find t.fills id = none ∧
       (∀ k ∈ x.vKeys, Cells.get false (t.waveAt x.wave).vEmpty k = false) ∧
       (∀ k ∈ x.sKeys, Cells.get false (t.waveAt x.wave).sEmpty k = false) ∧
       (∀ k, Cells.get 0 (t.waveAt x.wave).regs.v k =
         ((x.vs.reverse.find? (fun y => y.1 == k)).map (·.2)).getD (Cells.get 0 w.regs.v k)) ∧
       (∀ k, Cells.get 0 (t.waveAt x.wave).regs.s k =
         ((x.ss.reverse.find? (fun y => y.1 == k)).map (·.2)).getD (Cells.get 0 w.regs.s k)) ∧
       (∀ j, j ≠ x.wave → Cells.find t.waves j = Cells.find s.waves j) ∧ { t with waves := s.waves, fills := s.fills } = s) ∧
   (∀ (s : State) (core pane k : Nat) (w : Wave),
     let ready (u : Wave) : Prop := u.core = core ∧ u.pane = pane ∧ u.life = .pending ∧ u.blocked = none ∧ u.ready ≠ 0
     s.activeCount core pane < 8 → Cells.find s.waves k = some w → ready w →
     (∀ x ∈ s.waves, ready x.2 → x = (k, w) ∨ w.age < x.2.age) →
     exec (.waveEnterActive core pane) s = .next (s.modWave k (fun u => { u with life := .active }))) ∧
   (∀ (s : State) (core k : Nat) (w : Wave),
     let stalls (u : Wave) : Prop :=
       u.core = core ∧ .shadowOrLine ∈ u.reasons ∧ u.held ≠ [] ∧ (u.life = .active ∨ u.life = .pending)
     Cells.find s.waves k = some w → stalls w → (∀ x ∈ s.waves, stalls x.2 → x = (k, w) ∨ x.2.age < w.age) →
     ∃ t : State, exec (.regionStallAbort core) s = .next t ∧ (t.waveAt k).held = [] ∧ (t.waveAt k).blocked = none ∧
       (t.waveAt k).reasons = [] ∧ (t.waveAt k).life = w.life ∧ (t.waveAt k).regs = w.regs ∧
       (∀ l ∈ laneList w.m0, (t.waveAt k).pcOf l = Cells.get 0 w.entries l) ∧
       (∀ j, j ≠ k → Cells.find t.waves j = Cells.find s.waves j) ∧ t.mem = s.mem ∧ t.ctxs = s.ctxs) ∧
   (∀ (s : State) (word : DWord) (ext : Option DWord) (i : Issue), s.cur = some i → (Cells.find s.waves i.wave).isSome →
     exec (.unassignedOpcode word ext) s = .next (s.raise
       { key := i.wave, pc := i.pc, size := (if ext.isSome then 16 else 8), lanes := i.lanes, act := i.lanes, f := FWord0 }
       { code := 1 })))

/-! ### Copies, handles and tiles (15_copy_and_tiles.md, 18_attention.md) -/

/-- cpy, cpyt, gath (R334 to R336) and qmc (18_attention.md R397): with the checks passed the command is accepted. What that
does: an operation is issued whose event writes its first data tile; a command that binds its handle makes it FILLING with
the run in every target, and clears the tags of the run's tiles; memory, stash and contexts stand. cpyt reads its second
register only for RANK 3 (R335). That a full counter holds the instruction before its own conditions is the model's reading
(log entry 18). -/
def Obligations.CopyIssue : Prop :=
  OnBlock cpySpec Instr.cpy
    (fun f s e s1 b _ => s1.copyCheck e 0 (cpyJob f s e b) (cpyJob f s e b).need (f.mod == 2) (f.mod == 0) (cpyJob f s e b).run = .ok)
    (fun f s e s1 b _ => s1.acceptCopy e 0 (cpyJob f s e b) (cpyJob f s e b).need (f.mod == 0)) ∧
  OnBlockReading cpytSpec cpytReads Instr.cpyt
    (fun f s e s1 b blk => let j := cpytJob f s e b blk
      s1.copyCheck e 0 j j.need (f.mod == 2) (f.mod != 2) j.run = .ok)
    (fun f s e s1 b blk => s1.acceptCopy e 0 (cpytJob f s e b blk) (cpytJob f s e b blk).need (f.mod != 2)) ∧
  OnBlock gathSpec Instr.gath
    (fun f s e s1 b blk => let j := gathJob f s e b blk
      s1.copyCheck e 2 j j.need false true j.run = .ok)
    (fun f s e s1 b blk => s1.acceptCopy e 2 (gathJob f s e b blk) (gathJob f s e b blk).need true) ∧
  OnBlock qmcSpec Instr.qmc (fun f s e s1 b _ => s1.castCheck e (qmcJob f s e b) (f.mod == 2) = .ok)
    (fun f s e s1 b _ => s1.acceptCast e (qmcJob f s e b) (f.mod == 2)) ∧
  (∀ (s : State) (e : Env) (cls : Nat) (j : CopyJob) (need : Need) (bind : Bool),
    let t := s.acceptCopy e cls j need bind
    (∃ o i, Cells.find t.ops s.nextId = some o ∧ o.kind = .copy i ∧ i = { j with pages := i.pages } ∧ o.wave = e.key ∧
      o.cls = some cls ∧ o.done = false) ∧
    .copyTileWrite s.nextId ∈ t.agenda ∧ t.stash = s.stash ∧
    ((∀ va ∈ pagesOf j.spans, s.WalkClear e.key va) → t.mem = s.mem ∧ t.ctxs = s.ctxs) ∧
    (bind = false → t.blocks = (s.touchPages e.key (pagesOf j.spans)).blocks) ∧
    (bind = true → ∀ b ∈ j.targets, (Cells.find s.blocks b).isSome → ∃ blk, Cells.find t.blocks b = some blk ∧
      blk.handleAt j.handle =
        { st := .filling, run := some (j.offset / 1024, j.run), ring := decide (j.run < j.total) } ∧
      (∀ i, i < j.run → (t.tileAt b (j.offset / 1024 + i)).valid = false ∧
        (t.tileAt b (j.offset / 1024 + i)).consumed = false ∧ (t.tileAt b (j.offset / 1024 + i)).rows = 0)))

/-- COPY_TILE_WRITE (R329, R330, R334), where the command is first of its wave and class, no other one of its wave touches
its bytes, it owns the frames it touches and no shutter is open: a data tile that is no second fill of a ring lands in its
tile of the run of the target, VALID and not CONSUMED, with its row mask, and no other stash byte changes; a B-store command
writes the target core's slice; cpy.out writes memory, but for the bytes that its wave has written since it was issued,
which come behind it in program order. The last tile ends the command and makes the handle FULL; before it the next one is
owed. -/
def Obligations.CopyTiles : Prop :=
  let goesOn (t : State) (id : Nat) (j : CopyJob) : Prop :=
    ∃ o, Cells.find t.ops id = some o ∧ (j.next + 1 = j.total → o.done = true) ∧
      (j.next + 1 ≠ j.total → o.done = false ∧ o.kind = .copy { j with next := j.next + 1 } ∧ .copyTileWrite id ∈ t.agenda)
  ∀ (s : State) (id b : Nat) (o : EngineOp) (j : CopyJob) (blk : Block), Cells.find s.ops id = some o → o.kind = .copy j →
    o.done = false → s.notFirst id o = false → s.copyConflict id o j = false → j.next < j.run → j.targets = [b] → Cells.find s.blocks b = some blk →
    blk.retired = false → s.missingFrame (j.tilePieces j.next) = none → (∀ pa, s.shutterOf pa = none) →
    let bst : Bool := j.kind == .bstore || j.kind == .boxBstore || j.kind == .castBstore
    let data := s.tileData j j.next
    let tile := j.offset / 1024 + j.next
    (j.kind ≠ .tileOut → bst = false → ∃ t : State, exec (.copyTileWrite id) s = .next t ∧ goesOn t id j ∧ t.mem = s.mem ∧
      (∀ i, i < data.1.length → Cells.get 0 t.stash (s.stashKey b (1024 * tile) + i) = data.1.getD i 0) ∧
      (∀ a, a < s.stashKey b (1024 * tile) ∨ s.stashKey b (1024 * tile) + data.1.length ≤ a →
        Cells.get 0 t.stash a = Cells.get 0 s.stash a) ∧
      (t.tileAt b tile).valid = true ∧ (t.tileAt b tile).consumed = false ∧
      (t.tileAt b tile).rows = BitVec.ofNat 64 data.2 ∧
      (j.next + 1 = j.total → (blk.handleAt j.handle).st = .filling → ∃ c, Cells.find t.blocks b = some c ∧
        (c.handleAt j.handle).st = .full)) ∧
    (bst = true → ∃ t : State, exec (.copyTileWrite id) s = .next t ∧ goesOn t id j ∧ t.mem = s.mem ∧ t.stash = s.stash ∧
      ∀ i, i < data.1.length →
        Cells.get 0 t.bstore (blk.core * 2 ^ 21 + (j.offset + 1024 * j.next) + i) = data.1.getD i 0) ∧
    (j.kind = .tileOut → ∀ u,
      let runs := j.standing (j.tilePieces j.next) (s.stashRaw j.block (j.offset + 1024 * j.next) 1024)
      s.pagedStore (runs.map (fun x => (x.1, x.2.length))) (runs.flatMap (·.2)) = .ok u →
      ∃ t : State, exec (.copyTileWrite id) s = .next t ∧ goesOn t id j ∧ t.mem = u.mem ∧ t.stash = u.stash)

/-- tagq (R338), hacq, hwait and hrel (R327, R337), and tmset (R331): tagq reads the tags of a run, or marks as CONSUMED
those VALID and not CONSUMED; a handle that is FULL becomes DRAINING, one that is DRAINING becomes FREE, hwait lets a FULL
or DRAINING one pass and waits for a FILLING one, and any other state raises HANDLE_STATE; tmset sets a map of the block. -/
def Obligations.HandlesAndTags : Prop :=
  let becomes (i : FWord → Instr) (ok : HandleState → Prop) (st : HandleState → HandleState) : Prop :=
    ∀ f s e s1 b blk blk1, Issues (handleSpec f s) f s e → s.Opens e s1 → s.issuerBlock = some (b, blk) →
      Cells.find s1.blocks b = some blk1 → ok (blk1.handleAt f.fa.toNat).st →
      ∃ u : State, exec (i f) s = .next (u.closed e) ∧ { u with blocks := s1.blocks } = s1 ∧
        ∃ blk2, Cells.find u.blocks b = some blk2 ∧ blk2 = { blk1 with handles := blk2.handles } ∧
          (blk2.handleAt f.fa.toNat).st = st (blk1.handleAt f.fa.toNat).st ∧
          ∀ h, h ≠ f.fa.toNat → blk2.handleAt h = blk1.handleAt h
  let traps (i : FWord → Instr) (bad : HandleState → Prop) : Prop :=
    ∀ f s e s1 b blk blk1, Issues (handleSpec f s) f s e → s.Opens e s1 → s.issuerBlock = some (b, blk) →
      Cells.find s1.blocks b = some blk1 → bad (blk1.handleAt f.fa.toNat).st → Raises (exec (i f) s) s e
        { code := 9, detail := f.fa.toNat + 16 * (blk1.handleAt f.fa.toNat).st.code }
  becomes Instr.hacq (fun x => x = .full) (fun _ => .draining) ∧ traps Instr.hacq (fun x => x ≠ .full) ∧
  becomes Instr.hrel (fun x => x = .draining) (fun _ => .free) ∧ traps Instr.hrel (fun x => x ≠ .draining) ∧
  becomes Instr.hwait (fun x => x = .full ∨ x = .draining) id ∧ traps Instr.hwait (fun x => x = .free) ∧
  (∀ f s e s1 b blk blk1, Issues (handleSpec f s) f s e → s.Opens e s1 → s.issuerBlock = some (b, blk) →
    Cells.find s1.blocks b = some blk1 → (blk1.handleAt f.fa.toNat).st = .filling →
    exec (.hwait f) s = .next (s.block e .handle)) ∧
  OnBlock (fun f _ => tagqSpec f) Instr.tagq
    (fun f s e _ _ blk => s.uvalue e 10 f.fa % 1024 = 0 ∧ blk.badRun (s.uvalue e 10 f.fa) (bitsOf f.q 7 2 + 1) = false)
    (fun f s e s1 b blk => s1.tagEffect e f b blk (s.uvalue e 10 f.fa / 1024)) ∧
  (∀ (s : State) (b first n : Nat) (blk : Block), Cells.find s.blocks b = some blk →
    (∀ i, i < n → ((s.markTiles b first n).1.tileAt b (first + i)).consumed =
        ((s.tileAt b (first + i)).consumed || (s.tileAt b (first + i)).valid) ∧
      bitOf (s.markTiles b first n).2 i = ((s.tileAt b (first + i)).valid && !(s.tileAt b (first + i)).consumed) ∧
      ∀ g, bitOf (s.tileBits b first n g) i = g (s.tileAt b (first + i))) ∧
    ∀ k, k < first ∨ first + n ≤ k → (s.markTiles b first n).1.tileAt b k = s.tileAt b k) ∧
  OnBlock (fun f _ => tmsetSpec f) Instr.tmset
    (fun f s e _ _ _ => let m := tmsetMap f s e
      m.base.toNat % 16 = 0 ∧ m.stride1.toNat % 16 = 0 ∧ m.stride2.toNat % 16 = 0)
    (fun f s e s1 b _ => s1.modBlock b (fun blk => { blk with maps := Cells.set {} blk.maps (f.desc % 8) (tmsetMap f s e) }))

/-! ### The matrix unit (16_matrix.md) -/

/-- mxa and mxap (R355 to R358), accal, accfr, acczr, accrd, accwr (R360 to R363) and accdr (R364): with their checks passed
each is issued as an operation of its core's unit, with its operands as they stand, and accal, accrd and a register drain
leave their destinations empty. ACC_UNALLOC names the first bank of the run that is not GRANTED to the block (R349). -/
def Obligations.MatrixIssue : Prop :=
  let onUnit (p : FWord → OpSpec) (empty : FWord → Env → State → Check) (i : FWord → Instr)
      (ok : FWord → State → Env → State → Nat → Block → Prop) (act : FWord → State → Env → State → Nat → Block → State) : Prop :=
    ∀ f s e s1 b blk, s.envOf f = some e → (p f).trap (s.encEnv e.key) f = none → e.act ≠ 0 → empty f e s = .ok →
      s.Opens e s1 → s.issuerBlock = some (b, blk) → ok f s e s1 b blk → exec (i f) s = .next ((act f s e s1 b blk).closed e)
  let plain (p : FWord → OpSpec) (f : FWord) (e : Env) (s : State) : Check := s.emptyCheck (p f) e
  let mx (pair : Bool) (i : FWord → Instr) : Prop :=
    onUnit (fun f => mxaSpec f pair) (fun f => mxaEmpty f pair) i
      (fun f s e s1 b blk => s1.mxaCheck e b blk (s.mxaJob e f pair) = .ok)
      (fun f s e s1 b blk =>
        let j := s.mxaJob e f pair
        (s1.touchTiles e.key blk (spanTiles j.spans)).issueOp e (some 1)
          (.matrix { j with pages := s1.tilePages e.key blk (spanTiles j.spans), mate := if pair then s1.follower b blk else none }))
  let free (s1 : State) (blk : Block) : Prop := s1.unitFull [blk.core] = .ok
  let banks (f : FWord) (s : State) (e : Env) (s1 : State) (b : Nat) (blk : Block) (n : Nat) : Prop :=
    s1.banksCheck blk.core b (s.bankOf e f.fa) n = .ok
  mx false Instr.mxa ∧ mx true Instr.mxap ∧
  onUnit (fun _ => accalSpec) (plain (fun _ => accalSpec)) Instr.accal (fun _ _ _ s1 _ blk => free s1 blk)
    (fun f s e s1 _ _ =>
      let r := s1.startFill e.key (s1.destKeys e 1 f.fd e.act)
      r.2.issueOp e none (.grant r.1 (s.uvalue e 10 f.fa))) ∧
  onUnit banksSpec (plain banksSpec) Instr.acczr
    (fun f s e s1 b blk => s1.counterFull e 1 = .ok ∧ free s1 blk ∧ banks f s e s1 b blk (f.q % 32 + 1))
    (fun f s e s1 _ _ => s1.issueOp e (some 1) (.zero (s.bankOf e f.fa) (f.q % 32 + 1))) ∧
  onUnit banksSpec (plain banksSpec) Instr.accfr
    (fun f s e s1 b blk => free s1 blk ∧ banks f s e s1 b blk (f.q % 32 + 1))
    (fun f s e s1 _ blk =>
      let n := f.q % 32 + 1
      let d := s.bankOf e f.fa
      let v : State :=
        { s1 with banks := (List.range n).foldl (fun m i => Cells.put m (bankKey blk.core (d + i)) .freeing) s1.banks }
      (v.issueOp e none (.release d n)).settleBanks blk.core) ∧
  onUnit (fun f => elemSpec f (.dest (Gen.vOnly 10 (2 ^ (f.mod % 4)) (2 ^ (f.mod % 4)))))
    (plain (fun f => elemSpec f (.dest (Gen.vOnly 10 (2 ^ (f.mod % 4)) (2 ^ (f.mod % 4)))))) Instr.accrd
    (fun f s e s1 b blk => columnCheck (s.uvalue e 10 f.fb) (2 ^ (f.mod % 4)) false = .ok ∧ free s1 blk ∧ banks f s e s1 b blk 1)
    (fun f s e s1 _ _ =>
      let r := s1.startFill e.key (s1.destKeys e (2 ^ (f.mod % 4)) f.fd e.act)
      r.2.issueOp e none (.readBank r.1 ((laneList e.act).flatMap (fun l => (List.range (2 ^ (f.mod % 4))).map (fun i =>
        ((f.fd.toNat + i) * 32 + l, accKey 0 (s.bankOf e f.fa) l (s.uvalue e 10 f.fb + i))))))) ∧
  onUnit (fun f => elemSpec f (.data (Gen.vOnly 10 (2 ^ (f.mod % 4)) (2 ^ (f.mod % 4)))))
    (plain (fun f => elemSpec f (.data (Gen.vOnly 10 (2 ^ (f.mod % 4)) (2 ^ (f.mod % 4)))))) Instr.accwr
    (fun f s e s1 b blk => s1.counterFull e 1 = .ok ∧ columnCheck (s.uvalue e 10 f.fb) (2 ^ (f.mod % 4)) true = .ok ∧
      free s1 blk ∧ banks f s e s1 b blk 1)
    (fun f s e s1 _ _ => s1.issueOp e (some 1) (.writeBank ((laneList e.act).flatMap (fun l =>
      (List.range (2 ^ (f.mod % 4))).map (fun i =>
        (accKey 0 (s.bankOf e f.fa) l (s.uvalue e 10 f.fb + i), s.vreg e (f.fd.toNat + i) l)))))) ∧
  onUnit accdrSpec accdrEmpty Instr.accdr (fun f s e s1 b blk => s1.accdrCheck e b blk (s.accdrJob e f) = .ok)
    (fun f s e s1 _ blk => s1.acceptDrain e blk (s.accdrJob e f)) ∧
  (∀ (s : State) (core b d n i : Nat), d + n ≤ 32 → i < n →
    (∀ k, k < i → Cells.find s.banks (bankKey core (d + k)) = some (.granted b)) →
    Cells.find s.banks (bankKey core (d + i)) ≠ some (.granted b) →
    s.banksCheck core b d n = .trap { code := 0x0A, detail := d + i }) ∧
  (∀ (s : State) (core b d n : Nat), d + n ≤ 32 →
    (∀ k, k < n → Cells.find s.banks (bankKey core (d + k)) = some (.granted b)) → s.banksCheck core b d n = .ok) ∧
  (∀ (s : State) (core b d n : Nat), 32 < d + n → s.banksCheck core b d n = .trap { code := 0x0A, detail := d })

/-- MTX_OPERATION (R341): mxa (R357) gives each element of its rows and columns the passes over the products of its row of A
and column of B, from the element or from 0, and leaves the others; acczr, accwr and accrd do as R362 and R363 say; accal
grants the lowest run of FREE banks (R361). Elements that stand for a parity error or poison are left aside. The moments at
which operands are read are the model's reading (log entries 8 and 28). -/
def Obligations.MatrixResults : Prop :=
  (∀ (s : State) (core : Nat) (j : MatrixJob) (cols m n : Nat), cols ≤ 64 → m < j.m → n < cols → j.masked m = false →
    s.accParity = [] → s.accPoison = [] →
    let key := accKey core (j.bank + m / 32) (m % 32) n
    let old := if j.acc then (Cells.get 0 s.acc key).toNat else 0
    Cells.get 0 (s.macCore core j cols).acc key = BitVec.ofNat 32
      (macPasses (mtxPass j.af) (List.zipWith FVal.mul (j.rowValues m) (s.columnValues core j n)) old)) ∧
  (∀ (s : State) (core : Nat) (j : MatrixJob) (cols m n : Nat), cols ≤ 64 → m < j.m → n < cols → j.masked m = true →
    s.accParity = [] → s.accPoison = [] →
    let key := accKey core (j.bank + m / 32) (m % 32) n
    Cells.get 0 (s.macCore core j cols).acc key = if j.acc then Cells.get 0 s.acc key else 0) ∧
  (∀ (s : State) (core : Nat) (j : MatrixJob) (cols k : Nat), s.accParity = [] → s.accPoison = [] →
    (∀ m n, m < j.m → n < cols → k ≠ accKey core (j.bank + m / 32) (m % 32) n) →
    Cells.get 0 (s.macCore core j cols).acc k = Cells.get 0 s.acc k) ∧
  (∀ (s : State) (id : Nat) (o : EngineOp), Cells.find s.ops id = some o → o.done = false → s.unitBehind id o = false →
    Cells.risingFrom none s.ops = true →
    (∀ j, o.kind = .matrix j → s.unownedPage j.pages = none → ∀ s1 j1,
      s.readTiles id (o.block.getD 0) o.core j ((spanTiles j.spans).map (·.1)) = (s1, j1, true) →
      ∃ t : State, exec (.mtxOperation o.core id) s = .next t ∧ t.acc = (if j1.pair then (s1.macCore o.core j1 64).macCore (Nat.xor o.core 1) j1 (j1.n - 64)
        else s1.macCore o.core j1 j1.n).acc ∧
        ∃ o2, Cells.find t.ops id = some o2 ∧ o2.done = true) ∧
    (∀ bank n, o.kind = .zero bank n → ∃ t : State, exec (.mtxOperation o.core id) s = .next t ∧
      (∀ k, Cells.get 0 t.acc k = if accKey o.core bank 0 0 ≤ k ∧ k < accKey o.core (bank + n) 0 0 then 0
        else Cells.get 0 s.acc k) ∧ (∃ o2, Cells.find t.ops id = some o2 ∧ o2.done = true)) ∧
    (∀ ws, o.kind = .writeBank ws → ∃ t : State, exec (.mtxOperation o.core id) s = .next t ∧
      (∀ k, Cells.get 0 t.acc k =
        ((ws.reverse.find? (fun w => o.core * 65536 + w.1 == k)).map (·.2)).getD (Cells.get 0 s.acc k))) ∧
    (∀ fill rs y, o.kind = .readBank fill rs → s.accParity = [] → s.accPoison = [] → Cells.find s.fills fill = some y →
      ∃ t : State, exec (.mtxOperation o.core id) s = .next t ∧ .registerFill fill ∈ t.agenda ∧ t.acc = s.acc ∧
        ∃ z, Cells.find t.fills fill = some z ∧
          z.vs = y.vs ++ rs.map (fun r => (r.1, Cells.get 0 s.acc (o.core * 65536 + r.2)))) ∧
    (∀ fill n y d, o.kind = .grant fill n → 0 < n → n ≤ 32 → s.freeRun o.core n = some d → Cells.find s.fills fill = some y →
      ∃ t : State, exec (.mtxOperation o.core id) s = .next t ∧
        (∃ z, Cells.find t.fills fill = some z ∧ z.ss = y.ss ++ y.sKeys.map (fun k => (k, BitVec.ofNat 64 d))) ∧
        ((∀ x ∈ s.ops, ∀ bank m, x.2.kind = .release bank m → bank + m ≤ 32) →
          ∀ k, k / 32 ≠ o.core → Cells.find t.banks k = Cells.find s.banks k) ∧
        ((∀ x ∈ s.ops, ∀ bank m, x.2.kind ≠ .release bank m) → ∀ i, i < n →
          Cells.find t.banks (bankKey o.core (d + i)) = some (.granted (o.block.getD 0))))) ∧
  (∀ (s : State) (core n d : Nat), s.freeRun core n = some d → d + n ≤ 32 ∧
    (∀ i, i < n → Cells.find s.banks (bankKey core (d + i)) = none) ∧
    ∀ c, c < d → ∃ i, i < n ∧ Cells.find s.banks (bankKey core (c + i)) ≠ none) ∧
  (∀ (s : State) (core : Nat), ∃ t : State, exec (.mtxErrRead core) s = .next t ∧ Cells.get 0 t.mtxErr core = 0 ∧
    t.out = s.out ++ [.registerValue (BitVec.ofNat 64 (Cells.get 0 s.mtxErr core))] ∧
    (∀ c, c ≠ core → Cells.get 0 t.mtxErr c = Cells.get 0 s.mtxErr c) ∧ { t with out := s.out, mtxErr := s.mtxErr } = s)

/-! ### Attention (18_attention.md) -/

/-- amask (R400), smx (R401, R402) and cred (R404, R405): with the checks passed each is issued as an operation of its
core's unit, behind an smx the wave issues nothing until it retires, and cred leaves its sd empty. At its turn amask sets
the hidden elements of its rows to −∞ and no others; a round to which every position of MASK has contributed ends with its
results, and one that a position can no longer join answers its participants with status 5 (R406, R409). The writes after
acceptance and the fields that a round compares are the model's reading (log entries 29 and 30). -/
def Obligations.AttentionOperations : Prop :=
  OnBlock (fun f _ => amaskSpec f) Instr.amask
    (fun f s e s1 b blk => s1.unitFull [blk.core] = .ok ∧ s1.banksCheck blk.core b (s.amaskJob e f).bank 1 = .ok)
    (fun f s e s1 _ _ => s1.issueOp e none (.mask (s.amaskJob e f))) ∧
  OnBlock (fun f _ => smxSpec f) Instr.smx (fun f s e s1 b blk => s1.smxCheck e b blk (s.smxJob e f) = .ok)
    (fun f s e s1 _ blk =>
      let j := s.smxJob e f
      ((s1.touchTiles e.key blk (spanTiles j.spans)).issueOp e none
        (.softmax { j with pages := s1.tilePages e.key blk (spanTiles j.spans) })).modWave e.key
        (fun w => { w with hold := some (.operation s1.nextId) })) ∧
  OnBlock (fun f s => credSpec f s.issuerPosition) Instr.cred
    (fun f s e s1 b blk =>
      s1.credCheck e b blk (s.bankOf e f.fa) (s.uvalue e 10 f.fb) (f.ext.getD 0).toNat = .ok)
    (fun f s e s1 _ blk =>
      let tiles := credTiles blk (s.uvalue e 10 f.fb) (f.ext.getD 0).toNat
      let r := (s1.touchTiles e.key blk tiles).startFill e.key (s1.destKeys e 1 f.fd e.act)
      r.2.issueOp e none (.reduce { fill := r.1, ob := s.bankOf e f.fa, ro := s.uvalue e 10 f.fb, tag := f.q % 16
                                    desc := f.ext.getD 0, pages := s1.tilePages e.key blk tiles })) ∧
  (∀ (s : State) (id : Nat) (o : EngineOp) (j : MaskJob), Cells.find s.ops id = some o → o.kind = .mask j → o.done = false →
    s.unitBehind id o = false → j.n ≤ 64 → ∃ t : State, exec (.mtxOperation o.core id) s = .next t ∧
      (∀ r q, r < 32 → q < j.n → Cells.get 0 t.acc (accKey o.core j.bank r q) =
        if j.hides r q then BitVec.ofNat 32 negInf32 else Cells.get 0 s.acc (accKey o.core j.bank r q)) ∧
      (∀ k, (∀ r q, r < 32 → q < j.n → k ≠ accKey o.core j.bank r q) → Cells.get 0 t.acc k = Cells.get 0 s.acc k)) ∧
  (∀ (s : State) (cluster key : Nat) (r : Round) (b : Nat) (blk : Block) (u : State), Cells.find s.rounds key = some r →
    (∀ k, k < 8 → bitOf (credMask r.desc.toNat) k = true → ∃ p ∈ r.parts, p.1 = k) →
    s.roundBlock r cluster (credRoot r.desc.toNat) = some (b, blk) → s.unownedPage r.pages = none →
    s.engineStash b blk.core r.pages (stashPieces r.results.1) = .ok u →
    ∃ t : State, exec (.credRoundComplete cluster key) s = .next t ∧ Cells.find t.rounds key = none ∧ t.stash = u.stash ∧
      t.mem = u.mem ∧ ∀ p ∈ r.parts, (Cells.find u.fills p.2.1).isSome → .registerFill p.2.1 ∈ t.agenda) ∧
  (∀ (s : State) (cluster key k : Nat) (r : Round), Cells.find s.rounds key = some r → k < 8 →
    bitOf (credMask r.desc.toNat) k = true → (∀ p ∈ r.parts, p.1 ≠ k) → s.roundDead r cluster = true →
    ∃ t : State, exec (.credRoundComplete cluster key) s = .next t ∧ Cells.find t.rounds key = none ∧ t.stash = s.stash ∧
      t.mem = s.mem ∧ ∀ p y, r.parts = [p] → Cells.find s.fills p.2.1 = some y → ∃ z, Cells.find t.fills p.2.1 = some z ∧
        z.ss = y.ss ++ y.sKeys.map (fun i => (i, BitVec.ofNat 64 (5 * 2 ^ 56))))

/-! ### Cohorts, barriers and supersteps (11_group.md, 12_barrier.md) -/

/-- cjoin, cleave and cqry (R260 to R264) answer in sd, a result in flight, with what their operation on the state behind
the commit gives; cjoin adds the active lanes to the cohort of the wave's group with its key, or makes one of the lowest
FREE entry; cleave takes them out; a wave that has no slot left, or no entry to take, or a stale reference, gets the status
and changes nothing. bmake.new, bmake.drop, barr, bwait and barw (R269 to R272) answer in sd, or wait. A phase completes
exactly when every member lane has arrived and MIN is met (R267): PHASE rises, the arrivals are cleared, and no lane of the
cluster waits on it any more. An arrival counts member lanes only. A lane waits while the phase of its token is open, and
passes once it is over. -/
def Obligations.CohortsAndBarriers : Prop :=
  ((∀ (s : State) (e : Env) (x n : Nat) (w : Wave), srcOf e.f.fd = .s n → Cells.find s.waves e.key = some w →
     let t := s.longS e x
     (t.waveAt e.key).regs = w.regs ∧ Cells.get false (t.waveAt e.key).sEmpty (sIndex w.trapMode n) = true ∧
     .registerFill s.nextId ∈ t.agenda ∧ t.mem = s.mem ∧ t.ctxs = s.ctxs ∧
     ((t.finishFill s.nextId).waveAt e.key).regs.sGet w.trapMode n = BitVec.ofNat 64 x ∧
     Cells.get false ((t.finishFill s.nextId).waveAt e.key).sEmpty (sIndex w.trapMode n) = false) ∧
   AtBoundary (fun _ _ => { refSpec with fa := .source (Gen.sIntLit 10 1) }) Instr.cjoin (fun _ _ _ _ => True)
     (fun f _ e s1 =>
       let r := s1.cjoin e.key e.act (BitVec.ofNat 32 (s1.uvalue e 10 f.fa))
       r.1.longS e r.2) ∧
   AtBoundary (fun _ _ => refSpec) Instr.cleave (fun _ _ _ _ => True)
     (fun f _ e s1 =>
       let r := s1.cleave e.key e.act (s1.uvalue e 10 f.fa)
       r.1.longS e r.2) ∧
   AtBoundary (fun f _ => { refSpec with qBits := 3, reserved := bitsOf f.q 1 0 == 3 }) Instr.cqry (fun _ _ _ _ => True)
     (fun f _ e s1 => s1.longS e (s1.cqry e.key (bitsOf f.q 1 0) (s1.uvalue e 10 f.fa))) ∧
   (∀ (s : State) (k c : Nat) (lanes key : Word) (w : Wave), Cells.find s.waves k = some w → lanes ≠ 0 →
     let cluster := clusterOf w.core
     let entry := Cells.get {} s.cohorts (cluster * 64 + c)
     let r := s.cjoin k lanes key
     (s.cohortOf w key = some c → w.memberMask c ≠ 0 ∨ w.cohorts.length < 4 →
       r.2 = entry.gen * 256 + c ∧ (r.1.waveAt k).memberMask c = w.memberMask c ||| lanes) ∧
     (s.cohortOf w key = some c → w.memberMask c = 0 → 4 ≤ w.cohorts.length → r = (s, 2 * 2 ^ 56)) ∧
     (s.cohortOf w key = none → s.freeCohortEntry cluster = none → r = (s, 2 ^ 56)) ∧
     (s.cohortOf w key = none → s.freeCohortEntry cluster = some c → w.cohorts.length < 4 →
       r.2 = 65536 + nextGen entry.gen * 256 + c ∧ (r.1.waveAt k).memberMask c = w.memberMask c ||| lanes ∧
       Cells.get {} r.1.cohorts (cluster * 64 + c) =
         { gen := nextGen entry.gen, live := true, ctx := w.ctx, key := key, group := s.groupOf w })) ∧
   (∀ (s : State) (k ref : Nat) (lanes : Word), s.cohortRef (s.waveAt k) ref = none →
     s.cleave k lanes ref = (s, 3 * 2 ^ 56) ∧ ∀ what, s.cqry k what ref = 3 * 2 ^ 56) ∧
   (∀ (s : State) (k ref c : Nat) (lanes : Word) (w : Wave), Cells.find s.waves k = some w → s.cohortRef w ref = some c →
     (((s.cleave k lanes ref).1.waveAt k).memberMask c = w.memberMask c &&& ~~~ lanes) ∧
     s.cqry k 0 ref = s.memberCount (clusterOf w.core) c ∧ s.cqry k 1 ref = (w.memberMask c).toNat ∧
     s.cqry k 2 ref = (Cells.get {} s.cohorts (clusterOf w.core * 64 + c)).key.toNat)) ∧
  (AtBoundary (fun _ _ => { barrierSpec with fb := .source (Gen.sIntLit 10 1), qBits := 1 }) Instr.bmakeNew (fun _ _ _ _ => True)
     (fun f _ e s1 =>
       let r := s1.makeBarrier e.key (s1.uvalue e 10 f.fa) (s1.uvalue e 10 f.fb)
       r.1.longS e r.2) ∧
   AtBoundary (fun _ _ => { barrierSpec with qBits := 1 }) Instr.bmakeDrop (fun _ _ _ _ => True)
     (fun f _ e s1 =>
       let r := s1.dropBarrier e.key (s1.uvalue e 10 f.fa)
       r.1.longS e r.2) ∧
   AtBoundary (fun _ _ => barrierSpec) Instr.barr (fun _ _ _ _ => True)
     (fun f _ e s1 =>
       let r := s1.arriveAt e.key (s1.uvalue e 10 f.fa) e.act
       (r.1.testPhases e.key).longS e (arrivalWord r.2.1 r.2.2.1 (s1.uvalue e 10 f.fa))) ∧
   AtBoundary (fun _ _ => barrierSpec) Instr.bwait (fun _ _ _ _ => True)
     (fun f s e s1 => s1.waitPhase e (s.uvalue e 10 f.fa % 2 ^ 32) false) ∧
   AtBoundary (fun _ _ => barrierSpec) Instr.barw (fun _ _ _ _ => True) (fun f s e s1 => s1.barrierWait e (s.uvalue e 10 f.fa)) ∧
   (∀ (s : State) (cluster n : Nat),
     let b := Cells.get {} s.barriers (cluster * 32 + n)
     let t := s.testBarrier cluster n
     let complete : Prop :=
       b.live = true ∧ b.arrivedCount = s.memberCount cluster b.cohort ∧ b.min ≤ b.arrivedCount ∧ 0 < b.arrivedCount
     (¬ complete → t = s) ∧
     (complete → Cells.get {} t.barriers (cluster * 32 + n) = { b with phase := (b.phase + 1) % 65536, arrived := [] } ∧
       (∀ x ∈ t.waves, clusterOf x.2.core = cluster → ∀ y ∈ x.2.waits, ∀ barw st, y.obj ≠ .barrier n b.gen b.phase barw st) ∧
       t.mem = s.mem ∧ t.ctxs = s.ctxs)) ∧
   (∀ (s : State) (k ref n : Nat) (lanes : Word) (w : Wave), Cells.find s.waves k = some w → s.barrierRefOf w ref = some n →
     let b := s.barrierAt w n
     let mine := lanes &&& w.memberMask b.cohort
     let old := Cells.get 0 b.arrived k
     (mine = 0 → s.arriveAt k ref lanes = (s, 4, 0, n)) ∧
     (mine ≠ 0 → (s.arriveAt k ref lanes).2 = (if mine &&& old = 0 then 0 else 2, b.phase, n) ∧
       Cells.get 0 ((s.arriveAt k ref lanes).1.barrierAt w n).arrived k = old ||| mine ∧
       (s.arriveAt k ref lanes).1.waves = s.waves)) ∧
   (∀ (s : State) (k tok n : Nat) (w : Wave), Cells.find s.waves k = some w → s.barrierRefOf w (tok % 65536) = some n →
     let d := ((s.barrierAt w n).phase + 65536 - bitsOf tok 31 16) % 65536
     s.phaseNow k tok = if d = 0 then none else if d < 32768 then some (tok / 2 ^ 56 * 2 ^ 56 + tok % 2 ^ 32)
       else some (4 * 2 ^ 56)) ∧
   (∀ (s : State) (k tok : Nat), s.barrierRefOf (s.waveAt k) (tok % 65536) = none → s.phaseNow k tok = some (3 * 2 ^ 56)))

/-- sstep and superstep groups (R276 to R280) and the watchdog (R281, R282): sstep answers with the status of a group that
is not ARMED; in an ARMED group, with every write of the wave acknowledged, it arrives: one more arrival is counted and its
lanes wait for the step; the arrival that is the last of a step whose other members are done completes the step, and the
lanes go on with its number in sd; a write that was lost breaks the group with cause 1 instead. SS_ARM reads the member map
of an OFF group and arms it, or refuses with cause 3; SS_RESET turns a group off; DONE of a node whose TAG no ARMED group
holds is kept; SS_TIMEOUT breaks a group with cause 2; and a context all of whose waves wait, one of them on something
outside, becomes QUIESCENT. How lost writes break a group, and an ARM that waits for ownership, are the model's reading (log
entries 55 and 59). -/
def Obligations.Supersteps : Prop :=
  AtBoundary (fun _ _ => { barrierSpec with fa := .source (Gen.sIntLit 10 1) }) Instr.sstep (fun _ _ _ _ => True)
    (fun f s e s1 => s1.superstep e (s.uvalue e 10 f.fa)) ∧
  (∀ (s : State) (e : Env) (g : Nat),
    let y := (s.ctxAt (s.waveAt e.key).ctx).groupAt g
    (15 < g → s.superstep e g = (s.dropKept e).longS e (4 * 2 ^ 56)) ∧
    (g ≤ 15 → y.st = .off → s.superstep e g = (s.dropKept e).longS e (2 ^ 56)) ∧
    (g ≤ 15 → y.st = .broken → s.superstep e g = (s.dropKept e).longS e ((1 + y.cause) * 2 ^ 56))) ∧
  (∀ (f : FWord) (s s1 : State) (e : Env),
    Issues { barrierSpec with fa := .source (Gen.sIntLit 10 1) } f s e → s.Opens e s1 →
    let g := s.uvalue e 10 f.fa
    let y := (s1.ctxAt (s1.waveAt e.key).ctx).groupAt g
    15 < g ∨ y.st = .off → ∃ t, exec (.sstep f) s = .next t ∧ t.AnswersS s e (if 15 < g then 4 * 2 ^ 56 else 2 ^ 56)) ∧
  (∀ (s : State) (e : Env) (g : Nat) (w : Wave) (x : Context), Cells.find s.waves e.key = some w →
    Cells.find s.ctxs w.ctx = some x → g ≤ 15 → (x.groupAt g).st = .armed → w.keptAt e.pc false = none →
    s.acknowledged e.key = true → (∀ z ∈ w.waits, ∀ h n a, z.obj ≠ .superstep h n a) →
    let y := x.groupAt g
    let t := s.superstep e g
    (w.lostSteps = 0 → y.arrived + 1 < y.local' → (t.ctxAt w.ctx).groupAt g = { y with arrived := y.arrived + 1 } ∧
      ∃ z ∈ (t.waveAt e.key).waits, z.lanes = e.act ∧ z.pc = e.pc ∧ z.obj = .superstep g (y.stepNo % 2 ^ 32) true) ∧
    (w.lostSteps = 0 → y.arrived + 1 = y.local' → y.sentDone = y.stepNo → y.stepNo < 2 ^ 32 →
      (∀ m ∈ y.members, m = s.node ∨ (m, y.stepNo) ∈ y.dones) →
      ((t.ctxAt w.ctx).groupAt g).st = .armed ∧ ((t.ctxAt w.ctx).groupAt g).stepNo = (y.stepNo + 1) % 2 ^ 32 ∧
      ((t.ctxAt w.ctx).groupAt g).arrived = 0 ∧ (∀ z ∈ (t.waveAt e.key).waits, ∀ h n a, z.obj ≠ .superstep h n a) ∧
      (∀ l ∈ laneList e.act, (t.waveAt e.key).pcOf l = e.pc + BitVec.ofNat 64 e.size) ∧
      ∀ n, srcOf e.f.fd = .s n → (t.waveAt e.key).regs.sGet w.trapMode n = BitVec.ofNat 64 y.stepNo) ∧
    (w.lostSteps ≠ 0 → (t.ctxAt w.ctx).groupAt g = { y with st := .broken, cause := 1 })) ∧
  (∀ (s : State) (c g : Nat) (x : Context), Cells.find s.ctxs c = some x → (x.groupAt g).st = .off →
    (∀ pa, s.shutterOf pa = none) →
    let y := x.groupAt g
    let base := bitsOf y.nodes.toNat 51 9 * 512
    let bits := ofBytes (s.peek base 512)
    let good : Prop := s.backed base = true ∧ s.guarded c ⟨base, none, 0⟩ = false ∧ bitOf bits s.node = true ∧
      0 < bitsOf y.cfg.toNat 17 0 ∧ bitsOf y.cfg.toNat 17 0 ≤ 196608
    (good → ∃ t : State, exec (.ssArm c g) s = .next t ∧ ∃ z, z = (t.ctxAt c).groupAt g ∧ z.st = .armed ∧ z.stepNo = 0 ∧
      z.arrived = 0 ∧ z.nodes = y.nodes ∧ z.cfg = y.cfg ∧ ∀ n, n < 4096 → (n ∈ z.members ↔ bitOf bits n = true)) ∧
    (¬ good → ∃ t : State, exec (.ssArm c g) s = .next t ∧ (t.ctxAt c).groupAt g = { y with cause := 3 } ∧
      { t with ctxs := s.ctxs } = s)) ∧
  (∀ (s : State) (c g : Nat) (x : Context), Cells.find s.ctxs c = some x → x.image = none →
    ∃ t : State, exec (.ssReset c g) s = .next t ∧
      (t.ctxAt c).groupAt g = { x.groupAt g with st := .off, cause := 0, members := [], dones := [], msgs := [] } ∧
      (∀ v ∈ t.waves, v.2.ctx = c → ∀ y ∈ v.2.waits, ∀ n a, y.obj ≠ .superstep g n a)) ∧
  (∀ (s : State) (node tag n : Nat), node = s.node ∨ s.hears node = true →
    (∀ c ∈ s.ctxs, ∀ g ∈ c.2.groups, ¬ (g.2.st = .armed ∧ g.2.tag = tag)) → s.keptDones.length < 64 →
    exec (.ssDone node tag n) s = .next { s with keptDones := s.keptDones ++ [(node, tag, n)] }) ∧
  (∀ (s : State) (c g : Nat) (x : Context), Cells.find s.ctxs c = some x → x.image = none → (x.groupAt g).st = .armed →
    (x.groupAt g).tmo ≠ 0 → 0 < (x.groupAt g).arrived → ∃ t : State, exec (.ssTimeout c g) s = .next t ∧
      (t.ctxAt c).groupAt g = { x.groupAt g with st := .broken, cause := 2 } ∧
      (∀ v ∈ t.waves, v.2.ctx = c → ∀ y ∈ v.2.waits, ∀ n a, y.obj ≠ .superstep g n a)) ∧
  (∀ (s : State) (c : Nat) (x : Context), Cells.find s.ctxs c = some x → x.st = .running → x.wdCfg.toNat % 2 ^ 32 ≠ 0 →
    s.workPending c = false → (∀ v ∈ s.waves, v.2.ctx = c → v.2.waitClass ≠ .none) →
    (∃ v ∈ s.waves, v.2.ctx = c ∧ v.2.waitClass = .external) →
    exec (.watchdogExpiry c) s = .next (s.modCtx c (fun y => { y with quiescent := true })))

/-! ### Kernels and dispatch (09_queue.md R231, 10_kernel.md) -/

/-- launch, joink and kq (R250 to R255): launch gives in sd the handle of the lowest FREE kernel-table entry, QUEUED with
its generation one up, or status 1 where the table is full; joink gives the status of a kernel that has ended and frees its
entry, waits for one that has not, and gives 3 for a handle that names none; kq gives the state, and kq.kill then kills a
kernel that has not ended: its entry and its launch are KILLED, and no block of it is handed out any more. -/
def Obligations.Kernels : Prop :=
  (∀ (f : FWord) (s s1 : State) (e : Env) (r : Option LaunchRec) (ps : List (Nat × Nat)), Issues (kernelSpec 0) f s e →
    s.Opens e s1 →
    s1.readRecord (s1.waveAt e.key).ctx (s1.waveAt e.key).core (s.uvalue e 11 f.fa) = .ok (r, ps) →
    let x := (s1.noteRead ps).launchKernel e.key r
    exec (.launch f) s = .next ((x.1.longS e x.2).closed e)) ∧
  AtBoundary (fun _ _ => kernelSpec 0) Instr.joink (fun _ _ _ _ => True) (fun f s e s1 => s1.join e (s.uvalue e 11 f.fa)) ∧
  AtBoundary (fun _ _ => kernelSpec 1) Instr.kqQuery (fun _ _ _ _ => True)
    (fun f s e s1 => s1.longS e ((s1.ctxOf e).kernelCode (s.uvalue e 11 f.fa))) ∧
  (∀ f s e s1, Issues (kernelSpec 1) f s e → s.Opens e s1 →
    let h := s.uvalue e 11 f.fa
    exec (.kqKill f) s = .next (((s1.longS e ((s1.ctxOf e).kernelCode h)).closed e).killKernel (s.waveAt e.key).ctx h)) ∧
  (∀ (f : FWord) (s s1 : State) (e : Env) (r : LaunchRec) (ps : List (Nat × Nat)) (i : Nat) (x : Context),
    Issues (kernelSpec 0) f s e → s.Opens e s1 →
    s1.readRecord (s1.waveAt e.key).ctx (s1.waveAt e.key).core (s.uvalue e 11 f.fa) = .ok (some r, ps) →
    let u := s1.noteRead ps
    let c := (u.waveAt e.key).ctx
    let g := if (Cells.get {} x.kernels i).gen = 2 ^ 32 - 1 then 1 else (Cells.get {} x.kernels i).gen + 1
    Cells.find u.ctxs c = some x → u.childOf e.key = none → x.freeKernel = some i →
    x.kernelsInUse < bitsOf x.krnLimit.toNat 10 0 →
    ∃ t, exec (.launch f) s = .next t ∧ t.AnswersS s e (g * 65536 + i) ∧
      Cells.get {} (t.ctxAt c).kernels i = { st := 1, gen := g, launch := u.nextId } ∧
      ∃ l, Cells.find t.launches u.nextId = some l ∧ l.ctx = c ∧ l.entry = some i ∧ l.fields = r ∧ l.started = true) ∧
  (∀ (f : FWord) (s s1 : State) (e : Env) (i : Nat) (k : KernelEntry), Issues (kernelSpec 0) f s e → s.Opens e s1 →
    let c := (s1.waveAt e.key).ctx
    (s1.ctxAt c).kernelOf (s.uvalue e 11 f.fa) = some (i, k) → 3 ≤ k.st →
    ∃ t, exec (.joink f) s = .next t ∧ t.AnswersS s e (k.st - 3) ∧ Cells.get {} (t.ctxAt c).kernels i = { gen := k.gen }) ∧
  (∀ (f : FWord) (s s1 : State) (e : Env), Issues (kernelSpec 1) f s e → s.Opens e s1 →
    let x := s1.ctxAt (s1.waveAt e.key).ctx
    let h := s.uvalue e 11 f.fa
    (∃ t, exec (.kqQuery f) s = .next t ∧ t.AnswersS s e (x.kernelCode h) ∧ t.ctxs = s1.ctxs ∧ t.mem = s1.mem) ∧
    ((∀ i k, x.kernelOf h = some (i, k) → 3 ≤ k.st) →
      ∃ t, exec (.kqKill f) s = .next t ∧ t.AnswersS s e (x.kernelCode h) ∧ t.ctxs = s1.ctxs) ∧
    (∀ i k, x.kernelOf h = some (i, k) → k.st < 3 →
      exec (.kqKill f) s = .next (((s1.longS e k.st).closed e).killLaunch k.launch 5))) ∧
  (∀ (s : State) (id : Nat) (l : Launch), Cells.find s.launches id = some l → l.killed = none → l.ended = false →
    let r := s.markTree id 5
    s.killLaunch id 5 = r.2.endKilled r.1 ∧ id ∈ r.1 ∧
    (∃ m, Cells.find r.2.launches id = some m ∧ m.killed = some 5 ∧ m.nextBlock = l.fields.nblock ∧ m.returned = []) ∧
    (∀ d ∈ r.2.dieLists, ∀ x ∈ d.2, x.1 ≠ id) ∧ (∀ y ∈ r.2.rounds, y.2.group.1 ≠ id) ∧
    ∀ i k, l.entry = some i → Cells.find (s.ctxAt l.ctx).kernels i = some k →
      ∃ z, Cells.find (r.2.ctxAt l.ctx).kernels i = some z ∧ z.st = 5) ∧
  (∀ (s : State) (k i : Nat) (r : LaunchRec) (x : Context) (w : Wave), Cells.find s.waves k = some w →
    Cells.find s.ctxs w.ctx = some x → s.childOf k = none → x.freeKernel = some i →
    x.kernelsInUse < bitsOf x.krnLimit.toNat 10 0 →
    let g := if (Cells.get {} x.kernels i).gen = 2 ^ 32 - 1 then 1 else (Cells.get {} x.kernels i).gen + 1
    let t := (s.launchKernel k (some r)).1
    (s.launchKernel k (some r)).2 = g * 65536 + i ∧
    Cells.get {} (t.ctxAt w.ctx).kernels i = { st := 1, gen := g, launch := s.nextId } ∧
    (∃ l, Cells.find t.launches s.nextId = some l ∧ l.ctx = w.ctx ∧ l.entry = some i ∧ l.fields = r ∧ l.started = true ∧
      l.root = s.nextId) ∧
    t.waves = s.waves ∧ t.mem = s.mem) ∧
  (∀ (s : State) (k : Nat), s.launchKernel k none = (s, 2)) ∧
  (∀ (s : State) (k : Nat) (r : LaunchRec), s.childOf k = none → (s.ctxAt (s.waveAt k).ctx).freeKernel = none →
    s.launchKernel k (some r) = (s, 1)) ∧
  (∀ (s : State) (e : Env) (h i : Nat) (k : KernelEntry),
    let c := (s.waveAt e.key).ctx
    ((s.ctxAt c).kernelOf h = none → s.join e h = s.longS e 3) ∧
    ((s.ctxAt c).kernelOf h = some (i, k) → k.st < 3 → s.join e h = s.waitOn e (.kernel h)) ∧
    ((s.ctxAt c).kernelOf h = some (i, k) → 3 ≤ k.st → ∃ u : State, s.join e h = u.longS e (k.st - 3) ∧
      u.ctxs = (s.modCtx c (fun x => { x with kernels := Cells.set {} x.kernels i { gen := k.gen } })).ctxs ∧
      u.waves = s.waves ∧ u.mem = s.mem))

/-- The dispatchers: DISPATCH_CHOOSE (R231, R244) serves an eligible queue of the first level that has one and hands its
batch, by rising index, to a die; BLOCK_PLACE (R242, R243, R245) gives a block of a launch without bindings, and of no
cluster launch, its resources and places its waves at the entry, live in LMASK; PROLOGUE (R241) places them once its
bindings have run, which the core does in the order of its blocks; FREE_PLACE_REPORT (R244) counts the free places of every
RUNNING context; KRN_LIMIT (R249) takes a legal pair of limits and turns another down with status 5. Which launch of a queue
is current is the model's reading (log entry 43). -/
def Obligations.Dispatchers : Prop :=
  (∀ (s s1 : State) (c q id : Nat) (l : Launch), s.choose = some (s1, c, q) → s1.currentLaunch c q = some (id, l) →
    let x := s1.ctxAt c
    let die := x.batchDie.1
    let n := s1.batchSize c q
    (c, q) ∈ s.eligible ∧
    (∀ d r, (d, r) ∈ s.eligible → bitsOf ((s.ctxAt c).queueAt q).cfg.toNat 1 0 ≤ bitsOf ((s.ctxAt d).queueAt r).cfg.toNat 1 0) ∧
    ∃ t : State, exec .dispatchChoose s = .next t ∧
      Cells.get [] t.dieLists die = Cells.get [] s1.dieLists die ++ (l.take n).1.map (fun b => (id, b)) ∧
      Cells.find t.launches id = some (l.take n).2 ∧ t.mem = s.mem ∧ t.waves = s.waves) ∧
  (∀ (s : State) (die id b core tile : Nat) (l : Launch) (slots banks : List Nat), s.headOf die = some (id, l, [b]) →
    s.targetOf die l = some core → l.fields.cluster = false → l.fields.bindings = [] →
    Cells.find s.launches id = some l → s.fit core l.fields = some (slots, tile, banks) →
    ∃ t : State, exec (.blockPlace die) s = .next t ∧
      (∃ blk, Cells.find t.blocks s.nextId = some blk ∧ blk.ctx = l.ctx ∧ blk.launch = id ∧ blk.index = b ∧ blk.core = core ∧
        blk.stashBase = 1024 * tile ∧ blk.stashTiles = l.fields.stash ∧ blk.handleCount = l.fields.handles ∧
        blk.producer = l.fields.producer ∧ blk.slots = slots ∧ blk.prologue = true) ∧
      (∀ k ∈ banks, Cells.find t.banks (bankKey core k) = some (.granted s.nextId)) ∧
      (∀ i k, slots[i]? = some k → ∃ w, Cells.find t.waves (waveKey core k) = some w ∧ w.core = core ∧ w.slot = k ∧
        w.ctx = l.ctx ∧ w.block = some s.nextId ∧ w.wib = i ∧ w.nv = l.fields.vregs ∧ w.regs = l.fields.regs ∧
        w.m0 = (if l.fields.lmask = 0 then 0xFFFFFFFF else l.fields.lmask) ∧ ∀ x, x < 32 → w.pcOf x = l.fields.entry)) ∧
  (∀ (s s1 : State) (b : Nat) (blk : Block) (l : Launch), Cells.find s.blocks b = some blk →
    Cells.find s.launches blk.launch = some l → blk.prologue = false → (s.ctxAt blk.ctx).st = .running →
    s.prologueBehind b blk.core = false →
    (if blk.begun then s else s.modBlock b (fun x => { x with begun := true, since := s.cycle })).runBindings b blk
      l.fields.bindings = (s1, .ok) →
    ∃ t : State, exec (.prologue b) s = .next t ∧ t.stash = s1.stash ∧ t.mem = s.mem ∧
      (∃ y, Cells.find t.blocks b = some y ∧
        y = { blk with prologue := true, begun := true, since := if blk.begun then blk.since else s.cycle }) ∧
      ∀ i k, blk.slots[i]? = some k → (∀ j, j ≠ i → blk.slots[j]? ≠ some k) → ∃ w,
        Cells.find t.waves (waveKey blk.core k) = some w ∧ w.block = some b ∧ w.wib = i ∧ w.regs = l.fields.regs ∧
        ∀ x, x < 32 → w.pcOf x = l.fields.entry) ∧
  (∀ (s : State) (die c : Nat) (x : Context), Cells.find s.ctxs c = some x →
    ∃ t : State, exec (.freePlaceReport die) s = .next t ∧ { t with ctxs := s.ctxs } = s ∧
      Cells.find t.ctxs c = some (if x.st = .running then
        (if die = 0 then { x with places0 := s.freePlaces x 0 } else { x with places1 := s.freePlaces x 1 }) else x)) ∧
  (∀ (s : State) (c : Nat) (v : DWord),
    let maxk := bitsOf v.toNat 10 0
    let depth := bitsOf v.toNat 20 16
    (1 ≤ maxk ∧ maxk ≤ 1024 ∧ 1 ≤ depth ∧ depth ≤ 16 → exec (.krnLimitWrite c v) s =
      .next (s.modCtx c (fun x => { x with krnLimit := BitVec.ofNat 64 (depth * 65536 + maxk) }))) ∧
    (¬ (1 ≤ maxk ∧ maxk ≤ 1024 ∧ 1 ≤ depth ∧ depth ≤ 16) → exec (.krnLimitWrite c v) s =
      .next (s.modCtx c (fun x => { x with cmdst := 5 }))))

/-! ### Block pools and shutters (17_block_pool.md, 19_shutter.md) -/

/-- The pool instructions (R374, R381 to R388): balloc, seqnew, seqdrop, seqfork, kvapp, seqlen and poolq set out for the
pool engine with a result in flight, and the engine performs what has arrived, behind those that the wave issued before it;
bfree, kvpub, and balloc of a pool that traps on exhaustion hold their wave and are performed as they issue, or raise
POOL_DOUBLE_FREE, SCOPE_MISMATCH and POOL_EXHAUSTED. Performed, each gives sd its value or its status, and the pool changes
as the instruction says or not at all. POOL_CREATE and POOL_RESET (R373) make a pool LIVE and empty, or say why not, and end
it. kvld (18_attention.md R393, R394) of a live sequence whose descriptor line may be read: each active lane's pair takes,
now or when its result in flight is written, the word that tells where its position stands; nothing of memory changes, and
the line's record names the wave. A stale handle gives status 4. That operations arrive at the pool one by one is an event
of the model (log entry 31). -/
def Obligations.BlockPools : Prop :=
  (let later (p : FWord → OpSpec) (i : FWord → Instr) (cls : Option Nat) (ok : FWord → State → Env → Prop)
       (act : FWord → State → Env → PoolAct) : Prop :=
     ∀ f s e s1, Issues (poolSpec (p f)) f s e → s.Opens e s1 → (cls.isSome → s1.counterFull e 4 = .ok) → ok f s e →
       exec (i f) s = .next ((s1.startPool e cls (act f s e)).closed e)
   let now (p : FWord → OpSpec) (i : FWord → Instr) (ok : FWord → State → Env → State → Prop)
       (act : FWord → State → Env → PoolAct) : Prop :=
     ∀ f s e s1, Issues (poolSpec (p f)) f s e → s.Opens e s1 → s1.counterFull e 4 = .ok →
       s1.poolAhead e.key s1.nextId = false → ok f s e s1 →
       let r := s1.poolAct (s1.poolSeat e) (act f s e)
       exec (i f) s = .next (((r.1.longS e r.2.1).issueOp e (some 4) r.2.2).closed e)
   let stops (p : FWord → OpSpec) (i : FWord → Instr) (ok : FWord → State → Env → State → Prop)
       (trap : FWord → State → Env → State → Trap) : Prop :=
     ∀ f s e s1, Issues (poolSpec (p f)) f s e → s.Opens e s1 → s1.counterFull e 4 = .ok →
       s1.poolAhead e.key s1.nextId = false → ok f s e s1 → Raises (exec (i f) s) s e (trap f s e s1)
   let gives (s : State) (seat : Nat × Nat) (a : PoolAct) (t : State) (x : Nat) : Prop := s.poolAct seat a = (t, x, .performed)
   let onNumber (a : Nat → PoolAct) (body : State → Nat × Nat → Nat → Pool → Prop) : Prop :=
     ∀ (s : State) (seat : Nat × Nat) (n : Nat),
       let pl := (s.ctxAt seat.1).poolAt n
       (15 < n → gives s seat (a n) s (4 * 2 ^ 56)) ∧ (n ≤ 15 → pl.live = false → gives s seat (a n) s (3 * 2 ^ 56)) ∧
       (n ≤ 15 → pl.live = true → body s seat n pl)
   let onHandle (a : Nat → PoolAct) (body : State → Nat × Nat → Nat → Nat → Nat → Pool → Sequence → Prop) : Prop :=
     ∀ (s : State) (seat : Nat × Nat) (h : Nat),
       ((s.ctxAt seat.1).seqOf h = none → gives s seat (a h) s (3 * 2 ^ 56)) ∧
       ∀ n k pl q, (s.ctxAt seat.1).seqOf h = some (n, k, pl, q) → body s seat h n k pl q
   let trapping (f : FWord) (s : State) (e : Env) : Prop :=
     s.uvalue e 10 f.fa ≤ 15 ∧ ((s.ctxOf e).poolAt (s.uvalue e 10 f.fa)).trape = true
   let pool (f : FWord) (s : State) (e : Env) (s1 : State) : Pool := (s1.ctxOf e).poolAt (s.uvalue e 10 f.fa)
   later (fun _ => { fa := poolNumber }) Instr.balloc (some 4) (fun f s e => ¬ trapping f s e)
     (fun f s e => .balloc (s.uvalue e 10 f.fa)) ∧
   now (fun _ => { fa := poolNumber }) Instr.balloc
     (fun f s e s1 => trapping f s e ∧ ¬ ((pool f s e s1).live = true ∧ (pool f s e s1).lowestBlock = none))
     (fun f s e => .balloc (s.uvalue e 10 f.fa)) ∧
   stops (fun _ => { fa := poolNumber }) Instr.balloc
     (fun f s e s1 => trapping f s e ∧ (pool f s e s1).live = true ∧ (pool f s e s1).lowestBlock = none)
     (fun f s e _ => { code := 0x0D, aux := s.uvalue e 10 f.fa }) ∧
   now (fun _ => { fa := poolNumber, fb := poolHandle }) Instr.bfree
     (fun f s e s1 => ¬ (s.uvalue e 10 f.fa ≤ 15 ∧ (pool f s e s1).live = true ∧
       ∃ b, (pool f s e s1).blockOf (s.uvalue e 11 f.fb) = some b ∧ Cells.find (pool f s e s1).blocks b = none))
     (fun f s e => .bfree (s.uvalue e 10 f.fa) (s.uvalue e 11 f.fb)) ∧
   stops (fun _ => { fa := poolNumber, fb := poolHandle }) Instr.bfree
     (fun f s e s1 => s.uvalue e 10 f.fa ≤ 15 ∧ (pool f s e s1).live = true ∧
       ∃ b, (pool f s e s1).blockOf (s.uvalue e 11 f.fb) = some b ∧ Cells.find (pool f s e s1).blocks b = none)
     (fun f s e _ => { code := 0x0C, addr := s.uvalue e 11 f.fb, aux := s.uvalue e 10 f.fa }) ∧
   later (fun _ => { fa := poolNumber }) Instr.seqnew (some 4) (fun _ _ _ => True)
     (fun f s e => .seqnew (s.uvalue e 10 f.fa)) ∧
   later (fun f => { fa := poolHandle, fb := if bitOf f.q 0 then poolNumber else .unused, qBits := 1 }) Instr.seqdrop (some 4)
     (fun _ _ _ => True)
     (fun f s e => .seqdrop (s.uvalue e 11 f.fa) (if bitOf f.q 0 then some (s.uvalue e 10 f.fb) else none)) ∧
   later (fun _ => { fa := poolHandle, fb := poolNumber }) Instr.seqfork (some 4) (fun _ _ _ => True)
     (fun f s e => .seqfork (s.uvalue e 11 f.fa) (s.uvalue e 10 f.fb)) ∧
   later (fun _ => { fa := poolHandle, fb := poolNumber }) Instr.kvapp (some 4) (fun _ _ _ => True)
     (fun f s e => .kvapp (s.uvalue e 11 f.fa) (s.uvalue e 10 f.fb)) ∧
   (let spec (f : FWord) : OpSpec := { fa := poolHandle, fb := poolNumber, qBits := 0x1C, reserved := decide (5 ≤ bitsOf f.q 4 2),
                                       illegal := decide (bitsOf f.q 4 2 < 3) }
    let bad (f : FWord) (s : State) (e : Env) (s1 : State) (m : LineMeta) : Prop :=
      ∃ n k pl q, (s1.ctxOf e).seqOf (s.uvalue e 11 f.fa) = some (n, k, pl, q) ∧ s.uvalue e 10 f.fb ≤ q.len ∧
        m = s1.lineMetaAt (pl.descriptor k) ∧ m.syncOk (bitsOf f.q 4 2) (s1.party (s1.poolSeat e)) = false
    now spec Instr.kvpub (fun f s e s1 => ∀ m, ¬ bad f s e s1 m)
      (fun f s e => .kvpub (s.uvalue e 11 f.fa) (s.uvalue e 10 f.fb) (bitsOf f.q 4 2)) ∧
    ∀ m : LineMeta, stops spec Instr.kvpub (fun f s e s1 => bad f s e s1 m)
      (fun f _ _ _ => { code := 7, detail := bitsOf f.q 4 2, aux := m.record })) ∧
   later (fun f => { fa := poolHandle, fb := if f.q % 4 = 3 then poolNumber else .unused, qBits := 3 }) Instr.seqlen none
     (fun _ _ _ => True)
     (fun f s e => .seqlen (s.uvalue e 11 f.fa) (f.q % 4) (if f.q % 4 = 3 then s.uvalue e 10 f.fb else 0)) ∧
   later (fun f => { fa := poolNumber, qBits := 3, reserved := f.q % 4 == 3 }) Instr.poolq none (fun _ _ _ => True)
     (fun f s e => .poolq (s.uvalue e 10 f.fa) (f.q % 4)) ∧
   (∀ (s t : State) (id x : Nat) (o y : EngineOp) (j : PoolJob) (fl : Fill) (kind : OpKind), Cells.find s.ops id = some o →
     o.kind = .pool j → o.done = false → s.poolAhead o.wave id = false → s.poolStalls (j.ctx, o.core) j.act = [] →
     s.poolAct (j.ctx, o.core) j.act = (t, x, kind) → Cells.find t.fills j.fill = some fl → Cells.find t.ops id = some y →
     ∃ u : State, exec (.engineOpRetire id) s = .next u ∧ u.ctxs = t.ctxs ∧ u.mem = t.mem ∧ u.lineMeta = t.lineMeta ∧
       (∃ z, Cells.find u.ops id = some z ∧ z.kind = kind) ∧ .engineOpRetire id ∈ u.agenda ∧ .registerFill j.fill ∈ u.agenda ∧
       ∃ z, Cells.find u.fills j.fill = some z ∧ z.ss = fl.ss ++ fl.sKeys.map (fun k => (k, BitVec.ofNat 64 x))) ∧
   onNumber .balloc (fun s seat n pl =>
     (pl.lowestBlock = none → gives s seat (.balloc n) s (2 ^ 56)) ∧
     ∀ b, pl.lowestBlock = some b → gives s seat (.balloc n)
       ((s.setPool seat.1 n { pl with blocks := Cells.put pl.blocks b 0 }).poolAcquire seat.2) (pl.base + b * pl.bsize)) ∧
   (∀ a, onNumber (fun n => .bfree n a) (fun s seat n pl =>
     (pl.blockOf a = none → gives s seat (.bfree n a) s (4 * 2 ^ 56)) ∧
     ∀ b, pl.blockOf a = some b →
       (∀ rc, Cells.find pl.blocks b = some rc → rc ≠ 0 → gives s seat (.bfree n a) s (8 * 2 ^ 56)) ∧
       (Cells.find pl.blocks b = some 0 → let p1 : Pool := { pl with blocks := Cells.del pl.blocks b }
         gives s seat (.bfree n a) (s.setPool seat.1 n p1) p1.freeBlocks))) ∧
   onNumber .seqnew (fun s seat n pl =>
     (pl.lowestSeq 0 pl.nseq = none → gives s seat (.seqnew n) s (2 * 2 ^ 56)) ∧
     ∀ k, pl.lowestSeq 0 pl.nseq = some k → gives s seat (.seqnew n)
       (s.setPool seat.1 n (pl.setSeq k { gen := (pl.seqAt k).gen, live := true })) (seqHandle n (pl.seqAt k).gen k)) ∧
   (∀ head, onHandle (fun h => .seqdrop h head) (fun s seat h n k pl q =>
     (head = none → gives s seat (.seqdrop h head)
       (s.setPool seat.1 n ((pl.releaseRange q (q.start / pl.tpb) (pl.blocksFor q.len)).1.setSeq k q.drop))
       (pl.releaseRange q (q.start / pl.tpb) (pl.blocksFor q.len)).2) ∧
     ∀ pos, head = some pos →
       let start := Nat.max q.start (pos / pl.tpb * pl.tpb)
       (q.len < pos → gives s seat (.seqdrop h head) s (4 * 2 ^ 56)) ∧
       (pos ≤ q.len → gives s seat (.seqdrop h head)
         (s.setPool seat.1 n ((pl.releaseRange q (q.start / pl.tpb) (start / pl.tpb)).1.setSeq k { q with start := start }))
         start))) ∧
   (∀ len, onHandle (fun h => .seqfork h len) (fun s seat h n _ pl q =>
     let lo := q.start / pl.tpb
     let slots := (List.range (pl.blocksFor len - lo)).map (fun k => (lo + k) % pl.maxblk)
     (len < q.start ∨ q.pub < len → gives s seat (.seqfork h len) s (4 * 2 ^ 56)) ∧
     (q.start ≤ len → len ≤ q.pub → pl.lowestSeq 0 pl.nseq = none → gives s seat (.seqfork h len) s (2 * 2 ^ 56)) ∧
     ∀ k, q.start ≤ len → len ≤ q.pub → pl.lowestSeq 0 pl.nseq = some k →
       let p1 : Pool := { pl with blocks := slots.foldl (fun m x =>
         Cells.put m (Cells.get 0 q.table x) (Cells.get 0 m (Cells.get 0 q.table x) + 1)) pl.blocks }
       let child : Sequence :=
         { gen := (pl.seqAt k).gen, live := true, len := len, pub := len, start := q.start
           table := slots.foldl (fun m x => Cells.put m x (Cells.get 0 q.table x)) [] }
       gives s seat (.seqfork h len) (s.setPool seat.1 n (p1.setSeq k child)) (seqHandle n (pl.seqAt k).gen k))) ∧
   (∀ m, onHandle (fun h => .kvapp h m) (fun s seat h n k pl q =>
     (∀ st, pl.appendPlan q m = .error st → st ≠ 0 → gives s seat (.kvapp h m) s (st * 2 ^ 56)) ∧
     (∀ had more, pl.appendPlan q m = .ok (had, more, none) →
       let r := pl.extend q had more
       gives s seat (.kvapp h m) ((s.setPool seat.1 n (r.1.setSeq k { r.2 with len := q.len + m })).poolAcquire seat.2) q.len) ∧
     (∀ had more cp x, pl.appendPlan q m = .ok (had, more, some cp) → s.copyLook seat pl cp = .trap x →
       gives s seat (.kvapp h m) s (6 * 2 ^ 56)) ∧
     (∀ had more cp, pl.appendPlan q m = .ok (had, more, some cp) → s.copyLook seat pl cp = .ok →
       ∃ r, s.poolAct seat (.kvapp h m) = (r, q.len, .copied (s.copyBlock seat pl cp).2) ∧ r.mem = (s.copyBlock seat pl cp).1.mem ∧
         let p0 : Pool := { pl.lower cp.1 with blocks := Cells.put (pl.lower cp.1).blocks cp.2 1 }
         let z := p0.extend { q with table := Cells.put q.table ((had - 1) % pl.maxblk) cp.2 } had more
         r.ctxs = (((s.copyBlock seat pl cp).1.setPool seat.1 n (z.1.setSeq k { z.2 with len := q.len + m }))).ctxs))) ∧
   (∀ len scope, onHandle (fun h => .kvpub h len scope) (fun s seat h n k pl q =>
     (q.len < len → gives s seat (.kvpub h len scope) s (4 * 2 ^ 56)) ∧
     (len ≤ q.len → gives s seat (.kvpub h len scope)
       ((s.setPool seat.1 n (pl.setSeq k { q with pub := Nat.max q.pub len })).syncUpdate (pl.descriptor k) scope (s.party seat))
       (Nat.max q.pub len)))) ∧
   (∀ what pos, onHandle (fun h => .seqlen h what pos) (fun s seat h _ _ pl q =>
     gives s seat (.seqlen h what pos) s
       (if what = 0 then q.len else if what = 1 then q.pub else if what = 2 then q.start
        else if pos < q.start ∨ q.len ≤ pos then 7 * 2 ^ 56 else pl.blockAddr q (pos / pl.tpb)))) ∧
   (∀ (s : State) (seat : Nat × Nat) (n what : Nat),
     let pl := (s.ctxAt seat.1).poolAt n
     gives s seat (.poolq n what) s (if 15 < n then 4 * 2 ^ 56 else if what = 0 then pl.freeBlocks
       else if what = 1 then (if pl.live then pl.liveSeqs else 0) else b2n pl.live)) ∧
   (∀ (pl : Pool) (b : Nat), pl.lowestBlock = some b → b < pl.nblk ∧ Cells.find pl.blocks b = none ∧
     ∀ c, c < b → Cells.find pl.blocks c ≠ none) ∧
   (∀ (s : State) (c n : Nat) (x : Context), Cells.find s.ctxs c = some x → (x.poolAt n).live = false →
     (∀ a, s.createCause c n (s.ctxAt c).guest = a → a ≠ 0 → exec (.poolCreate c n) s =
       .next (s.modPool c n (fun q => { q with cause := a }))) ∧
     (s.createCause c n (s.ctxAt c).guest = 0 → ∃ t : State, exec (.poolCreate c n) s = .next t ∧
       (t.ctxAt c).poolAt n = { x.poolAt n with live := true, cause := 0, blocks := [], seqs := [] } ∧ t.mem = s.mem)) ∧
   (∀ (s : State) (c n : Nat), exec (.poolReset c n) s =
     .next (s.modPool c n (fun q => { q with live := false, blocks := [], seqs := [] })))) ∧
  (∀ f s e, Issues kvldSpec f s e →
     let scope := if bitOf f.q 8 then 4 else 3
     let gives (word : Nat → Nat) (ok : State → Prop) : Prop := ∃ t : State, exec (.kvld f) s = .next t ∧ t.mem = s.mem ∧ ok t ∧
       t.MovesOn s e ∧ t.Lands (fun u => ∀ l ∈ laneList e.act, u.ElementIs e 11 l 0 (word l % 2 ^ 64))
     ((s.ctxOf e).seqOf (s.uvalue e 11 f.fa) = none → gives (fun _ => 4 * 2 ^ 56) (fun t => t.lineMeta = s.lineMeta)) ∧
     (∀ n k pl q, (s.ctxOf e).seqOf (s.uvalue e 11 f.fa) = some (n, k, pl, q) →
       let m := s.lineMetaAt (pl.descriptor k)
       (m.syncOk scope (s.party (s.poolSeat e)) = true → gives (fun l =>
         let pos := s.value e 6 f.fb l
         let a := pl.slotAddr q (f.q % 256) pos
         if pl.heads ≤ f.q % 256 then 5 * 2 ^ 56
         else if pos < q.start then 2 * 2 ^ 56
         else if q.pub ≤ pos then 2 ^ 56
         else match s.resolve (s.seat e.key).1 (s.seat e.key).2 a 1 { read := true } with
           | .error _ => 3 * 2 ^ 56 + a
           | .ok p => if p.remote.isSome || s.unowned p.pa then 3 * 2 ^ 56 + a else a)
         (fun t => t.lineMeta = (s.syncUpdate (pl.descriptor k) scope (s.party (s.poolSeat e))).lineMeta)) ∧
       (m.syncOk scope (s.party (s.poolSeat e)) = false → Raises (exec (.kvld f) s) s e
         { code := 7, lane := lowestLane e.act, detail := scope, aux := m.record })))

/-- snap, sacc, srej, sqry and sgrow (R420 to R427), where the counter is not full, and the background work of shutters:
snap.new enters a FREE shutter over its frames with an epoch of its own, snap.nest takes an epoch for one more level, sacc
and srej name a level; the update of the shutter goes to every cache that holds a line, and with the last of them the level
is open or closed and sd is written. srej of a level gives every line it has shadows of back to its old bytes, and of the
levels leaves those below; sacc of the innermost level keeps a shadow for the level below it where that has none; a restored
line holds the bytes, the tag and the poison of its shadow. sqry and sgrow answer in sd. The count of an srej and the free
choices of epochs and frames are the model's (log entries 32 and 33). -/
def Obligations.Shutters : Prop :=
  let level (i : FWord → Instr) (ok : Shutter → Nat → Bool) (act : Nat → LevelAct) : Prop :=
    ∀ f s e s1, Issues (levelSpec f) f s e → s.Opens e s1 → s1.counterFull e 5 = .ok →
      s1.levelBusy e (bitOf f.q 0) (s.uvalue e 10 f.fa) = .ok →
      let k := s.uvalue e 10 f.fb
      (s1.shutterRefOf e (bitOf f.q 0) (s.uvalue e 10 f.fa) = none → exec (i f) s = .next ((s1.startLevel e false (.error 3)).closed e)) ∧
      ∀ c n sh, s1.shutterRefOf e (bitOf f.q 0) (s.uvalue e 10 f.fa) = some (c, n, sh) →
        (ok sh k = false → exec (i f) s = .next ((s1.startLevel e false (.error 4)).closed e)) ∧
        (ok sh k = true → exec (i f) s = .next ((s1.startLevel e false (.ok (s1, c, n, act k))).closed e))
  let frames (i : FWord → Instr) (act : State → Nat → Nat → State × Nat) : Prop :=
    ∀ f s e s1, Issues sgrowSpec f s e → s.Opens e s1 → s1.counterFull e 5 = .ok →
      let r := act s1 (s.uvalue e 10 f.fa) (s.uvalue e 10 f.fb)
      exec (i f) s = .next (((r.1.longS e r.2).issueOp e (some 5) .performed).closed e) ∧
      ∃ t, exec (i f) s = .next t ∧ t.AnswersS s e r.2
  (∀ f s e s1, Issues (snapSpec false) f s e → s.Opens e s1 → s1.counterFull e 5 = .ok →
    let va := s.uvalue e 11 f.fa
    let n := s.uvalue e 10 f.fb
    s1.snapCheck e.key va n = .ok →
    let u := s1.touchPages e.key (framePages va n)
    exec (.snapNew f) s = .next ((u.startLevel e true (u.snapNew e.key va n)).closed e)) ∧
  (∀ f s e s1, Issues (snapSpec true) f s e → s.Opens e s1 → s1.counterFull e 5 = .ok →
    s1.levelBusy e false (s.uvalue e 10 f.fa) = .ok →
    exec (.snapNest f) s = .next ((s1.startLevel e true (s1.snapNest e (s.uvalue e 10 f.fa))).closed e)) ∧
  level Instr.sacc (fun sh k => decide (k = sh.levels.length)) .accept ∧
  level Instr.srej (fun sh k => decide (0 < k) && decide (k ≤ sh.levels.length)) .reject ∧
  frames Instr.sgrow State.grow ∧ frames Instr.sgrowTrim State.trim ∧
  (∀ f s e s1, Issues (sqrySpec f) f s e → s.Opens e s1 →
    let what := f.q % 4
    (s1.shutterRefOf e (bitOf f.q 2) (s.uvalue e 10 f.fa) = none →
      exec (.sqry f) s = .next ((s1.longS e (3 * 2 ^ 56)).closed e)) ∧
    ∀ c n sh, s1.shutterRefOf e (bitOf f.q 2) (s.uvalue e 10 f.fa) = some (c, n, sh) →
      let k := s.uvalue e 10 f.fb
      let x := if what = 0 then sh.levels.length
        else if what = 1 then (if k = 0 ∨ sh.levels.length < k then 4 * 2 ^ 56 else (sh.shadows.filter (·.level == k)).length)
        else sh.shadows.length + (s1.ctxAt c).freeShadows * 2 ^ 25
      exec (.sqry f) s = .next ((s1.longS e x).closed e) ∧
      ∃ t, exec (.sqry f) s = .next t ∧ t.AnswersS s e x ∧ t.ctxs = s1.ctxs ∧ t.mem = s1.mem) ∧
  (∀ (s : State) (e : Env) (st : Nat), st ≠ 0 →
    s.startLevel e true (.error st) = (s.write e 11 e.f.fd (lowestLane e.act) (st * 2 ^ 56)).issueOp e (some 5) .performed ∧
    s.startLevel e false (.error st) = (s.longS e (st * 2 ^ 56)).issueOp e (some 5) .performed) ∧
  (∀ (s t : State) (e : Env) (snap : Bool) (c i : Nat) (act : LevelAct),
    let sh := (t.ctxAt c).shutterAt i
    let u := s.startLevel e snap (.ok (t, c, i, act))
    let j : LevelJob := { op := t.nextId + 1, fill := t.nextId, act := act }
    let r := t.actLevel c i { sh with pending := none, updating := [] } act
    (t.lineAgents ≠ [] → (u.ctxAt c).shutterAt i = { sh with pending := some j, updating := t.lineAgents } ∧
      ∀ a ∈ t.lineAgents, .shutterUpdate a c i ∈ u.agenda) ∧
    (t.lineAgents = [] → (u.ctxAt c).shutterAt i = (r.1.ctxAt c).shutterAt i ∧ u.mem = r.1.mem ∧ .engineOpRetire j.op ∈ u.agenda ∧
      (∀ w n, Cells.find t.waves e.key = some w → srcOf e.f.fd = .s n → u.Lands (fun v =>
        (v.waveAt e.key).regs.sGet w.trapMode n = BitVec.ofNat 64 r.2)))) ∧
  (∀ (s : State) (a c i : Nat) (sh : Shutter), (s.ctxAt c).shutterAt i = sh →
    (a ∉ sh.updating → exec (.shutterUpdate a c i) s = .next s) ∧
    (a ∈ sh.updating → sh.updating.erase a ≠ [] →
      exec (.shutterUpdate a c i) s = .next (s.setShutter c i { sh with updating := sh.updating.erase a })) ∧
    (∀ j, sh.updating = [a] → sh.pending = some j →
      let r := (s.setShutter c i { sh with updating := [] }).actLevel c i { sh with pending := none, updating := [] } j.act
      ∃ t : State, exec (.shutterUpdate a c i) s = .next t ∧ t.ctxs = r.1.ctxs ∧ t.place = r.1.place ∧ t.mem = r.1.mem ∧
        .engineOpRetire j.op ∈ t.agenda ∧ ∀ fl, Cells.find s.fills j.fill = some fl →
          ((∀ ep, j.act ≠ .opens ep) → .registerFill j.fill ∈ t.agenda ∧ ∃ z, Cells.find t.fills j.fill = some z ∧
            z.ss = fl.ss ++ fl.sKeys.map (fun k => (k, BitVec.ofNat 64 r.2))) ∧
          ∀ k ep, j.act = .opens ep → fl.ss = [] → fl.sKeys = [k] → Cells.find s.waves fl.wave ≠ none →
            Cells.get 0 (t.waveAt fl.wave).regs.s k = BitVec.ofNat 64 r.2)) ∧
  (∀ (s : State) (k va n i ep : Nat) (x : Context) (w : Wave), Cells.find s.waves k = some w →
    Cells.find s.ctxs w.ctx = some x → 0 < n → n ≤ 2 ^ 20 →
    (∀ g ∈ s.rangeFrames k va n, ∃ p, Cells.find s.place g = some p ∧ p.ctx = w.ctx ∧ p.shut = false) →
    i < 16 → (x.shutterAt i).st = .free → (∀ j, j < i → (x.shutterAt j).st ≠ .free) → s.freeEpoch w.ctx = some ep →
    let g := if (x.shutterAt i).gen = 255 then 1 else (x.shutterAt i).gen + 1
    ∃ t, s.snapNew k va n = .ok (t, w.ctx, i, .opens ep) ∧
      (t.ctxAt w.ctx).shutterAt i = { st := .opened, gen := g, frames := s.rangeFrames k va n } ∧
      Cells.find (t.ctxAt w.ctx).epochs ep = some 1 ∧
      (∀ g ∈ s.rangeFrames k va n, ∃ p, Cells.find t.place g = some p ∧ p.shut = true) ∧ t.mem = s.mem) ∧
  (∀ (s : State) (c i ep : Nat) (sh : Shutter),
    let r := s.actLevel c i sh (.opens ep)
    (r.1.ctxAt c).shutterAt i = { sh with levels := sh.levels ++ [[ep]] } ∧
    r.2 = (sh.levels.length + 1) * 2 ^ 24 + c * 2 ^ 16 + sh.gen * 2 ^ 8 + i) ∧
  (∀ (sh : Shutter) (k : Nat), 0 < k → k ≤ sh.levels.length →
    (sh.reject k).2 = (sh.shadows.filter (·.level == k)).length ∧ (sh.reject k).1.levels = sh.levels.take (k - 1) ∧
    (∀ x ∈ sh.shadows, x.level = k → ∃ y ∈ (sh.reject k).1.shadows, y.line = x.line ∧ y.level = 0 ∧ y.bytes = x.bytes ∧
      y.poison = x.poison) ∧
    (∀ y ∈ (sh.reject k).1.shadows, y.level < k) ∧
    (∀ x ∈ sh.shadows, 0 < x.level → x.level < k → x ∈ (sh.reject k).1.shadows)) ∧
  (∀ (sh : Shutter), 2 ≤ sh.levels.length →
    let k := sh.levels.length
    let r := sh.accept k
    r.1.levels.length = k - 1 ∧ r.2 = sh.shadows.length - r.1.shadows.length ∧
    (∀ x ∈ sh.shadows, x.level ≠ k → x ∈ r.1.shadows) ∧
    (∀ x ∈ sh.shadows, x.level = k → (∀ y ∈ sh.shadows, y.line = x.line → y.level ≠ k - 1) →
      { x with level := k - 1 } ∈ r.1.shadows)) ∧
  (∀ (s : State) (c i d : Nat) (sh : Shutter) (x : Shadow), (s.ctxAt c).shutterAt i = sh →
    sh.shadows.find? (fun y => y.level == 0) = some x → s.shutterOf (x.line * 128) = some (c, i, sh) →
    s.device (x.line * 128) = some d → x.bytes.length = 128 → ∃ t : State, exec (.shutterRestore c i) s = .next t ∧
      (∀ a, a < 128 → Cells.get Memory.default t.mem (d + a) = x.bytes.getD a 0) ∧
      (∀ a, a < d ∨ d + 128 ≤ a → Cells.get Memory.default t.mem a = Cells.get Memory.default s.mem a) ∧
      (t.metaOf (d / 128)).epoch = x.tag ∧ (t.metaOf (d / 128)).poison = x.poison) ∧
  (∀ (s : State) (c i l d : Nat) (ls : List Nat) (sh : Shutter), (s.ctxAt c).shutterAt i = sh → sh.scrub = l :: ls →
    s.pendingShadow (l * 128) = none → s.device (l * 128) = some d → ∃ t : State, exec (.shutterScrub c i) s = .next t ∧
      t.mem = s.mem ∧ (t.metaOf (d / 128)).poison = (s.metaOf (d / 128)).poison ∧
      (t.metaOf (d / 128)).epoch =
        (if sh.retiredEpochs.contains (s.metaOf (d / 128)).epoch then 0 else (s.metaOf (d / 128)).epoch)) ∧
  (∀ (s u : State) (c : Nat) (x : ShadowWait), s.shadowWaits = [x] → x.ctx = c →
    ({ s with shadowWaits := [] } : State).tryWrite x.pa x.bytes = some u → ∃ t : State,
      exec (.shadowWaitProceed c) s = .next t ∧ t.mem = u.mem ∧ t.shadowWaits = u.shadowWaits)

/-! ### Placement (13_page.md) -/

/-- pin, unpin, hint, pgqry, recode and pgown (R303 to R308): a count outside 1 to 65,536 gives status 3; a range that
translates is acted on frame by frame, and sd, a result in flight, takes the count of its frames or the status and index of
the first that refuses; pgown asks for the frames of the range that this package does not own, and gives their count once it
owns them all. On a frame that nothing holds up, unpin, hint, a pin or recode that needs no migration, and pgqry are done at
once. The waits for ownership are the model's reading (log entries 44 and 45). -/
def Obligations.PlacementInstructions : Prop :=
  let acts (p : FWord → OpSpec) (i : FWord → Instr) (counted : Bool) (act : PlaceAct) (sel : FWord → Nat) : Prop :=
    ∀ f s e s1, Issues (p f) f s e → s.Opens e s1 →
      let va := s.uvalue e 11 f.fa
      let n := if counted then s.uvalue e 10 f.fb else 1
      (n = 0 ∨ 65536 < n → exec (i f) s = .next ((s1.longS e (3 * 2 ^ 56)).closed e)) ∧
      (0 < n → n ≤ 65536 → s1.rangeCheck e.key (lowestLane e.act) va n = .ok → exec (i f) s = .next
        ((let ps := s1.rangePlaces e.key va n
          let u := (List.range n).foldl (fun v k => v.tlbFill (v.seat e.key).1 (v.seat e.key).2 (rangeAddr va k)) s1
          let r := u.startFill e.key (u.destKeys e 1 f.fd 0)
          r.2.startPlacement (some e.key)
            { act := act, sel := sel f, fill := some r.1, ctx := (r.2.waveAt e.key).ctx
              frames := ps.map (fun q => if q.remote.isSome then none else some (q.pa / 65536))
              cmps := if act = .recode then ps.map (fun q => bitsOf q.pte.toNat 10 9) else [] }).closed e))
  acts (fun _ => placeSpec 3 true) Instr.pin true .pin (fun f => f.q % 4) ∧
  acts (fun _ => placeSpec 0 true) Instr.unpin true .unpin (fun _ => 0) ∧
  acts (fun _ => placeSpec 3 true) Instr.hint true .hint (fun f => f.q % 4) ∧
  acts (fun f => { placeSpec 3 false with reserved := f.q % 4 == 3 }) Instr.pgqry false .query (fun f => f.q % 4) ∧
  acts (fun _ => placeSpec 0 true) Instr.recode true .recode (fun _ => 0) ∧
  (∀ f s e s1, Issues (placeSpec 0 true) f s e → s.Opens e s1 →
    let va := s.uvalue e 11 f.fa
    let n := s.uvalue e 10 f.fb
    (n = 0 ∨ 65536 < n → exec (.pgown f) s = .next ((s1.longS e (3 * 2 ^ 56)).closed e)) ∧
    (0 < n → n ≤ 65536 → s1.rangeCheck e.key (lowestLane e.act) va n = .ok →
      exec (.pgown f) s = .next (((s1.startOwn e f.fd va n).closed e).reopen e) ∧
      ((∀ q ∈ s1.rangePlaces e.key va n, q.remote = none ∧
          ∃ p, Cells.find s1.place (q.pa / 65536) = some p ∧ p.mig = .idle ∧ (p.shr = false ∨ p.owned = true)) →
        (∀ x ∈ s1.ops, ∀ k, x.2.kind ≠ .placement k) → ∃ t, exec (.pgown f) s = .next t ∧ t.AnswersS s e n))) ∧
  (∀ (s : State) (wave : Option Nat) (j : PlaceJob) (f n : Nat) (p : Placement) (y : Fill), j.frames = [some f] → j.index = 0 →
    j.fill = some n → Cells.find s.fills n = some y → Cells.find s.place f = some p → p.mig = .idle → p.handover = false →
    (∀ x ∈ s.ops, ∀ k, x.2.kind = .placement k → k.frames.head? ≠ some (some f)) →
    let t := s.startPlacement wave j
    let ends (q : Placement) (v : Nat) : Prop := Cells.find t.place f = some q ∧ Cells.find t.ops s.nextId = none ∧
      (∀ g, g ≠ f → Cells.find t.place g = Cells.find s.place g) ∧ t.mem = s.mem ∧
      ∃ z, Cells.find t.fills n = some z ∧ z.ss = y.ss ++ y.sKeys.map (fun k => (k, BitVec.ofNat 64 v))
    (j.act = .unpin → ends { p with pin := false } 1) ∧
    (j.act = .hint → ends { p with aff := j.sel } 1) ∧
    (j.act = .pin → ¬ (p.shr = true ∧ j.sel ≠ 0 ∧ j.sel ≠ 3) → ¬ (p.shut = true ∧ j.sel = 3) → j.sel = 0 ∨ p.tier = j.sel →
      ends { p with pin := true } 1) ∧
    (j.act = .pin → p.shr = true → j.sel ≠ 0 → j.sel ≠ 3 → ends p (4 * 2 ^ 56)) ∧
    (j.act = .recode → p.fmt = j.cmps.headD 0 → ends p 1) ∧
    (j.act = .recode → p.fmt ≠ j.cmps.headD 0 → p.tier ≠ 1 → ends { p with fmt := j.cmps.headD 0 } 1) ∧
    (j.act = .query → (j.sel = 1 → s.mayCount j.ctx p = true) → ends p (s.queryFrame p j.sel)) ∧
    (j.act = .query → j.sel = 1 → s.mayCount j.ctx p = false → ends p (4 * 2 ^ 56)) ∧
    (j.act = .own → p.shr = false ∨ p.owned = true → ends p 1) ∧
    (j.act = .own → p.shr = true → p.owned = false → p.timedOut = false → Cells.find t.place f = some { p with handover := true } ∧
      Cells.find t.fills n = some y ∧ ∃ o, Cells.find t.ops s.nextId = some o ∧ o.stuck = true))

/-- MAP, UNMAP, MOVE and TAKE (R292), the migration engine (R297, R298), ownership (R301, R302) and the tick (R294, R295),
where nothing holds the frame up: MAP backs an unmapped frame with the lowest free device frame and UNMAP takes it away; a
migration recalls a line that a cache owns, copies line by line, commits to the new frame, retires the old, or frees the new
when aborted; ownership passes to the first that has asked at a release, the others being sent on, and comes at the end of a
hand-over. The corners of migrations and of ownership are the model's reading (log entries 44 to 46). -/
def Obligations.PlacementEvents : Prop :=
  let alone (s : State) (f : Nat) : Prop := ∀ x ∈ s.ops, ∀ k, x.2.kind = .placement k → k.frames.head? ≠ some (some f)
  let counted (t : State) (f : Nat) (p : Placement) : Prop :=
    ∃ q, Cells.find t.place f = some q ∧ q = { p with rc := q.rc, wc := q.wc }
  (∀ (s : State) (f c tier d any : Nat) (x : Context), alone s f → Cells.find s.ctxs c = some x → x.st = .running → c < 256 →
    0 < tier → tier ≤ 3 → Cells.find s.place f = none → s.overQuota c tier = false → s.freeFrame c tier = some d →
    s.place.length < 2 ^ 31 → ∃ t : State, exec (.map f c tier false any) s = .next t ∧
      Cells.find t.place f = some { ctx := c, tier := tier, dframe := d, ownedSince := s.timeNs } ∧
      Cells.get 0 t.alloc (allocKey tier d) = x.guest + 1 ∧ t.plcStatus = 0 ∧ t.plcFrame = d ∧ t.mem = s.mem ∧
      ∀ g, g ≠ f → Cells.find t.place g = Cells.find s.place g) ∧
  (∀ (s : State) (f : Nat) (p : Placement), alone s f → Cells.find s.place f = some p → p.mig = .idle → p.shr = false →
    p.shut = false → p.handover = false → s.locked p.ctx = false → ∃ t : State, exec (.unmap f) s = .next t ∧ Cells.find t.place f = none ∧
      Cells.find t.alloc (allocKey p.tier p.dframe) = none ∧ t.plcStatus = 0 ∧
      ∀ g, g ≠ f → Cells.find t.place g = Cells.find s.place g) ∧
  (∀ (s : State) (f tier d : Nat) (p : Placement), alone s f → Cells.find s.place f = some p → p.mig = .idle →
    p.handover = false → p.shr = false → p.shut = false → 0 < tier → tier ≤ 3 →
    (p.tier = tier → ∃ t : State, exec (.move f tier) s = .next t ∧ t.place = s.place ∧ t.plcStatus = 0) ∧
    (p.tier ≠ tier → s.freeFrame p.ctx tier = some d → s.overQuota p.ctx tier = false → s.pairFull p.tier tier = false →
      (∀ x ∈ s.ops, ∀ k, x.2.kind = .placement k → k.pair ≠ some (p.tier, tier)) →
      ∃ t : State, exec (.move f tier) s = .next t ∧ .migrationLineCopy f ∈ t.agenda ∧ Cells.find t.place f =
        some { p with mig := .copying, otherTier := tier, otherFrame := d, otherFmt := p.fmt, copied := 0 })) ∧
  (∀ (s : State) (f : Nat) (p : Placement), alone s f → Cells.find s.place f = some p → p.mig = .idle → p.shr = true →
    ∃ t : State, exec (.take f) s = .next t ∧ (∃ q, Cells.find t.place f = some q ∧ q.owned = true ∧ q.handover = false) ∧
      (Cells.get {} t.ownTable p.dframe).owner = s.node ∧ t.plcStatus = 0) ∧
  (∀ (s : State) (f : Nat) (p : Placement), Cells.find s.place f = some p → p.mig = .copying →
    s.lineAsked (f * 512 + p.copied) = false → (Cells.get {} s.dir (f * 512 + p.copied)).owner = none → ∃ t : State,
    exec (.migrationLineCopy f) s = .next t ∧
    (∀ i, i < 128 → Cells.get Memory.default t.mem (deviceLine p.otherTier p.otherFrame p.copied * 128 + i) =
      Cells.get Memory.default s.mem (deviceLine p.tier p.dframe p.copied * 128 + i)) ∧
    counted t f { p with copied := p.copied + 1, mig := if p.copied + 1 = 512 then .draining else .copying } ∧
    (if p.copied + 1 = 512 then .migrationCommit f else .migrationLineCopy f) ∈ t.agenda) ∧
  (∀ (s : State) (f : Nat) (p : Placement) (o : Nat), Cells.find s.place f = some p → p.mig = .copying →
    s.lineAsked (f * 512 + p.copied) = false → (Cells.get {} s.dir (f * 512 + p.copied)).owner = some o → ∃ t : State,
    exec (.migrationLineCopy f) s = .next t ∧ .noncachingRequest ⟨(f * 512 + p.copied) * 128, 0, none⟩ ∈ t.agenda ∧
    .migrationLineCopy f ∈ t.agenda ∧ t.place = s.place ∧ t.mem = s.mem) ∧
  (∀ (s : State) (f : Nat) (p : Placement), Cells.find s.place f = some p → p.mig = .draining → ∃ t : State,
    exec (.migrationCommit f) s = .next t ∧ counted t f
      { p with mig := .committed, tier := p.otherTier, dframe := p.otherFrame, fmt := p.otherFmt, otherTier := p.tier,
                    otherFrame := p.dframe, otherFmt := p.fmt, copied := 0 } ∧
    .migrationRetire f ∈ t.agenda ∧ t.mem = s.mem ∧ t.migDone = (s.migDone + 1) % 2 ^ 32) ∧
  (∀ (s : State) (f : Nat) (p : Placement), Cells.find s.place f = some p → p.mig = .committed → ∃ t : State,
    exec (.migrationRetire f) s = .next t ∧ t.mem = s.mem ∧
    Cells.find t.place f = some { p with mig := .idle, otherTier := 0, otherFrame := 0, otherFmt := 0, copied := 0 } ∧
    Cells.find t.alloc (allocKey p.otherTier p.otherFrame) = none) ∧
  (∀ (s : State) (f : Nat) (p : Placement), Cells.find s.place f = some p → p.mig = .aborted →
    ∃ t : State, exec (.migrationAbort f) s = .next t ∧ Cells.find t.alloc (allocKey p.otherTier p.otherFrame) = none ∧
      ∃ q, Cells.find t.place f = some q ∧ q.mig = .idle ∧ q.tier = p.tier ∧ q.dframe = p.dframe ∧ q.otherTier = 0 ∧
        q.otherFrame = 0) ∧
  (∀ (s : State) (f node : Nat) (p : Placement) (rest : List Nat), Cells.find s.place f = some p → s.mayRelease f p = true →
    p.recalls = node :: rest → (∀ x ∈ s.dir, x.1 / 512 ≠ f) → ∃ t : State, exec (.ownershipRelease f) s = .next t ∧
      Cells.find t.place f = some { p with owned := false, recalls := [] } ∧
      Cells.get {} t.ownTable p.dframe = { owner := node } ∧ .ownership p.dframe node ∈ t.out ∧ t.mem = s.mem ∧
      ∀ m ∈ rest, m ≠ node → node ≠ s.node → (s.nodeAt node).st = .active → .recallOnward node p.dframe m ∈ t.out) ∧
  (∀ (s : State) (f : Nat) (p : Placement), Cells.find s.place f = some p → p.shr = true → p.owned = false →
    p.handover = true → ∃ t : State, exec (.handoverComplete f) s = .next t ∧ Cells.find t.place f =
        some { p with owned := true, handover := false, timedOut := false, ownedSince := s.timeNs } ∧
      Cells.get {} t.ownTable p.dframe = { owner := s.node }) ∧
  (∀ (s : State) (d node : Nat),
    (∀ f p, s.sharedEntry d = some (f, p) → p.owned = true → exec (.recall d node) s =
      .next { s.modPlace f (fun x => { x with recalls := x.recalls ++ [node] }) with
        ownTable := Cells.set {} s.ownTable d { Cells.get {} s.ownTable d with handover := true } }) ∧
    ((∀ f p, s.sharedEntry d = some (f, p) → p.owned = false) → (s.sharedEntry d).isSome →
      (Cells.get {} s.ownTable d).owner ≠ s.node → (Cells.get {} s.ownTable d).owner ≠ node →
      exec (.recall d node) s = .next (s.sendTo (Cells.get {} s.ownTable d).owner
        (.recallOnward (Cells.get {} s.ownTable d).owner d node))) ∧
    (s.sharedEntry d = none → (Cells.get {} s.ownTable d).owner = s.node → ∃ t : State,
      exec (.recall d node) s = .next t ∧ Cells.get {} t.ownTable d = { owner := node } ∧
      t.out = s.out ++ [.ownership d node])) ∧
  (∀ (s : State) (f : Nat) (p : Placement), Cells.find s.place f = some p → p.handover = true → ∃ t : State,
    exec (.ownTimeout f) s = .next t ∧ Cells.find t.place f = some { p with timedOut := true } ∧ t.mem = s.mem) ∧
  (∀ (s : State), bitOf s.migCtl.toNat 0 = false → bitOf s.migCtl.toNat 1 = true → exec .placementTick s =
    .next { s with place := s.place.map (fun x => (x.1, { x.2 with rc := x.2.rc / 2, wc := x.2.wc / 2 })) })

/-! ### Coherence (14_coherence.md) -/

/-- The protocol where no other request is queued. Homes (R317, R318): a GETS of a line that no agent owns enters the
requester as a sharer and answers DATS with the line, of an owned one recalls the owner; a GETX answers DATX once no other
agent holds the line, after INVs or a recall where one does, and a UPG of a sharer GRNT; answers end the transaction they
complete, the data of a recall for a GETX going on as DATX; PUTS, PUTX and WBK are acknowledged. Caches (R312), where no
access waits for a way: DATS gives S, DATX and GRNT give M, an INV is acknowledged and drops S, a recall takes a line in M
to S or I with its data, and ACKP ends a write-back, or an eviction. That a victim and the set of a line are as chosen is
the model's (log entry 6). -/
def Obligations.CoherenceMessages : Prop :=
  (∀ (s : State) (a line : Nat), s.homeQ = [] → (s.dirAt line).busy = none →
    let d := s.dirAt line
    let others := d.holders.filter (fun x => x != a)
    (s.dirFull line (.gets a) = false →
      (d.owner = none → ∃ t : State, exec (.gets a line) s = .next t ∧ t.dirAt line = (d.add a).1 ∧
        .dats a ⟨line, (s.lineData line)⟩ ∈ t.agenda ∧ t.overflow = (s.overflow + b2n (d.add a).2) % 2 ^ 32 ∧ t.mem = s.mem) ∧
      (∀ o, d.owner = some o → ∃ t : State, exec (.gets a line) s = .next t ∧
        t.dirAt line = { d with busy := some { req := .gets a, recalling := some o } } ∧ .rcls o line ∈ t.agenda)) ∧
    (s.dirFull line (.getx a) = false →
      (d.owner = none → others = [] → ∃ t : State, exec (.getx a line) s = .next t ∧ t.dirAt line = { owner := some a } ∧
        .datx a ⟨line, (s.lineData line)⟩ ∈ t.agenda) ∧
      (d.owner = none → others ≠ [] → ∃ t : State, exec (.getx a line) s = .next t ∧
        t.dirAt line = { d with busy := some { req := .getx a, acks := others } } ∧ ∀ x ∈ others, .inv x line ∈ t.agenda) ∧
      (∀ o, d.owner = some o → ∃ t : State, exec (.getx a line) s = .next t ∧
        t.dirAt line = { d with busy := some { req := .getx a, recalling := some o } } ∧ .rclx o line ∈ t.agenda)) ∧
    (s.dirFull line (.upg a) = false → d.owner = none → d.coarse = false → a ∈ d.sharers →
      (others = [] → ∃ t : State, exec (.upg a line) s = .next t ∧ t.dirAt line = { owner := some a } ∧
        .grnt a line ∈ t.agenda) ∧
      (others ≠ [] → ∃ t : State, exec (.upg a line) s = .next t ∧
        t.dirAt line = { d with busy := some { req := .upg a, acks := others } } ∧ ∀ x ∈ others, .inv x line ∈ t.agenda)) ∧
    (d.owner = none → d.coarse = false → ∃ t : State, exec (.puts a line) s = .next t ∧
      t.dirAt line = { d with sharers := d.sharers.erase a } ∧ .ackp a line ∈ t.agenda ∧ t.cross = s.cross % 2 ^ 32) ∧
    (∀ dt, d.owner = some a → ∃ t : State, exec (.putx a ⟨line, dt⟩) s = .next t ∧ t.dirAt line = {} ∧ .ackp a line ∈ t.agenda ∧
      t.mem = s.mem) ∧
    (∀ dt, d.owner = some a → ∃ t : State, exec (.wbk a ⟨line, dt⟩) s = .next t ∧ t.dirAt line = d ∧ .ackp a line ∈ t.agenda ∧
      t.mem = s.mem) ∧
    (∀ q, q.addr / 128 = line → q.bytes = none → d.owner = none → s.pendingShadow q.addr = none → ∃ t : State,
      exec (.noncachingRequest q) s = .next t ∧ t.dirAt line = d ∧ t.mem = s.mem) ∧
    (∀ q b bs u, q.addr / 128 = line → q.bytes = some (b :: bs) → d.owner = none → d.holders = [] →
      (s.setDir line {}).tryWrite q.addr (b :: bs) = some u → ∃ t : State,
      exec (.noncachingRequest q) s = .next t ∧ t.dirAt line = {} ∧ t.mem = u.mem)) ∧
  (∀ (s : State) (a b line : Nat) (x : Transaction) (dt : LineData), s.homeQ = [] → (s.dirAt line).busy = some x →
    let d := s.dirAt line
    (x.recalling = none → x.acks = [a] → x.req = .getx b → x.data = none → ∃ t : State, exec (.iack a line) s = .next t ∧
      t.dirAt line = { owner := some b } ∧ .datx b ⟨line, (s.lineData line)⟩ ∈ t.agenda) ∧
    (x.acks.erase a ≠ [] → ∃ t : State, exec (.iack a line) s = .next t ∧
      t.dirAt line = { d with busy := some { x with acks := x.acks.erase a } } ∧ t.agenda = s.agenda) ∧
    (x.recalling = some a → x.acks = [] → d.owner = some a → x.req = .gets b →
      ∀ i ∈ [Instr.rdat a ⟨line, dt⟩, Instr.rack a line], ∃ t : State, exec i s = .next t ∧ (∃ z, .dats b ⟨line, z⟩ ∈ t.agenda) ∧
        t.dirAt line = (({ d with busy := none, owner := none, coarse := false, sharers := [a] } : DirEntry).add b).1) ∧
    (x.recalling = some a → x.acks = [] → x.req = .getx b → x.crossed = false → ∃ t : State,
      exec (.rdat a ⟨line, dt⟩) s = .next t ∧ .datx b ⟨line, dt⟩ ∈ t.agenda ∧ t.dirAt line = { owner := some b } ∧ t.devOld = s.devOld) ∧
    (x.recalling = some a → x.acks = [] → x.req = .getx b → ∃ t : State,
      exec (.rack a line) s = .next t ∧ (∃ z, .datx b ⟨line, z⟩ ∈ t.agenda) ∧ t.dirAt line = { owner := some b })) ∧
  (∀ (s : State) (a line : Nat) (c : CacheLine) (dt : LineData), s.cacheAt a line = some c → (∀ x ∈ s.cacheWait, x.1 ≠ a) →
    (c.st = .isWait → c.wantStore = false → ∃ t : State, exec (.dats a ⟨line, dt⟩) s = .next t ∧
      t.cacheAt a line = some { c with st := .shared, wantLoad := false }) ∧
    (c.st = .isWait → c.wantStore = true → ∃ t : State, exec (.dats a ⟨line, dt⟩) s = .next t ∧
      t.cacheAt a line = some { c with st := .smWait, wantLoad := false, wantStore := false } ∧ .upg a line ∈ t.agenda) ∧
    (c.st = .smWait ∨ c.st = .imWait → ∃ t : State, exec (.datx a ⟨line, dt⟩) s = .next t ∧
      t.cacheAt a line = some { st := .modified, dirty := true, stream := c.stream }) ∧
    (c.st = .smWait → ∃ t : State, exec (.grnt a line) s = .next t ∧
      t.cacheAt a line = some { st := .modified, dirty := true, stream := c.stream }) ∧
    (c.st = .shared → ∃ t : State, exec (.inv a line) s = .next t ∧ t.cacheAt a line = none ∧ .iack a line ∈ t.agenda) ∧
    (c.st = .smWait → ∃ t : State, exec (.inv a line) s = .next t ∧ t.cacheAt a line = some { c with st := .imWait } ∧
      .iack a line ∈ t.agenda) ∧
    (c.st = .modified → ∃ t : State, exec (.rcls a line) s = .next t ∧ .rdat a ⟨line, (s.lineData line)⟩ ∈ t.agenda ∧
      t.cacheAt a line = some { st := .shared, stream := c.stream }) ∧
    (c.st = .modified → ∃ t : State, exec (.rclx a line) s = .next t ∧ .rdat a ⟨line, (s.lineData line)⟩ ∈ t.agenda ∧
      t.cacheAt a line = none) ∧
    (c.st = .evict → ∀ i ∈ [Instr.rcls a line, Instr.rclx a line], exec i s =
      .next (s.post (if c.owned then .rdat a ⟨line, (s.lineData line)⟩ else .rack a line))) ∧
    (c.st ≠ .modified → c.st ≠ .evict → ∀ i ∈ [Instr.rcls a line, Instr.rclx a line], exec i s = .next (s.post (.rack a line))) ∧
    (0 < Cells.get 0 s.writebacks (cacheKey a line) → exec (.ackp a line) s = .next { s with
      writebacks := Cells.set 0 s.writebacks (cacheKey a line) (Cells.get 0 s.writebacks (cacheKey a line) - 1) }) ∧
    (Cells.get 0 s.writebacks (cacheKey a line) = 0 → c.st = .evict → c.wantStore = false → c.wantLoad = false →
      ∃ t : State, exec (.ackp a line) s = .next t ∧ t.cacheAt a line = none) ∧
    (∀ u, Cells.get 0 s.writebacks (cacheKey a line) = 0 → c.st = .evict → c.wantStore = true →
      (s.delCache a line).makeRoom a line = some u → ∃ t : State, exec (.ackp a line) s = .next t ∧
      t.cacheAt a line = some { st := .imWait } ∧ .getx a line ∈ t.agenda)) ∧
  (∀ (s : State) (v : DWord), ∃ t : State, exec (.cohDiraWrite v) s = .next t ∧ t.cohDira = v &&& 0x000FFFFFFFFFFF80 ∧
    t.cohDire = (if s.backed t.cohDira.toNat then BitVec.ofNat 64 (s.dirAt (t.cohDira.toNat / 128)).bits else 0) ∧
    { t with cohDira := s.cohDira, cohDire := s.cohDire } = s)

/-! ### System instructions (08_context.md) -/

/-- sysr, sysw and SYSREG_WRITE (R208, R211): an unassigned number, a missing level, or a register that may not be accessed
so raises ILLEGAL_OP, and a write that sets a reserved bit the same with code 2; else a read gives FD the register's value,
at long latency, and a write performs it, registers 0, 1 and 0x0E behind the commit of the held lines. WAVE_RESUME is read
and written lane by lane. The order of the checks and the writes that no rule judges are the model's reading (log entries 22
and 23). -/
def Obligations.SystemRegisters : Prop :=
  let rd (f : FWord) : OpSpec := sysSpec f (.dest { ty := f.tcode })
  let wr (f : FWord) : OpSpec := sysSpec f (.data { ty := f.tcode, fconst := false, special := false })
  (∀ (s : State) (e : Env) (write : Bool) (r : SysReg),
    (sysReg (s.sysNum e) = none → s.sysAccess e write = none) ∧
    (sysReg (s.sysNum e) = some r → (s.ctxAt (s.waveAt e.key).ctx).sys = false →
      (if write then r.write else r.read) = some .system → s.sysAccess e write = none) ∧
    (sysReg (s.sysNum e) = some r → (s.waveAt e.key).trapMode = false →
      (if write then r.write else r.read) = some .trap → s.sysAccess e write = none) ∧
    (sysReg (s.sysNum e) = some r → (if write then r.write else r.read) = none → s.sysAccess e write = none)) ∧
  (∀ f s e, Issues (rd f) f s e → s.sysAccess e false = none → Raises (exec (.sysr f) s) s e { code := 1 }) ∧
  (∀ f s e, Issues (wr f) f s e → s.sysAccess e true = none → Raises (exec (.sysw f) s) s e { code := 1 }) ∧
  (∀ f s e r num c, Issues (rd f) f s e → s.sysAccess e false = some (r, num, c) →
    let u : State := if num ≤ 1 ∨ num = 0x0E then s.acquire (s.waveAt e.key).core 4 else s
    let x (l : Nat) : Nat := if num = 0x1008 then (Cells.get 0 (s.waveAt e.key).resumes l).toNat else (u.sysRead e.key c num).1
    ∃ t : State, exec (.sysr f) s = .next t ∧ t.Lands (fun v => ∀ l ∈ e.resultLanes, v.ResultIs e f.tcode l (x l)) ∧
      t.MovesOn s e ∧ (t.waveAt e.key).regs = (s.waveAt e.key).regs ∧ t.mem = s.mem ∧
      ∀ j, j ≠ e.key → Cells.find t.waves j = Cells.find s.waves j) ∧
  (∀ f s e r num c, Issues (wr f) f s e → s.sysAccess e true = some (r, num, c) → num ≠ 0x1008 →
    let old := (s.sysRead e.key c num).1
    let v := s.uvalue e f.tcode f.fd
    let new := if f.tcode = 11 then v else old / 2 ^ 32 * 2 ^ 32 + v % 2 ^ 32
    (Nat.land new r.reserved ≠ 0 → Raises (exec (.sysw f) s) s e { code := 2 }) ∧
    (Nat.land new r.reserved = 0 → s.sysPutWaits c num (BitVec.ofNat 64 new) = .ok → num ≠ 0x5012 →
      (1 < num → num ≠ 0x0E → exec (.sysw f) s =
        .next ((s.advance e).sysPut (s.ctxOf e).guest c num (BitVec.ofNat 64 new))) ∧
      (∀ s1 : State, num ≤ 1 ∨ num = 0x0E → s.heldUnowned e.key = [] → s.commit e.key = (s1, none) → exec (.sysw f) s =
        .next ((s1.advance e).sysPut (s.ctxOf e).guest c num (BitVec.ofNat 64 new))))) ∧
  (∀ f s e r c, Issues (wr f) f s e → s.sysAccess e true = some (r, 0x1008, c) → f.tcode = 11 → ∃ t : State,
    exec (.sysw f) s = .next t ∧ t.OnlyWave s e.key ∧ t.MovesOn s e ∧ (t.waveAt e.key).regs = (s.waveAt e.key).regs ∧
    ∀ l, Cells.get 0 (t.waveAt e.key).resumes l =
      if l ∈ laneList e.act then BitVec.ofNat 64 (s.value e 11 f.fd l) else Cells.get 0 (s.waveAt e.key).resumes l) ∧
  (∀ (s : State) (c num : Nat) (v : DWord) (r : SysReg), sysReg num = some r → r.write.isSome = true → r.own = false →
    (Nat.land v.toNat r.reserved = 0 → exec (.sysregWrite c num v) s = .next (s.sysPut (s.ctxAt c).guest c num v)) ∧
    (Nat.land v.toNat r.reserved ≠ 0 → exec (.sysregWrite c num v) s = .next s)) ∧
  (∀ (s : State) (k g c : Nat) (v : DWord), (s.ctxAt c).st = .bound →
    ((s.sysPut g c 0x4100 v).sysRead k c 0x4100).1 = v.toNat % 2 ^ 32 ∧
    (v.toNat % 2 ^ 21 < 2 → v.toNat < 2 ^ 52 → ((s.sysPut g c 0x8002 v).sysRead k c 0x8002).1 = v.toNat))

/-- trap, tret and halt (R216, R219): trap raises SW_TRAP with its qualifier bits, and in trap mode is fatal with the record
the wave holds; tret takes every live lane to its resume address, which becomes its entry, and raises ILLEGAL_OP in normal
mode and MISALIGN where a resume address is no multiple of 8 (03_encoding.md R47); halt.stop halts the ACTIVE and PENDING
waves of another context, at once or in their next turn, and its wave issues nothing until they stand; halt.go lets the
HALTED ones go on, one with a pending fault being SUSPENDED with its record and one with a pending trap taking it (R220); a
target above 255, or the context itself for halt.stop, raises ILLEGAL_OP. Whether a halt meets what a turn brings is a free
value of the model (log entries 36 and 38). -/
def Obligations.TrapsAndHalts : Prop :=
  (∀ f s e, Issues trapSpec f s e → (s.waveAt e.key).trapMode = false →
    Raises (exec (.trap f) s) s e { code := 0x0F, detail := f.q % 256 }) ∧
  (∀ f s e, Issues trapSpec f s e → (s.waveAt e.key).trapMode = true → exec (.trap f) s =
    .next (({ s with last := .trapped } : State).fatal e.key (s.waveAt e.key).trapRec
      (bitsOf ((s.waveAt e.key).trapRec.headD 0).toNat 39 32))) ∧
  (∀ f s e, Issues tretSpec f s e → (s.waveAt e.key).trapMode = false → Raises (exec (.tret f) s) s e { code := 1 }) ∧
  (∀ f s e l, Issues tretSpec f s e → (s.waveAt e.key).trapMode = true →
    (laneList (s.waveAt e.key).m0).find? (fun x => decide ((Cells.get 0 (s.waveAt e.key).resumes x).toNat % 8 ≠ 0)) = some l →
    Raises (exec (.tret f) s) s e { code := 4, lane := l, addr := (Cells.get 0 (s.waveAt e.key).resumes l).toNat }) ∧
  (∀ f s e, Issues tretSpec f s e → (s.waveAt e.key).trapMode = true →
    (∀ l ∈ laneList (s.waveAt e.key).m0, (Cells.get 0 (s.waveAt e.key).resumes l).toNat % 8 = 0) → ∃ t : State, exec (.tret f) s = .next t ∧
    t.OnlyWave s e.key ∧ (t.waveAt e.key).trapMode = false ∧ (t.waveAt e.key).regs = (s.waveAt e.key).regs ∧
    (t.waveAt e.key).waits = [] ∧ (t.waveAt e.key).regionCount = (s.waveAt e.key).regionCount ∧
    ∀ l ∈ laneList (s.waveAt e.key).m0,
      (t.waveAt e.key).pcOf l = Cells.get 0 (s.waveAt e.key).resumes l ∧
      Cells.get 0 (t.waveAt e.key).entries l = Cells.get 0 (s.waveAt e.key).resumes l) ∧
  (∀ f s e, Issues haltSpec f s e →
    let c := s.uvalue e 10 f.fa
    let own := (s.waveAt e.key).ctx
    (255 < c ∨ c = own → Raises (exec (.haltStop f) s) s e { code := 1 }) ∧
    (255 < c → Raises (exec (.haltGo f) s) s e { code := 1 }) ∧
    (c ≤ 255 → c ≠ own → exec (.haltStop f) s =
      .next (((s.advance e).haltStop c).modWave e.key (fun w => { w with hold := some (.halts c) }))) ∧
    (c ≤ 255 → exec (.haltGo f) s = .next ((s.advance e).haltGo c))) ∧
  (∀ (s : State) (c : Nat), (s.ctxAt c).st = .running → Cells.risingFrom none s.waves = true →
    ((s.haltStop c).ctxAt c = { s.ctxAt c with halt := true } ∧ (s.haltStop c).mem = s.mem ∧
      ∀ k w, Cells.find s.waves k = some w → Cells.find (s.haltStop c).waves k = some
        (if w.ctx = c ∧ (w.life = .active ∨ w.life = .pending) then
          (if w.life = .active ∧ w.ready ≠ 0 ∧ Config.haltMeets s.tick k = true then { w with halting := true }
           else { w with life := .halted }) else w)) ∧
    (((s.haltGo c).ctxAt c).halt = false ∧
      ((∀ x ∈ s.waves, x.2.ctx = c → x.2.pendingTrap = none) →
        ∀ k w, Cells.find s.waves k = some w → w.ctx = c → w.life = .halted →
        ((s.haltGo c).waveAt k).regs = w.regs ∧ ((s.haltGo c).waveAt k).pcs = w.pcs ∧ ((s.haltGo c).waveAt k).life =
          if w.pendingRec.isSome then .suspended else if w.latency then .active else .pending))) ∧
  (∀ (s : State) (k : Nat) (w : Wave), Cells.find s.waves k = some w → w.halting = true →
    ((s.meetHalt k).waveAt k) = { w with life := .halted, halting := false }) ∧
  (∀ (s : State) (k : Nat) (w : Wave) (r : Record) (h : HeldTrap), Cells.find s.waves k = some w → w.pendingRec = some r →
    w.pendingTrap = some h → w.trapMode = false → (s.ctxAt w.ctx).trapPc.toNat / 8 ≠ 0 → w.held = [] →
    (s.ctxAt w.ctx).st ≠ .preempting →
    let v := (s.releaseHalted k).waveAt k
    v.trapMode = true ∧ v.trapRec = r ∧ v.regs = w.regs ∧ v.pendingRec = none ∧ v.pendingTrap = none ∧
    ∀ l ∈ laneList w.m0, v.pcOf l = BitVec.ofNat 64 ((s.ctxAt w.ctx).trapPc.toNat / 8 * 8))

/-- Taking a trap (R213 to R215), in normal mode with a handler and with no line held: the wave's live lanes go to the
handler in trap mode, each with the resume address of the group, of its wait, or of its own, and its registers as they were;
the record names the trap. In trap mode, or with no handler, it is fatal (R202): the context is FAULTED with the code and
its waves stop. A restartable fault suspends the wave at its entries with its record; an unmapped address of context 0
without a handler is fatal (22_platform.md R453). On a HALTED wave either stays pending with its record (R220). The fields
that the spec leaves unsaid and the queueing of a fatal trap are the model's reading (log entries 16 and 57). -/
def Obligations.TakingTraps : Prop :=
  (∀ (s : State) (e : Env) (x : Trap) (w : Wave), x.precise = true → x.restart = false → Cells.find s.waves e.key = some w →
    w.life ≠ .halted → w.trapMode = false → (s.ctxAt w.ctx).trapPc.toNat / 8 ≠ 0 → w.held = [] →
    let t := s.raise e x
    let v := t.waveAt e.key
    t.OnlyWave s e.key ∧ v.trapMode = true ∧ v.regs = w.regs ∧ v.waits = [] ∧ v.entries = w.entries ∧
    v.regionCount = w.regionCount + 1 ∧ v.kept = w.kept ++ w.waits.filterMap LaneWait.kept ∧ v.trapRec = s.recordOf e.key e.pc s.issueWords.1 s.issueWords.2 x ∧
    (∀ l ∈ laneList w.m0, v.pcOf l = BitVec.ofNat 64 ((s.ctxAt w.ctx).trapPc.toNat / 8 * 8)) ∧
    ∀ l ∈ laneList w.m0,
      (l ∈ laneList e.lanes → Cells.get 0 v.resumes l =
        if x.code = 0x0E ∨ x.code = 0x0F then e.pc + BitVec.ofNat 64 e.size else e.pc) ∧
      (∀ y, l ∉ laneList e.lanes → w.waits.find? (fun z => z.lanes.getLsbD l) = some y → Cells.get 0 v.resumes l = y.pc) ∧
      (l ∉ laneList e.lanes → (∀ y ∈ w.waits, y.lanes.getLsbD l = false) → Cells.get 0 v.resumes l = w.pcOf l)) ∧
  (∀ (s : State) (e : Env) (x : Trap) (w : Wave), x.precise = true → x.restart = false → Cells.find s.waves e.key = some w →
    w.life ≠ .halted → w.trapMode = true ∨ (s.ctxAt w.ctx).trapPc.toNat / 8 = 0 → w.block = none →
    let t := s.raise e x
    (t.ctxAt w.ctx).st = .faulted ∧ (t.ctxAt w.ctx).lastcode = x.code ∧
    ∀ k u, Cells.find s.waves k = some u → u.ctx = w.ctx → u.life = .active ∨ u.life = .pending →
      (t.waveAt k).life = (if u.halting then .halted else .stopped) ∧ (t.waveAt k).regs = u.regs ∧
      (u.hold = none → (t.waveAt k).pcs = u.pcs)) ∧
  (∀ (s : State) (e : Env) (x : Trap) (w : Wave), x.precise = false → x.restart = false → Cells.find s.waves e.key = some w →
    w.trapMode = false → w.latency = false → w.life ≠ .halted →
    s.bootFault e.key (s.recordOf e.key e.pc s.issueWords.1 s.issueWords.2 x) = false → ∃ v : State,
      s.raise e x = v.queueRecord w.ctx (s.recordOf e.key e.pc s.issueWords.1 s.issueWords.2 x) ∧ v.mem = s.mem ∧
      v.ctxs = s.ctxs ∧ (∀ k, k ≠ e.key → Cells.find v.waves k = Cells.find s.waves k) ∧
      (v.waveAt e.key).life = .suspended ∧ (v.waveAt e.key).regs = w.regs ∧ (v.waveAt e.key).held = [] ∧
      (v.waveAt e.key).waits = [] ∧ ∀ l ∈ laneList w.m0, (v.waveAt e.key).pcOf l = Cells.get 0 w.entries l) ∧
  (∀ (s : State) (e : Env) (x : Trap) (w : Wave), x.code = 0x20 ∨ x.code = 0x22 → x.lane < 32 → x.step < 16 → x.restart = false →
    Cells.find s.waves e.key = some w → w.ctx = 0 → (s.ctxAt 0).trapPc.toNat / 8 = 0 → w.block = none →
    ((s.raise e x).ctxAt 0).st = .faulted ∧ ((s.raise e x).ctxAt 0).lastcode = x.code) ∧
  (∀ (s : State) (e : Env) (x : Trap) (w : Wave), x.restart = false → Cells.find s.waves e.key = some w → w.life = .halted →
    (x.precise = true → (s.raise e x).OnlyWave s e.key ∧ ((s.raise e x).waveAt e.key).pendingTrap.isSome = true) ∧
    (s.bootFault e.key (s.recordOf e.key e.pc s.issueWords.1 s.issueWords.2 x) = false →
      ((s.raise e x).waveAt e.key).life = .halted ∧ ((s.raise e x).waveAt e.key).regs = w.regs ∧ (s.raise e x).ctxs = s.ctxs ∧
      ((s.raise e x).waveAt e.key).pendingRec = some (s.recordOf e.key e.pc s.issueWords.1 s.issueWords.2 x))) ∧
  (∀ (s : State) (k : Nat) (pc word : DWord) (ext : Option DWord) (x : Trap), x.code < 256 → x.lane < 32 → x.step < 16 →
    (s.waveAt k).slot < 128 →
    let r := s.recordOf k pc word ext x
    let w0 := (r.getD 0 0).toNat
    bitsOf w0 47 41 = (s.waveAt k).slot ∧ bitsOf w0 39 32 = x.code ∧ bitsOf w0 31 27 = x.lane ∧ bitOf w0 26 = x.stash ∧
    bitOf w0 25 = x.guard ∧ bitOf w0 24 = x.write ∧ bitOf w0 23 = x.unbacked ∧ bitOf w0 22 = (s.waveAt k).trapMode ∧
    bitsOf w0 21 18 = x.step ∧ bitsOf w0 15 0 = x.detail % 65536 ∧ r.getD 1 0 = pc ∧ r.getD 2 0 = BitVec.ofNat 64 x.addr ∧
    r.getD 3 0 = BitVec.ofNat 64 x.aux ∧ r.getD 5 0 = word ∧ r.getD 6 0 = ext.getD 0)

/-! ### Shootdowns (08_context.md R221, 13_page.md R288, R289) -/

/-- tlbinv and the messages of its tree, where no wave holds a line: the translations that the shootdown names are gone and
no other, with the instruction lines of their pages; where nothing that used them is in flight, it completes with its
predicate true without peers, a member without children acknowledges at once, and the last acknowledgement completes it,
with the predicate false where a node has been fenced; what is in flight is awaited first; a child whose time runs out is
fenced and its children are asked. That a commit within a shootdown ignores ownership is the model's reading (log entry 45).
-/
def Obligations.Shootdowns : Prop :=
  let still (s : State) : Prop := (∀ x ∈ s.waves, x.2.held = [] ∧ x.2.signalWait = none) ∧
    ∀ d ∈ s.shootdowns, d.serial ≠ s.nextId
  let quiet (s : State) : Prop := s.ops = [] ∧ s.rounds = [] ∧ s.fabricWaits = [] ∧ (∀ n ∈ s.nodes, n.2.unacked = []) ∧
    ∀ b ∈ s.blocks, ∀ t ∈ b.2.tiles, ∀ l ∈ t.2.lines, l.2 ≠ .filling
  (∀ f s e, Issues (tlbinvSpec f) f s e → exec (.tlbinv f) s = .next (s.shoot e (shootKindOf f)
    (if f.q % 4 = 0 then s.uvalue e 11 f.fa else 0) (if f.q % 4 = 2 then 0 else s.uvalue e 10 f.fb) f.fd.toNat)) ∧
  (∀ (s : State) (e : Env) (kind : ShootKind) (va c pd : Nat) (w : Wave), Cells.find s.waves e.key = some w →
    w.life ≠ .suspended → w.pendingRec = none → still s → quiet s → va < 2 ^ 64 → kind = .all ∨ s.shootPeers c = [] →
    let t := s.shoot e kind va c pd
    let gone (x : TlbEntry) : Bool := (kind == .all || x.ctx == c) && (kind != .page || x.covers x.ctx va)
    let pages := (s.tlb.filter gone).map (fun x => (x.base, x.bits))
    t.tlb = s.tlb.filter (fun x => !gone x) ∧
    t.icache = s.icache.filter (fun x => !((kind == .all || x.ctx == c) && s.pageShot x.ctx kind va pages (128 * x.va))) ∧
    ({ t with waves := s.waves, last := s.last, tlb := s.tlb, icache := s.icache, nextId := s.nextId } : State) = s ∧
    (∀ j, j ≠ e.key → Cells.find t.waves j = Cells.find s.waves j) ∧ (t.waveAt e.key).hold = none ∧ t.MovesOn s e ∧
    (t.waveAt e.key).regs = { w.regs with p := (t.waveAt e.key).regs.p } ∧
    (pd ≠ 0 → ∀ l ∈ laneList (e.act &&& w.m0), (t.waveAt e.key).regs.pGet w.trapMode pd l = true)) ∧
  (∀ (s : State) (r : ShootReq), (s.nodeAt r.parent).st = .active → still s →
    shootChildren r.members.length r.member = [] → ∃ t : State, exec (.shootdownRequest r) s = .next t ∧
      t.tlb = s.tlb.filter (fun x => !((s.ctxAt x.ctx).tag == r.tag && r.tag != 0 &&
        (r.kind != .page || x.covers x.ctx r.va.toNat))) ∧ t.waves = s.waves ∧ t.mem = s.mem ∧ t.ctxs = s.ctxs ∧
      (quiet s → t.out = s.out ++ [.shootdownAck r.parent r.serial r.member 1 []])) ∧
  (∀ (s : State) (serial child count : Nat) (fenced : List Nat) (d : Shootdown),
    s.shootdowns.find? (fun x => x.serial == serial) = some d → child ∈ d.waiting →
    ((∃ m ∈ d.waiting, m ≠ child) ∨ s.flightOver d = false → ∃ t : State,
      exec (.shootdownAck serial child count fenced) s = .next t ∧
      t.shootdowns.find? (fun x => x.serial == serial) = some { d with
        waiting := d.waiting.filter (fun m => m != child), count := d.count + count, fenced := d.fenced ++ fenced } ∧
      t.waves = s.waves ∧ t.out = s.out ∧ t.mem = s.mem) ∧
    ((∀ m ∈ d.waiting, m = child) → s.flightOver d = true → d.wave = none → (s.nodeAt d.parent).st = .active → ∃ t : State,
      exec (.shootdownAck serial child count fenced) s = .next t ∧ t.out = s.out ++
        [.shootdownAck d.parent d.reply d.member (d.count + count + 1) (d.fenced ++ fenced)] ∧ t.waves = s.waves) ∧
    (∀ k w lanes pd, (∀ m ∈ d.waiting, m = child) → s.flightOver d = true → d.wave = some k → Cells.find s.waves k = some w →
      w.hold = some (.tlbinv lanes pd serial) → pd ≠ 0 → d.fenced ++ fenced = [] ∨ s.fabricWaits = [] → ∃ t : State,
      exec (.shootdownAck serial child count fenced) s = .next t ∧ (t.waveAt k).hold = none ∧
      (d.fenced ++ fenced = [] → t.mem = s.mem) ∧
      ∀ l ∈ laneList (lanes &&& w.m0),
        (t.waveAt k).regs.pGet w.trapMode pd l = (d.fenced ++ fenced).isEmpty)) ∧
  (∀ (s : State) (serial child : Nat) (d : Shootdown), s.shootdowns.find? (fun x => x.serial == serial) = some d →
    child ∈ d.waiting → shootChildren d.members.length child ≠ [] → d.members.getD child 0 ≠ s.node →
    (s.nodeAt (d.members.getD child 0)).st = .fenced →
    (∀ m ∈ shootChildren d.members.length child, (s.nodeAt (d.members.getD m 0)).st = .active) → ∃ t : State,
      exec (.shootdownChildTimeout serial child) s = .next t ∧
      t.shootdowns.find? (fun x => x.serial == serial) = some { d with
        waiting := d.waiting.filter (fun m => m != child) ++ shootChildren d.members.length child
        fenced := d.fenced ++ [d.members.getD child 0] } ∧
      t.out = s.out ++ (shootChildren d.members.length child).map (fun m => .shootdown (d.members.getD m 0)
        { serial := d.serial, parent := s.node, tag := d.tag, kind := d.kind, va := d.va, member := m, members := d.members })) ∧
  (∀ (s : State) (n : Nat), (n = s.node ∨ (s.nodeAt n).st = .fenced → exec (.fencedNodeNotice n) s = .next s) ∧
    (n ≠ s.node → (s.nodeAt n).st ≠ .fenced → ∃ t : State, exec (.fencedNodeNotice n) s = .next t ∧
      (t.nodeAt n).st = .fenced ∧ ∀ m, m ≠ n → (t.nodeAt m).st = (s.nodeAt m).st))

/-! ### Signals, puts and gets, collectives (09_queue.md, 20_link.md) -/

/-- sig, waitsig, qpush (R232 to R234) and linkq (20_link.md R441): sig adds to, sets or raises 64-bit words of memory, lane
after lane; waitsig gives sd the word where its condition holds and else holds the wave; qpush writes an entry with the next
number into the ring of a queue that DEV lets the device write, raises its doorbell once the entry is written, and answers 0
where it cannot; linkq answers the state or the sequence numbers of a node link, or status 4. That waitsig holds its wave is
the model's reading (log entry 58). -/
def Obligations.SignalsAndQueuePush : Prop :=
  (∀ f s e s1 d, Issues (sigSpec f) f s e → s.Opens e s1 →
    let ea (l : Nat) : Nat := s.value e 11 f.fa l
    let v (l : Nat) : Nat := s.value e 7 f.fb l
    s1.globalCheck e.key (laneList e.act) ea { need := { read := true, write := true }, len := 8, align := 8
                                               sync := some (bitsOf f.q 4 2), replies := false } = .ok →
    (∀ l ∈ laneList e.act, s1.Plain (s1.place! e.key (ea l) 8) (d l) ∧ (s1.place! e.key (ea l) 8).pa % 8 = 0 ∧
      s1.WalkClear e.key (ea l)) →
    let r := rmwLanes 8 d (fun l old => match bitsOf f.q 8 7 with
      | 0 => (old + v l) % 2 ^ 64
      | 1 => v l
      | _ => Max.max old (v l)) (laneList e.act) (fun a => Cells.get Memory.default s1.mem a)
    ∃ t : State, exec (.sig f) s = .next t ∧ (∀ a, Cells.get Memory.default t.mem a = r.2 a) ∧ t.ctxs = s1.ctxs ∧
      t.MovesOn s1 e ∧ (t.waveAt e.key).regs = (s1.waveAt e.key).regs) ∧
  (∀ f s e s1 d, Issues (waitsigSpec f) f s e → s.Opens e s1 →
    let va := s.uvalue e 11 f.fa
    let q := s1.place! e.key va 8
    let word := s1.peekNat q.pa 8
    let v := s.uvalue e 7 f.fb
    let holds : Prop := match bitsOf f.q 8 7 with
      | 0 => word = v
      | 1 => word ≠ v
      | 2 => v ≤ word
      | _ => word < v
    s1.globalCheck e.key [lowestLane e.act] (fun _ => va)
      { need := { read := true }, len := 8, align := 8, sync := some (bitsOf f.q 4 2) } = .ok →
    q.remote = none → s1.unowned q.pa = false → s1.WalkClear e.key va → srcOf f.fd = .s d → (∀ x ∈ (s1.waveAt e.key).waits, x.wholeWave = false) →
    (holds → ∃ t : State, exec (.waitsig f) s = .next t ∧ t.mem = s1.mem ∧
      (t.waveAt e.key).regs.sGet (s.waveAt e.key).trapMode d = BitVec.ofNat 64 word ∧ (t.waveAt e.key).signalWait = none ∧
      ∀ l ∈ laneList e.act, (t.waveAt e.key).pcOf l = e.pc + BitVec.ofNat 64 e.size) ∧
    (¬ holds → ∃ t : State, exec (.waitsig f) s = .next t ∧ t.mem = s1.mem ∧ (t.waveAt e.key).ready = 0 ∧
      (t.waveAt e.key).regs = (s1.waveAt e.key).regs ∧
      ∃ x ∈ (t.waveAt e.key).waits, x.lanes = e.act ∧ x.pc = e.pc ∧ x.size = e.size ∧
        x.obj = .signal (BitVec.ofNat 64 va) q.pa none (bitsOf f.q 8 7) v (bitsOf f.q 4 2) (bitOf f.q 6))) ∧
  AtBoundary (fun _ _ => qpushSpec) Instr.qpush (fun _ _ _ _ => True) (fun f s e s1 =>
    let r := s1.pushEntry (s1.waveAt e.key).ctx (s.pushQueue e f) (s.pushWords e f)
    r.1.longS e r.2) ∧
  (∀ (s : State) (c q : Nat) (words : List DWord),
    let y := (s.ctxAt c).queueAt q
    let size := queueSize y.ring
    let ok : Prop := q < 64 ∧ (y.st = .active ∨ y.st = .paused) ∧ bitOf y.cfg.toNat 2 = true ∧
      (y.issued + 2 ^ 32 - y.seen) % 2 ^ 32 < size
    (¬ ok → s.pushEntry c q words = (s, 0)) ∧
    (ok → words.length = 8 → y.issued < 2 ^ 32 →
      let n := (y.issued + 1) % 2 ^ 32
      let r := s.pushEntry c q words
      let pa := queueBase y.ring + 64 * (y.issued % size)
      r.2 = n ∧ ((r.1.ctxAt c).queueAt q).issued = n ∧
      ((∀ a, s.shutterOf a = none) → s.unpublished = [] → s.shadowWaits = [] →
        (r.1.ctxAt c).queueAt q = { y with issued := n, doorbell := n }) ∧
      ∀ dv, s.device pa = some dv → (s.metaOf (dv / 128)).poison = false → (∀ a, s.shutterOf a = none) →
        ∀ i, i < 64 → Cells.get Memory.default r.1.mem (dv + i) = (toBytes 8
          ((BitVec.ofNat 64 (n * 2 ^ 32 + (words.headD 0).toNat % 2 ^ 32) :: words.drop 1).getD (i / 8) 0).toNat).getD (i % 8) 0)) ∧
  AtBoundary (fun f _ => linkqSpec f) Instr.linkq (fun _ _ _ _ => True) (fun f _ e s1 =>
    let n := s1.uvalue e 10 f.fa
    s1.longS e (if 4095 < n ∨ n = s1.node then 4 * 2 ^ 56
      else if f.q % 4 = 0 then s1.nodeWord n else if f.q % 4 = 1 then (s1.nodeAt n).sent else (s1.nodeAt n).acked))

/-- put and get (R437, R438): with the checks passed, in their order, an operation of class 3 moves the bytes line by line:
a line of a put to another package is a posted write, a line of a get a request, and of a line within the package the bytes
of the source stand at the destination afterwards; the operation ends once every line has. -/
def Obligations.PutsAndGets : Prop :=
  let job (isGet : Bool) (f : FWord) (s : State) (e : Env) (s1 : State) : PutJob :=
    s1.putJob e.key isGet (s.uvalue e 11 f.fa) (s.uvalue e 11 f.fb) (s.uvalue e 10 f.fd)
  let does (isGet : Bool) (i : FWord → Instr) : Prop :=
    AtBoundary (fun _ _ => putSpec) i
      (fun f s e s1 => s1.putCheck e isGet (s.uvalue e 11 f.fa) (s.uvalue e 11 f.fb) (s.uvalue e 10 f.fd) = .ok)
      (fun f s e s1 => ((s1.touchPages e.key (spanPages (s.uvalue e 11 f.fb) (s.uvalue e 10 f.fd))).touchPages e.key
        (spanPages (s.uvalue e 11 f.fa) (s.uvalue e 10 f.fd))).issueOp e (some 3) (.put (job isGet f s e s1)))
  does false Instr.put ∧ does true Instr.get ∧
  (∀ (s : State) (e : Env) (isGet : Bool) (dst src n : Nat), (s.waveAt e.key).counter 3 < 63 →
    (dst % 16 ≠ 0 → s.putCheck e isGet dst src n = .trap (misalign dst false true)) ∧
    (dst % 16 = 0 → src % 16 ≠ 0 → s.putCheck e isGet dst src n = .trap (misalign src false false)) ∧
    (dst % 16 = 0 → src % 16 = 0 → n = 0 ∨ 2 ^ 24 < n ∨ n % 16 ≠ 0 →
      s.putCheck e isGet dst src n = .trap (misalign n false false))) ∧
  (∀ (s : State) (id : Nat) (o : EngineOp) (j : PutJob), Cells.find s.ops id = some o → o.done = false → o.kind = .put j →
    (∀ a n, j.lines[j.next]? = some (a, n) →
      let near := pagedPieces j.pages (j.other a) n
      let goes (t : State) (out : Nat) : Prop := .engineOpRetire id ∈ t.agenda ∧ Cells.find t.ops id =
        some { o with kind := .put { j with next := j.next + 1, outstanding := j.outstanding + out } }
      s.missingFrame near = none → (∀ pa, s.shutterOf pa = none) →
      (∀ node fr, Cells.find j.remotePages (a / 65536) = some (node, fr) → (s.nodeAt node).st = .active →
        s.sessionRefused j.ctx node = false →
        (j.isGet = false → ∃ t : State, exec (.engineOpRetire id) s = .next t ∧ goes t 1 ∧ t.mem = s.mem ∧
          t.out = s.out ++ [.fabricAccess node (((s.nodeAt node).sent + 1) % 2 ^ 32) (s.ctxAt j.ctx).tag (fr * 65536 + a % 65536)
            (.store ((s.pagedBytes near).zipIdx.map (fun x => (x.2, x.1)))) none]) ∧
        (j.isGet = true → ∃ t : State, exec (.engineOpRetire id) s = .next t ∧ goes t 1 ∧ t.mem = s.mem ∧
          ∃ w tag x, t.out = s.out ++ [.fabricRequest node w tag (fr * 65536 + a % 65536) (.load n) none] ∧
            Cells.find t.fabricWaits w = some x ∧ x.node = node ∧ x.getLine = some (id, j.other a, n))) ∧
      let far := pagedPieces j.pages a n
      (Cells.find j.remotePages (a / 65536) = none → s.missingFrame far = none → ∃ t u : State,
        exec (.engineOpRetire id) s = .next t ∧ goes t 0 ∧ t.out = s.out ∧ t.mem = u.mem ∧
        s.pagedStore (if j.isGet then near else far) (s.pagedBytes (if j.isGet then far else near)) = .ok u)) ∧
    (j.lines[j.next]? = none → j.outstanding = 0 → s.putDeferred j = false → ∃ t : State,
      exec (.engineOpRetire id) s = .next t ∧ t.mem = s.mem ∧ ∃ p, Cells.find t.ops id = some p ∧ p.done = true))

/-- coll (R439, R440): with the checks passed an operation of class 3 takes the next round of its group. Its elements go to
every other member, once, when the posted writes before it are acknowledged; with the elements of every member there, and
one descriptor, the result of the kind is written and sd is 0; a group that is OFF or BROKEN, a descriptor that differs, and
a time that runs out end it with their status, and the time counts on while the context is SAVED. What coll checks and
compares is the model's reading (log entry 54). -/
def Obligations.Collectives : Prop :=
  let ends (t s : State) (id : Nat) (j : CollJob) (status : Nat) : Prop :=
    (∃ p, Cells.find t.ops id = some p ∧ p.done = true) ∧ .engineOpRetire id ∈ t.agenda ∧
    ∀ x, Cells.find s.fills j.fill = some x → ∃ y, Cells.find t.fills j.fill = some y ∧ y.ready = true ∧
      y.ss = x.ss ++ x.sKeys.map (fun k => (k, BitVec.ofNat 64 (status * 2 ^ 56)))
  let sends (j : CollJob) (y : StepGroup) : Nat := collSize j.desc.toNat * collSend j.desc.toNat y.members.length
  let takes (j : CollJob) (y : StepGroup) : Nat := collSize j.desc.toNat * collRecv j.desc.toNat y.members.length
  AtBoundary (fun f _ => collSpec f) Instr.coll
    (fun f s e s1 => s1.collCheck e (f.ext.getD 0).toNat
      ((s.ctxAt (s.waveAt e.key).ctx).groupAt (collGroup (f.ext.getD 0).toNat)).members.length (s.uvalue e 11 f.fa)
      (s.uvalue e 11 f.fb) = .ok)
    (fun f s e s1 =>
      let d := (f.ext.getD 0).toNat
      let c := (s.waveAt e.key).ctx
      let y := (s.ctxAt c).groupAt (collGroup d)
      let srcs := collSrcs d y.members.length (s.uvalue e 11 f.fb)
      let dsts := collDsts d y.members.length (s.uvalue e 11 f.fa)
      let r := ((s1.touchPages e.key srcs).touchPages e.key dsts).startFill e.key (s1.destKeys e 1 f.fd e.act)
      let job : CollJob :=
        { fill := r.1, ctx := c, group := collGroup d, round := y.rounds, recv := BitVec.ofNat 64 (s.uvalue e 11 f.fa)
          send := BitVec.ofNat 64 (s.uvalue e 11 f.fb), desc := f.ext.getD 0
          pages := merge (s1.lineFrames e.key { read := true } srcs).1 (s1.lineFrames e.key { write := true } dsts).1
          writes := s1.nodes.flatMap (fun (n, l) =>
            (l.unacked.filter (fun p => p.wave == e.key && !p.withdrawn)).map (fun p => (n, p.seq))) }
      (r.2.issueOp e (some 3) (.coll job)).modGroup c (collGroup d)
        (fun z => if z.st = .armed then { z with rounds := z.rounds + 1 } else z)) ∧
  (∀ (s : State) (id : Nat) (o : EngineOp) (j : CollJob), Cells.find s.ops id = some o → o.done = false → o.kind = .coll j →
    let y := (s.ctxAt j.ctx).groupAt j.group
    let out := pagedPieces j.pages j.send.toNat (sends j y)
    let into := pagedPieces j.pages j.recv.toNat (takes j y)
    let msgs := y.roundMsgs j.round
    (y.st = .off → ∃ t : State, exec (.engineOpRetire id) s = .next t ∧ ends t s id j 1 ∧ t.mem = s.mem) ∧
    (y.st = .broken → ∃ t : State, exec (.engineOpRetire id) s = .next t ∧ ends t s id j (1 + y.cause) ∧ t.mem = s.mem) ∧
    (y.st ≠ .off → y.st ≠ .broken → j.timedOut = true → ∃ t : State,
      exec (.engineOpRetire id) s = .next t ∧ ends t s id j 3 ∧ t.mem = s.mem) ∧
    (y.st ≠ .off → y.st ≠ .broken → j.timedOut = false → s.collFree id o j = false →
      exec (.engineOpRetire id) s = .next (s.stickOp id)) ∧
    (y.st ≠ .off → y.st ≠ .broken → j.timedOut = false → s.collFree id o j = true → s.missingFrame (out ++ into) = none →
      (msgs = [] → (∃ m ∈ y.members, m ≠ s.node) → (∀ m ∈ y.members, m ≠ s.node → (s.nodeAt m).st = .active) →
        (∀ pa, s.shutterOf pa = none) → ∃ t : State,
        let msg : CollMsg :=
          { node := s.node, tag := y.tag, round := j.round, desc := j.desc
            send := collElements (collSize j.desc.toNat) (collSend j.desc.toNat y.members.length) (s.pagedBytes out) }
        exec (.engineOpRetire id) s = .next t ∧ t.mem = s.mem ∧ t.fills = s.fills ∧
        ((t.ctxAt j.ctx).groupAt j.group).msgs = y.msgs ++ [msg] ∧
        t.out = s.out ++ (y.members.filter (fun m => m != s.node)).map (fun m => .collective m msg)) ∧
      (∀ ms u, (∃ x ∈ msgs, x.node = s.node) → y.members.filterMap (fun n => msgs.find? (fun x => x.node == n)) = ms →
        ms.length = y.members.length →
        ((∃ x ∈ ms, x.desc ≠ j.desc) → ∃ t : State, exec (.engineOpRetire id) s = .next t ∧ ends t s id j 4 ∧ t.mem = s.mem) ∧
        ((∀ x ∈ ms, x.desc = j.desc) → s.pagedStore into ((collResult j.desc.toNat (ms.map (·.send))
            (y.members.filter (fun n => decide (n < s.node))).length).flatMap (toBytes (collSize j.desc.toNat))) = .ok u →
          ∃ t : State, exec (.engineOpRetire id) s = .next t ∧ ends t s id j 0 ∧ t.mem = u.mem)))) ∧
  (∀ (d rank : Nat) (xss : List (List Nat)),
    (collKind d = 1 → collResult d xss rank = xss.flatMap (fun xs => xs.take (collCount d))) ∧
    (collKind d = 0 → collTy d = 2 ∨ collTy d = 3 → collOpr d = 0 → xss ≠ [] → (∀ xs ∈ xss, ∀ x ∈ xs, x < 2 ^ 32) →
      ∀ i, i < collCount d → (collResult d xss rank).getD i 0 = (xss.map (fun xs => xs.getD i 0)).sum % 2 ^ 32) ∧
    (collKind d = 2 → collTy d = 3 → collOpr d = 1 → ∀ i, i < collCount d → (collResult d xss rank).getD i 0 =
      (xss.map (fun xs => xs.getD (rank * collCount d + i) 0)).foldl Max.max 0)) ∧
  (∀ (s : State) (m : CollMsg), s.hears m.node = true → m.again = false → ∃ t : State,
    exec (.collMessage m) s = .next t ∧ t.mem = s.mem ∧ t.fills = s.fills ∧
    (s.taggedGroups m.tag = [] → (∀ x ∈ s.collMsgs, (x.node, x.tag, x.round) ≠ (m.node, m.tag, m.round)) →
      t.collMsgs = s.collMsgs ++ [m] ∧ t.ctxs = s.ctxs) ∧
    (∀ c g, s.taggedGroups m.tag = [(c, g)] →
      ((s.ctxAt c).st = .saved → (t.ctxAt c).collDeferred = (s.ctxAt c).collDeferred ++ [(m.node, m.tag, m.round)] ∧
        ((s.nodeAt m.node).st = .active → t.out = s.out ++ [.collDefer m.node m.tag m.round])) ∧
      ((s.ctxAt c).st ≠ .saved → s.roundOver c g m.round = false →
        (∀ x ∈ ((s.ctxAt c).groupAt g).msgs, x.round = m.round → x.node ≠ m.node) →
        ((t.ctxAt c).groupAt g).msgs = ((s.ctxAt c).groupAt g).msgs ++ [m]))) ∧
  (∀ (s : State) (c g : Nat),
    (((s.ctxAt c).groupAt g).tmo = 0 → exec (.collTimeout c g) s = .next s) ∧
    (((s.ctxAt c).groupAt g).tmo ≠ 0 → ∃ t : State, exec (.collTimeout c g) s = .next t ∧ t.mem = s.mem ∧
      (∀ id o j, oldestColl s.ops c g = some (id, o, j) → (Cells.find s.ops id).isSome → ends t s id j 3) ∧
      (oldestColl s.ops c g = none → ∀ im id o j, (s.ctxAt c).image = some im → oldestColl im.ops c g = some (id, o, j) →
        (t.ctxAt c).image = some { im with ops := Cells.put im.ops id { o with kind := .coll { j with timedOut := true } } })))

/-! ### Ports, node links and sessions (20_link.md) -/

/-- Solon ports (R430, R431) and node links (R433, R434): each event takes a port or a link from the state that the rule
gives it to the next and does nothing in another, a port keeps the flits of its replay buffer until they are acknowledged or
it goes DOWN, and sends them again when it is ACTIVE; a flit that fails its CRC is asked for again, and after 8 failed
replays the port retrains; one that fails its session's integrity check fails that session alone; a link that enters DOWN or
FENCED loses its unacknowledged writes, one that trains starts its numbers anew, and one that becomes ACTIVE sends what
waited. Sessions (R443, R444): each command and message takes a slot from the states that the rule lists to the next, and
does nothing in others; KEYUPD and CLOSE send their messages, and a session that runs answers those of the peer. Slot 64,
the responder on the PCIe port (22_platform.md R454), answers each message. The commands that a state ignores, the ninth
failed CRC and the bad configurations of a session are the model's reading (log entries 51 to 53). -/
def Obligations.LinksAndSessions : Prop :=
  (let port (i : Nat → Instr) (old new : PortState) : Prop := ∀ (s : State) (p : Nat),
     (p ≤ 63 → (s.portAt p).st = old →
       let kept := if new = .down then [] else (s.portAt p).replay
       let u : State := { s with ports := Cells.set {} s.ports p { st := new, replay := kept } }
       ∃ t : State, exec (i p) s = .next t ∧ (t.portAt p).st = new ∧
         ((∀ x ∈ s.fabric, p ∉ x.2) → t = if new = .active ∧ kept ≠ [] then u.send (.replay p kept.length) else u)) ∧
     (63 < p ∨ (s.portAt p).st ≠ old → exec (i p) s = .next s)
   port Instr.portLock .down .training ∧ port Instr.portTrainingDone .training .active ∧
   port Instr.portTrainingTimeout .training .down ∧ port Instr.portLossOfLock .active .down ∧
   port Instr.portRetrainDone .retraining .active ∧ port Instr.portRetrainTimeout .retraining .down ∧
   (∀ (s : State) (p slot acked : Nat) (again : Bool), (s.portAt p).st = .active → p ≤ 63 →
     let x := s.portAt p
     (∀ intact, x.failed ≠ 8 → exec (.flitReceive p false intact ⟨slot, acked, again⟩) s = .next (({ s with
       ports := Cells.set {} s.ports p { x with failed := x.failed + 1 } } : State).send (.replayRequest p))) ∧
     (∀ intact, x.failed = 8 → ∃ t : State, exec (.flitReceive p false intact ⟨slot, acked, again⟩) s = .next t ∧
       (t.portAt p).st = .retraining) ∧
     (∃ t : State, exec (.flitReceive p true true ⟨slot, acked, again⟩) s = .next t ∧
       t.portAt p = { x with failed := 0, replay := x.replay.drop acked } ∧ (∀ q, q ≠ p → t.portAt q = s.portAt q) ∧
       t.out = s.out ++ (if again then [.replay p (x.replay.length - acked)] else []) ∧ t.sessions = s.sessions ∧
       t.nodes = s.nodes ∧ t.mem = s.mem) ∧
     (∃ t : State, exec (.flitReceive p true false ⟨slot, acked, again⟩) s = .next t ∧
       ((s.sessionAt slot).st = .opened ∨ (s.sessionAt slot).st = .locked →
         t.sessionAt slot = { s.sessionAt slot with st := .error, cause := 3 }) ∧
       ((s.sessionAt slot).st ≠ .opened → (s.sessionAt slot).st ≠ .locked → t.sessionAt slot = s.sessionAt slot) ∧
       ∀ i, i ≠ slot → t.sessionAt i = s.sessionAt i)) ∧
   (∀ (s : State) (n : Nat), n ≠ s.node → n ≤ 4095 →
     let up : Prop := 0 < s.routesIn n .active
     let becomes (r : Host.Outcome State Fault Refusal) (st : NodeState) : Prop := ∃ t : State, r = .next t ∧ (t.nodeAt n).st = st ∧
       (∀ m, m ≠ n → (t.nodeAt m).st = (s.nodeAt m).st) ∧ (st ≠ .active → (t.nodeAt n).unacked = []) ∧
       (st = .training → (t.nodeAt n).sent = 0 ∧ (t.nodeAt n).acked = 0 ∧ (t.nodeAt n).received = 0)
     ((s.nodeAt n).st = .training → becomes (exec (.nodeHandshakeDone n) s) .active ∧
       (∃ t : State, exec (.nodeHandshakeDone n) s = .next t ∧ (t.nodeAt n).waiting = [] ∧
         ∀ m ∈ (s.nodeAt n).waiting, m ∈ t.out) ∧
       (up → becomes (exec (.nodeTrainingTimeout n) s) .training) ∧ (¬ up → becomes (exec (.nodeTrainingTimeout n) s) .down)) ∧
     ((s.nodeAt n).st ≠ .training → exec (.nodeHandshakeDone n) s = .next s ∧ exec (.nodeTrainingTimeout n) s = .next s) ∧
     ((s.nodeAt n).st = .retraining →
       (up → becomes (exec (.nodeRetrainTimeout n) s) .training) ∧ (¬ up → becomes (exec (.nodeRetrainTimeout n) s) .down)) ∧
     ((s.nodeAt n).st ≠ .retraining → exec (.nodeRetrainTimeout n) s = .next s) ∧
     ((s.nodeAt n).st = .fenced → exec (.lnkFence n) s = .next s ∧
       (up ∨ 0 < s.routesIn n .retraining → becomes (exec (.lnkUnfence n) s) .training) ∧
       (¬ (up ∨ 0 < s.routesIn n .retraining) → becomes (exec (.lnkUnfence n) s) .down) ∧
       (up → becomes (exec (.lnkDown n) s) .training) ∧
       (¬ up → ∃ t : State, exec (.lnkDown n) s = .next t ∧ (t.nodeAt n).st = .down)) ∧
     ((s.nodeAt n).st ≠ .fenced → exec (.lnkUnfence n) s = .next s ∧ exec (.lnkDown n) s = .next s) ∧
     ((s.nodeAt n).st = .active ∨ (s.nodeAt n).st = .retraining → becomes (exec (.lnkFence n) s) .fenced ∧
       (s.sessions = [] → s.fabricWaits = [] → ∀ c, ∃ t : State, exec (.lnkFence n) s = .next t ∧ (t.ctxAt c).lostCount % 2 ^ 32 =
         ((s.ctxAt c).lostCount + ((s.nodeAt n).unacked.filter (fun p => p.ctx == c && !p.withdrawn)).length) % 2 ^ 32)))) ∧
  (∀ (s : State) (i : Nat),
     let x := s.sessionAt i
     let node := bitsOf x.reg.toNat 11 0
     let ctx := bitsOf x.reg.toNat 23 16
     let sets (j : Instr) (y : Session) : Prop := exec j s = .next { s with sessions := Cells.set {} s.sessions i y }
     let live : Prop := x.st = .opened ∨ x.st = .locked
     let here : Prop := node = s.node ∨ (s.ctxAt ctx).st = .empty
     let lost : Prop := (s.nodeAt node).st = .down ∨ (s.nodeAt node).st = .fenced
     (x.st = .idle → here → sets (.sessionOpen i) { x with st := .error, cause := 5 }) ∧
     (x.st = .idle → ¬ here → lost → sets (.sessionOpen i) { x with st := .error, cause := 4 }) ∧
     (x.st = .idle → ¬ here → ¬ lost → exec (.sessionOpen i) s = .next (({ s with
       sessions := Cells.set {} s.sessions i { x with st := .keying, cause := 0 } } : State).send (.keyExchange i))) ∧
     (x.st ≠ .idle → exec (.sessionOpen i) s = .next s) ∧
     (x.st = .opened → sets (.sessionLock i) { x with st := .locked }) ∧
     (x.st ≠ .opened → exec (.sessionLock i) s = .next s) ∧
     (x.st = .locked → sets (.sessionUnlock i) { x with st := .opened }) ∧
     (x.st ≠ .locked → exec (.sessionUnlock i) s = .next s) ∧
     (x.st = .error → sets (.sessionClose i) { reg := x.reg }) ∧
     (live → exec (.sessionClose i) s =
       .next (({ s with sessions := Cells.set {} s.sessions i { reg := x.reg } } : State).send (.endSession i))) ∧
     (¬ (live ∨ x.st = .error) → exec (.sessionClose i) s = .next s) ∧
     (live → exec (.keyupd i) s =
       .next (({ s with sessions := Cells.set {} s.sessions i { x with keys := x.keys + 1 } } : State).send (.keyUpdate i))) ∧
     (¬ live → exec (.keyupd i) s = .next s) ∧
     (∀ m, i = 64 → exec (.spdmMessage i m) s = .next (s.send (if s.power = .running then .doeAnswer m else .hostRefused))) ∧
     (i ≠ 64 → x.st ≠ .keying → ¬ live → ∀ m, exec (.spdmMessage i m) s = .next s) ∧
     (i ≠ 64 → live → exec (.spdmMessage i .heartbeat) s = .next (s.send (.spdmAnswer i)) ∧
       exec (.spdmMessage i .endSession) s = .next (s.send (.spdmAnswer i)) ∧
       exec (.spdmMessage i .keyUpdate) s =
         .next (({ s with sessions := Cells.set {} s.sessions i { x with keys := x.keys + 1 } } : State).send (.spdmAnswer i))) ∧
     (i ≠ 64 → x.st = .keying → sets (.spdmMessage i .finishVerified) { x with st := .opened, keys := x.keys + 1 } ∧
       exec (.spdmMessage i .progress) s = .next (s.send (.keyExchange i)) ∧ exec (.spdmMessage i .heartbeat) s = .next s ∧
       (∃ t : State, exec (.spdmMessage i .peerRefused) s = .next t ∧ t.sessionAt i = { x with st := .error, cause := 1 }) ∧
       (∃ t : State, exec (.spdmMessage i .badSignature) s = .next t ∧ t.sessionAt i = { x with st := .error, cause := 2 })))

/-- Writes and requests between packages (R434, R436, 07_consistency.md R189): an acknowledgement takes the writes up to its
number off the link; a reply's bytes go to the registers of its request, and a refused one raises PERM; a fence whose time
runs out counts the writes it waited for as lost. An access that arrives is performed where its frame's context admits the
peer and refused else; a posted write waits for its predecessor, and a repeat is acknowledged again. How lost writes are
counted is the model's reading (log entry 55). -/
def Obligations.FabricMessages : Prop :=
  (∀ (s : State) (node seq n : Nat) (refused : List Nat), s.hears node = true →
    (seq + 2 ^ 32 - (s.nodeAt node).acked) % 2 ^ 32 = n → 0 < n → n ≤ (s.nodeAt node).unacked.length → ∃ t : State,
    exec (.fabricAck node seq refused) s = .next t ∧
    t.nodeAt node = { s.nodeAt node with acked := seq, unacked := (s.nodeAt node).unacked.drop n } ∧
    (∀ m, m ≠ node → t.nodeAt m = s.nodeAt m) ∧
    ((∀ p ∈ (s.nodeAt node).unacked.take n, p.op = none ∧ p.seq ∉ refused) →
      t = (s.modNode node (fun x => { x with acked := seq, unacked := x.unacked.drop n })).wakeColls)) ∧
  (∀ (s : State) (id : Nat) (x : FabricWait) (y : Fill), Cells.find s.fabricWaits id = some x → s.hears x.node = true →
    x.getLine = none → Cells.find s.fills x.fill = some y →
    (∀ bs, x.vs ≠ [] ∨ x.ss.isSome → (∀ z ∈ Cells.del s.fabricWaits id, z.2.fill ≠ x.fill) → ∃ t : State,
      exec (.fabricReply id (.data bs)) s = .next t ∧ t.fabricWaits = Cells.del s.fabricWaits id ∧ t.mem = s.mem ∧
      .registerFill x.fill ∈ t.agenda ∧ Cells.find t.fills x.fill =
        some { y with vs := y.vs ++ (x.values bs).1, ss := y.ss ++ (x.values bs).2, ready := true }) ∧
    exec (.fabricReply id .refused) s = .next ((({ s with fabricWaits := Cells.del s.fabricWaits id } : State).recede
      x.wave x.pc).asyncFault x.wave x.pc { code := 0x23, lane := x.lane, addr := x.va, write := x.write, guard := true, step := 4 }) ∧
    ∀ m, exec (.fabricReply id (.mismatch m)) s =
      .next (({ s with fabricWaits := Cells.del s.fabricWaits id } : State).remoteMismatch x m)) ∧
  (∀ (x : FabricWait) (bs : List Byte) (k : Nat), x.ss = some k → x.heldBytes = [] →
    x.values bs = ([], [(k, extend64 x.ty (ofBytes bs))])) ∧
  (∀ (s : State) (k : Nat) (lanes : Word) (pd size from' : Nat) (pc : DWord), (∃ w, Cells.find s.waves k = some w ∧
    w.hold = some (.fence lanes pd pc size from') ∧ w.trapMode = false ∧ bitOf (s.ctxAt w.ctx).lnkCfg.toNat 0 = false ∧
    ((∃ x ∈ s.nodes, ∃ p ∈ x.2.unacked, p.waitedBy k lanes = true ∧ p.op = none) ∨ ∃ m ∈ w.lostWrites, m &&& lanes ≠ 0)) →
    ∃ t : State, exec (.fenceBoundExpiry k) s = .next t ∧ (t.waveAt k).hold = none ∧ t.unacked k lanes = false ∧
    (∀ m ∈ (t.waveAt k).lostWrites, m &&& lanes = 0) ∧
    (pd ≠ 0 → ∀ l ∈ laneList (lanes &&& (s.waveAt k).m0), (t.waveAt k).regs.pGet false pd l = false)) ∧
  (∀ (s : State) (r : FabricReq), s.fabricIn = [] → s.hears r.node = true →
    let ahead := (r.seq + 2 ^ 32 - (s.nodeAt r.node).received) % 2 ^ 32
    let no : Prop := s.admits r.node r.tag r.addr = false
    (∀ n, r.op = .load n →
      (no → exec (.fabricAccess r) s = .next (s.sendTo r.node (.fabricReply r.node r.seq .refused))) ∧
      (s.admits r.node r.tag r.addr = true → s.unowned r.addr = false → r.sync = none → (∀ pa, s.shutterOf pa = none) →
        ∃ t : State, exec (.fabricAccess r) s = .next t ∧ t.mem = s.mem ∧ ((s.nodeAt r.node).st = .active →
          t.out = s.out ++ [.fabricReply r.node r.seq (.data (s.peek r.addr n))]))) ∧
    (∀ bytes, r.op = .store bytes →
      (ahead = 0 ∨ 2 ^ 31 ≤ ahead → exec (.fabricAccess r) s =
        .next (s.sendTo r.node (.fabricAck r.node (s.nodeAt r.node).received []))) ∧
      (1 < ahead → ahead < 2 ^ 31 → exec (.fabricAccess r) s = .next { s with fabricIn := [r] }) ∧
      (ahead = 1 → no → exec (.fabricAccess r) s = .next ((s.modNode r.node (fun l => { l with received := r.seq })).sendTo r.node
        (.fabricAck r.node r.seq [r.seq]))) ∧
      (ahead = 1 → s.admits r.node r.tag r.addr = true → s.unowned r.addr = false → r.sync = none → ∀ u : State,
        s.peerStore r.addr (byteRuns bytes) = .ok u → ∃ t : State, exec (.fabricAccess r) s = .next t ∧ t.mem = u.mem ∧
          (t.nodeAt r.node).received = r.seq ∧ ((s.nodeAt r.node).st = .active → t.out = u.out ++ [.fabricAck r.node r.seq []])))) ∧
  (∀ (s : State) (f : FabricReq) (p : Placement), Cells.find s.place (f.addr / 65536) = some p →
    (s.ctxAt p.ctx).tag = 0 ∨ (s.ctxAt p.ctx).tag ≠ f.tag → s.admits f.node f.tag f.addr = false) ∧
  (∀ (s : State) (f : FabricReq), Cells.find s.place (f.addr / 65536) = none → s.admits f.node f.tag f.addr = false)

/-! ### Queues and contexts (09_queue.md R223 to R230, 08_context.md R201 to R220) -/

/-- The states of a queue (R223, R225, R229), acceptance (R226, R228) and execution (R227, R230): an entry that bears the
next number and is well formed is accepted, one that does not puts the queue in ERROR; the oldest entry may start, and a
later one only where no FENCE holds it; a SIGNAL changes its word, a WAIT completes once its condition holds, a NOP at once,
a LAUNCH starts a kernel; a completion writes its record, and then counts in DONE and sends MSI-X where IRQ is set. A host's
register write stands behind its earlier transactions that wait. That CLEAR sets ERR to 0 and which fields acceptance checks
are the model's reading (log entries 41 and 42). -/
def Obligations.QueueEvents : Prop :=
  (∀ (s : State) (c q : Nat) (v : DWord),
    let y := (s.ctxAt c).queueAt q
    let goes (i : Instr) (z : Queue) : Prop := ∃ t : State, exec i s = .next t ∧ (t.ctxAt c).queueAt q = z ∧
      ({ t with ctxs := s.ctxs } : State) = s
    let n := v.toNat % 2 ^ 32
    goes (.queueEnable c q) (if y.st = .off then { y with st := .active, err := 0, seen := 0, done := 0, doorbell := 0
                                                          cons := 0, deficit := 0, issued := 0 } else y) ∧
    goes (.queuePause c q) (if y.st = .active then { y with st := .paused } else y) ∧
    goes (.queueResume c q) (if y.st = .paused then { y with st := .active } else y) ∧
    goes (.queueDisable c q) (if y.st = .active ∨ y.st = .paused then { y with st := .off } else y) ∧
    goes (.queueClear c q) (if y.st = .error then { y with st := .off, err := 0 } else y) ∧
    (s.hostIn = [] → goes (.queueDoorbellWrite c q v) (
      if (y.st ≠ .active ∧ y.st ≠ .paused) ∨ bitOf y.cfg.toNat 2 then y
      else if (n + 2 ^ 32 - y.seen) % 2 ^ 32 ≤ queueSize y.ring then { y with doorbell := n }
      else { y with st := .error, err := 3 }) ∧
      goes (.queueCplConsWrite c q v) (if y.st = .off then y else { y with cons := n })) ∧
    (s.hostIn ≠ [] →
      exec (.queueDoorbellWrite c q v) s = .next { s with hostIn := s.hostIn ++ [.bar2Write (c * 65536 + q * 256 + 40) v] } ∧
      exec (.queueCplConsWrite c q v) s = .next { s with hostIn := s.hostIn ++ [.bar2Write (c * 65536 + q * 256 + 64) v] })) ∧
  (∀ (s : State) (c q : Nat),
    let y := (s.ctxAt c).queueAt q
    let n := (y.seen + 1) % 2 ^ 32
    let slot := (n + 2 ^ 32 - 1) % 2 ^ 32 % queueSize y.ring
    let w (i : Nat) : Nat := s.peekNat (queueBase y.ring + 64 * slot + 8 * i) 8
    let kind := bitsOf (w 0) 7 0
    let op := bitsOf (w 0) 17 16
    let bad : Prop := kind = 0 ∨ 4 < kind ∨ bitsOf (w 0) 31 18 ≠ 0 ∨ bitsOf (w 0) 15 10 ≠ 0 ∨ (kind = 2 ∧ op = 3) ∨
      ((kind = 1 ∨ kind = 4) ∧ op ≠ 0) ∨ w 4 ≠ 0 ∨ w 5 ≠ 0 ∨ w 6 ≠ 0 ∨ w 7 ≠ 0
    let becomes (z : Queue) : Prop := ∃ t : State, exec (.entryAccept c q) s = .next t ∧ (t.ctxAt c).queueAt q = z
    (s.ctxAt c).st.queuesRun = true → y.offers = true →
      (bitsOf (w 0) 63 32 ≠ n → becomes { y with st := .error, err := 1 }) ∧
      (bitsOf (w 0) 63 32 = n → bad → becomes { y with st := .error, err := 2 }) ∧
      (bitsOf (w 0) 63 32 = n → ¬ bad → becomes { y with seen := n, entries := y.entries ++
        [{ hseq := n, kind := kind, op := op, irq := bitOf (w 0) 9, fence := bitOf (w 0) 8, addr := BitVec.ofNat 64 (w 1)
           value := BitVec.ofNat 64 (w 2), tag := BitVec.ofNat 64 (w 3) }] })) ∧
  (∀ (s : State) (c q : Nat) (e : QEntry) (a b : List QEntry), (s.ctxAt c).st.queuesRun = true →
    ((s.ctxAt c).queueAt q).entries = a ++ e :: b → (∀ z ∈ a, z.hseq ≠ e.hseq) → e.started = false →
    (a = [] → s.startable c q e.hseq = some e) ∧
    (a ≠ [] → e.fence = true ∨ e.kind ≠ 1 → s.startable c q e.hseq = none)) ∧
  (∀ (s : State) (c q n : Nat) (e : QEntry), s.startable c q n = some e →
    (e.kind = 4 → exec (.entryNop c q n) s = .next (s.completeEntry c q n 0 0)) ∧
    (e.kind = 3 → ∀ pa, s.entryWord c e false = (.ok, pa) →
      let word := s.peekNat pa 8
      let v := e.value.toNat
      let holds : Prop := match e.op with
        | 0 => word = v
        | 1 => word ≠ v
        | 2 => v ≤ word
        | _ => word < v
      (holds → exec (.entryWait c q n) s = .next ((s.homeRead pa).completeEntry c q n 0 0)) ∧
      (¬ holds → exec (.entryWait c q n) s = .next s)) ∧
    (e.kind = 2 → ∀ pa u, s.entryWord c e true = (.ok, pa) → s.tryWrite pa (toBytes 8 (match e.op with
        | 0 => (s.peekNat pa 8 + e.value.toNat) % 2 ^ 64
        | 1 => e.value.toNat
        | _ => Max.max (s.peekNat pa 8) e.value.toNat)) = some u →
      exec (.entrySignal c q n) s = .next ((u.homeWrite pa).completeEntry c q n 0 0)) ∧
    (∀ t pa, s.entryWord c e (e.kind == 2) = (.trap t, pa) →
      (e.kind = 2 → exec (.entrySignal c q n) s = .next (s.completeEntry c q n 1 0)) ∧
      (e.kind = 3 → exec (.entryWait c q n) s = .next (s.completeEntry c q n 1 0))) ∧
    (e.kind = 1 → ∀ ps,
      (∀ r, s.readRecord c lintelSeat e.addr.toNat = .ok (some r, ps) →
        let l := (s.noteRead ps).addLaunch { ctx := c, queue := q, hseq := some n, root := 0, fields := r }
        exec (.entryLaunch c q n) s = .next (l.2.modQueue c q (fun y => { y with entries := y.entries.map (fun z =>
          if z = e then { z with started := true, launch := some l.1 } else z) }))) ∧
      (s.readRecord c lintelSeat e.addr.toNat = .ok (none, ps) →
        exec (.entryLaunch c q n) s = .next ((s.noteRead ps).completeEntry c q n 2 0)))) ∧
  (∀ (s : State) (c q n status cycles : Nat) (e : QEntry), (s.ctxAt c).st.queuesRun = true →
    let y := (s.ctxAt c).queueAt q
    y.entries.find? (fun z => z.hseq == n && !z.started) = some e → s.unpublished = [] → y.done < 2 ^ 32 →
    let t := s.completeEntry c q n status cycles
    let d := (y.done + 1) % 2 ^ 32
    let pa := queueBase y.cpl + 64 * (y.done % queueSize y.ring)
    ((t.ctxAt c).queueAt q).entries = y.entries.erase e ∧ (∀ k, t.OthersStand s k) ∧
    ((∀ a, s.shutterOf a = none) → s.shadowWaits = [] →
      (t.ctxAt c).queueAt q = { y with done := d, entries := y.entries.erase e } ∧
      t.out = s.out ++ (if e.irq then [.msix c (bitsOf y.cfg.toNat 15 8)] else []) ∧
      ∀ dv, s.device pa = some dv → (s.metaOf (dv / 128)).poison = false →
        ∀ i, i < 64 → Cells.get Memory.default t.mem (dv + i) = (toBytes 8 (([BitVec.ofNat 64 (d * 2 ^ 32 + n),
          BitVec.ofNat 64 status, e.tag, BitVec.ofNat 64 cycles, BitVec.ofNat 64 s.timeNs, 0, 0, 0] : List DWord).getD (i / 8) 0).toNat).getD
          (i % 8) 0))

/-- The life of a context (R201 to R205, R217, R218): BIND, ARM, RUN, PREEMPT, DESTROY and the events that end a save and a
release take a context from the states that the rules give them to the next; in others a command leaves the reason in CMDST.
A context that is saved has its waves in its image and none on its cores. What services a context (R205, R210, R214, R219,
R220): RESUME lets a SUSPENDED wave go on where it stands; FAIL makes its context FAULTED with the code of the wave's fault;
CTX_RECT moves a rectangle of the same shape; CTX_FQ_PTR frees records; and CTX_DBG_DATA reads and writes the registers of a
HALTED wave. The conflict with DESTROYING contexts, the two parts of a save, RESUME and FAIL of images and CTX_RECT after
BIND are the model's reading (log entries 34 to 40). -/
def Obligations.Contexts : Prop :=
  (∀ (s : State) (c : Nat),
     let x := s.ctxAt c
     let fails (i : Instr) (why : Nat) : Prop := exec i s = .next (s.modCtx c (fun y => { y with cmdst := why }))
     let taken : Prop := s.heldBy c (fun y => y.st == .running || y.st == .preempting) = true
     let ready : Prop := x.st = .runnable ∨ x.st = .saved
     let backed : Prop := s.areaBacked x.imageBase x.imageSize = true
     let stops (t : State) : Prop := (s.waves.map (·.1)).Nodup → ∀ k w, Cells.find s.waves k = some w →
       let stopped : Prop := w.ctx = c ∧ (w.life = .active ∨ w.life = .pending)
       (Cells.find t.waves k).map (·.life) = some (if stopped then (if w.halting then .halted else .stopped) else w.life) ∧
       ((∀ j v, Cells.find s.waves j = some v → v.ctx = c → ∀ a b n d, v.hold ≠ some (.reply a b n d)) →
         Cells.find t.waves k = some (if stopped then
             (if w.halting then { w with life := .halted, halting := false }
              else { w.giveUp LaneWait.reissued with life := .stopped })
           else w))
     (x.st ≠ .empty → fails (.bind c) 1) ∧
     (x.st = .empty → rectOk x.rect.toNat = false → fails (.bind c) 5) ∧
     (x.st = .empty → rectOk x.rect.toNat = true → s.slicesTaken c = true → fails (.bind c) 2) ∧
     (x.st = .empty → rectOk x.rect.toNat = true → s.slicesTaken c = false → ∃ t : State, exec (.bind c) s = .next t ∧
       (t.ctxAt c).st = .bound ∧ (t.ctxAt c).cmdst = 0 ∧ (t.ctxAt c).kernels = [] ∧ (t.ctxAt c).shutters = [] ∧
       (∀ q, ((t.ctxAt c).queueAt q).entries = []) ∧ (∀ d, d ≠ c → t.ctxAt d = s.ctxAt d) ∧ t.mem = s.mem ∧ t.waves = s.waves) ∧
     (x.st = .bound → exec (.arm c) s = .next (s.modCtx c (fun y => { y with st := .runnable, cmdst := 0 }))) ∧
     (x.st ≠ .bound → fails (.arm c) 1) ∧
     (¬ ready → fails (.run c) 1) ∧ (ready → taken → fails (.run c) 2) ∧
     (ready → ¬ taken → s.heldBy c Context.draining = true → exec (.run c) s = .next (s.post (.run c))) ∧
     (ready → ¬ taken → s.heldBy c Context.draining = false → ¬ backed → fails (.run c) 5) ∧
     (ready → ¬ taken → s.heldBy c Context.draining = false → backed → x.image = none → ∃ t : State,
       exec (.run c) s = .next t ∧ (t.ctxAt c).st = .running ∧ (t.ctxAt c).cmdst = 0 ∧ t.waves = s.waves ∧ t.mem = s.mem) ∧
     (∀ im, ready → ¬ taken → s.heldBy c Context.draining = false → backed → x.image = some im →
       s.areaBytes x.imageBase x.imageSize ≠ im.digest → fails (.run c) 4) ∧
     (x.st ≠ .running → fails (.preempt c) 1 ∧ exec (.sliceExpiry c) s = .next s) ∧
     (x.st = .running → (∃ t : State, exec (.preempt c) s = .next t ∧ (t.ctxAt c).st = .preempting ∧ stops t ∧ t.mem = s.mem) ∧
       (x.sliceTime ≠ 0 → ∃ t : State, exec (.sliceExpiry c) s = .next t ∧ (t.ctxAt c).st = .preempting ∧ stops t) ∧
       (x.sliceTime = 0 → exec (.sliceExpiry c) s = .next s)) ∧
     (s.saveable c = false → exec (.preemptComplete c) s = .next s) ∧
     (s.saveable c = true → (∀ a, s.shutterOf a = none) → s.shadowWaits = [] → ∃ t : State, ∃ im : Image,
       let unseen (w : Wave) : Wave := { w with seenWord := none }
       exec (.preemptComplete c) s = .next t ∧ (t.ctxAt c).image = some im ∧
       (∀ w ∈ t.waves, w.2.ctx ≠ c) ∧ ((s.waves.map (·.1)).Nodup → ∀ k w, Cells.find s.waves k = some w → w.ctx ≠ c →
         (Cells.find t.waves k).map unseen = some (unseen w)) ∧
       im.waves.map unseen = (s.waves.filter (fun w => w.2.ctx == c)).map (fun w =>
         unseen { w.2 with core := x.agentOf w.2.core }) ∧
       (x.st = .preempting → x.failWanted = none → (t.ctxAt c).st = .saved) ∧
       (∀ code, x.st = .preempting → x.failWanted = some code → (t.ctxAt c).st = .faulted ∧ (t.ctxAt c).lastcode = code) ∧
       (x.st = .faulted → (t.ctxAt c).st = .faulted)) ∧
     (x.st = .empty ∨ x.st = .destroying → fails (.destroy c) 1) ∧
     (x.st ≠ .empty → x.st ≠ .destroying → ∃ t : State, exec (.destroy c) s = .next t ∧ (t.ctxAt c).st = .destroying ∧
       (t.ctxAt c).cmdst = 0 ∧ (t.ctxAt c).shutters = [] ∧ (t.ctxAt c).image = none ∧
       (x.onCores = true → ∀ w ∈ t.waves, w.2.ctx ≠ c)) ∧
     (s.destroyed c = false → exec (.destroyComplete c) s = .next s) ∧
     (s.destroyed c = true → exec (.destroyComplete c) s = .next (s.modCtx c (fun _ => {})))) ∧
  (∀ (s : State) (c : Nat),
     let x := s.ctxAt c
     let fails (i : Instr) (why : Nat) : Prop := exec i s = .next (s.modCtx c (fun y => { y with cmdst := why }))
     (∀ agent slot, x.serves = false → fails (.resume c agent slot) 1 ∧ fails (.fail c agent slot) 1) ∧
     (∀ agent slot, x.serves = true → x.image = none → s.namedWave c agent slot = none →
       fails (.resume c agent slot) 5 ∧ fails (.fail c agent slot) 5) ∧
     (∀ agent slot k w, x.st = .running → x.image = none → s.namedWave c agent slot = some k → Cells.find s.waves k = some w →
       (w.life ≠ .suspended → w.life ≠ .halted → fails (.resume c agent slot) 5 ∧ fails (.fail c agent slot) 5) ∧
       (w.life = .suspended → w.pendingRec = none → w.block = none →
         (x.halt = false → ∃ t : State, exec (.resume c agent slot) s = .next t ∧ (t.ctxAt c).cmdst = 0 ∧ t.mem = s.mem ∧
           t.waveAt k = { w with life := (if 1536 ≤ w.core then .active else .pending), blocked := none } ∧
           ∀ j, j ≠ k → Cells.find t.waves j = Cells.find s.waves j) ∧
         ∃ t : State, exec (.fail c agent slot) s = .next t ∧ (t.ctxAt c).st = .faulted ∧ (t.ctxAt c).lastcode = w.faultCode ∧
           (t.ctxAt c).cmdst = 0 ∧ t.mem = s.mem)) ∧
     (∀ v, s.locked c = false →
       (x.st = .empty → exec (.ctxRectWrite c v) s =
         .next (s.modCtx c (fun y => { y with rect := v &&& 0x3FFFF, cmdst := 0 }))) ∧
       (x.st = .bound ∨ x.st = .runnable ∨ x.st = .saved →
         (rectShape v.toNat = rectShape x.rect.toNat → exec (.ctxRectWrite c v) s =
           .next (s.modCtx c (fun y => { y with rect := v &&& 0x3FFFF, cmdst := 0 }))) ∧
         (rectShape v.toNat ≠ rectShape x.rect.toNat → fails (.ctxRectWrite c v) 3)) ∧
       (x.st = .running ∨ x.st = .preempting ∨ x.st = .faulted ∨ x.st = .destroying → fails (.ctxRectWrite c v) 1)) ∧
     (∀ v, s.locked c = true → fails (.ctxRectWrite c v) 1) ∧
     (∀ v, x.st ≠ .destroying → x.recordsWaiting = [] →
       exec (.ctxFqPtrWrite c v) s = .next (s.modCtx c (fun y => { y with fqCons := v.toNat / 2 ^ 32 }))) ∧
     (∀ v, x.st ≠ .destroying → s.locked c = false →
       ((s.debugSel c).1 = none → fails (.ctxDbgDataAccess c (some v)) 1) ∧
       (∀ k index lane, s.debugSel c = (some k, 0, index, lane) → index < (s.waveAt k).nv →
         exec (.ctxDbgDataAccess c none) s = .next (s.send (.registerValue
           (BitVec.ofNat 64 ((s.waveAt k).regs.vGet index lane).toNat))) ∧
         (Cells.get false (s.waveAt k).vEmpty (index * 32 + lane) = false →
           exec (.ctxDbgDataAccess c (some v)) s = .next (s.modWave k (fun w => w.setV index lane (BitVec.ofNat 32 v.toNat)))) ∧
         (Cells.get false (s.waveAt k).vEmpty (index * 32 + lane) = true → fails (.ctxDbgDataAccess c (some v)) 1)) ∧
       (∀ k index lane, s.debugSel c = (some k, 4, index, lane) →
         exec (.ctxDbgDataAccess c none) s = .next (s.send (.registerValue ((s.waveAt k).pcOf lane))) ∧
         exec (.ctxDbgDataAccess c (some v)) s = .next (s.modWave k (fun w => w.setPcs [lane] (fun _ => v)))) ∧
       (∀ k index lane, s.debugSel c = (some k, 6, index, lane) → fails (.ctxDbgDataAccess c (some v)) 1)))

/-! ### The package (21_memory_devices.md, 22_platform.md) -/

/-- Boot and power (R451 to R453, R455): from the release of reset POWER_UP boots once; without an image, or with one that
fails a step, the package stays stopped with the status of the step; else context 0 runs a thread on lane 0 of core 1,536 at
ENTRY, with the payload in pinned frames of tier L and the ports that train ACTIVE. STANDBY and a thermal trip lose all but
the board's and the pool's memory, and WAKE boots again. Which memory a power-off keeps, and that the world names what
training finds, are the model's choices (log entries 2 and 61). -/
def Obligations.BootAndPower : Prop :=
  (∀ s : State, s.power ≠ .released → exec .powerUp s = .next s) ∧ (∀ s : State, s.power ≠ .off → exec .wake s = .next s) ∧
  (∀ s : State, s.power = .off → exec .wake s = exec .powerUp { s with power := .released }) ∧
  (∀ (s : State) (x : ConfigImage), s.power = .released →
    let fails (st : Nat) : Prop := ∃ t : State, exec .powerUp s = .next t ∧ t.power = .failed ∧ t.plat.bootStatus = st ∧
      ({ t with power := s.power, plat := s.plat } : State) = s
    let rows : Prop := x.coremap.length = 16 ∧ ∀ p ∈ x.coremap, p ≤ 96
    (s.flash = none → fails 1) ∧ (s.flash = some x →
      (x.signatureOk = false → fails 2) ∧
      (x.signatureOk = true → x.coremap.length ≠ 16 ∨ (∃ p ∈ x.coremap, 96 < p) → fails 3) ∧
      (x.signatureOk = true → rows → x.order ≠ x.strap → fails 5) ∧
      (x.signatureOk = true → rows → x.order = x.strap → x.trains = false → fails 4) ∧
      (x.signatureOk = true → rows → x.order = x.strap → x.trains = true → x.payload.length ≤ 2 ^ 40 →
        ∃ t : State, exec .powerUp s = .next t ∧ t.power = .running ∧ t.node = x.node ∧
        (t.ctxAt 0).st = .running ∧ (t.ctxAt 0).sys = true ∧ (t.ctxAt 0).ptroot = BitVec.ofNat 64 x.root ∧
        (∀ p ∈ x.portsUp, (t.portAt p).st = .active) ∧
        (∃ w, Cells.find t.waves (1536 * 128) = some w ∧ w.ctx = 0 ∧ w.life = .active ∧ w.m0 = 1 ∧ w.pcOf 0 = x.entry ∧
          Cells.get 0 w.entries 0 = x.entry ∧ w.trapMode = false) ∧
        (∀ i, i < x.payload.length → t.peekByte (65536 * x.paFrame + i) = x.payload.getD i 0) ∧
        (∀ i, i < (x.payload.length + 65535) / 65536 → ∃ p, Cells.find t.place (x.paFrame + i) = some p ∧ p.ctx = 0 ∧
          p.tier = 2 ∧ p.dframe = i ∧ p.pin = true)))) ∧
  (∀ (s : State) (i : Instr), i ∈ [Instr.standby, Instr.thermalTrip] → ∃ t : State, exec i s = .next t ∧ t.power = .off ∧
    t.waves = [] ∧ t.ctxs = [] ∧ t.place = [] ∧ t.flash = s.flash ∧ t.ownTable = s.ownTable ∧
    ∀ a, Cells.get Memory.default t.mem a =
      if a < 3 * 2 ^ 46 then Memory.default else Cells.get Memory.default s.mem a)

/-- Clocks, measurements, device errors and the host (R446 to R450, R454, R456, R457, 06_memory_access.md R166): a tick
moves each clock's step up when a monitor is hot and down when all are cool, between its cap and its top, and 115 °C ends as
the thermal trip; a corrected error is counted, an uncorrectable one is counted, poisons its line, and ends a migration that
copies into its frame; a layer is mapped out once; a read of MEM_ERR clears it. The host reads and writes memory that is
backed and not locked, and BAR 2; after a failed boot it reaches BAR 0 alone. The layer of a device frame is the model's
choice (log entry 5). -/
def Obligations.DevicesAndHost : Prop :=
  (∀ (s : State) (m : Readings),
    let p := s.plat
    let limit := Nat.min p.powerLimit 3800
    let hotOf (ts : List Int) : Prop := ∃ t ∈ ts, ((4 * p.tlim : Nat) : Int) < t
    let coolOf (ts : List Int) : Prop := ∀ t ∈ ts, t < 4 * (p.tlim : Int) - 12
    let b := m.temps.take 192
    let l := (m.temps.drop 192).take 16
    ((∃ x ∈ m.temps, 460 ≤ x) → exec (.clockTick m) s = exec .thermalTrip s) ∧
    ((∀ x ∈ m.temps, x < 460) → ∃ t : State, exec (.clockTick m) s = .next t ∧ ({ t with plat := s.plat } : State) = s ∧
      (hotOf b ∨ limit < m.pkg → t.plat.stepNow = Max.max p.cap (Min.min (p.stepNow + 1) 20)) ∧
      (¬ (hotOf b ∨ limit < m.pkg) → coolOf b ∧ m.pkg + 100 < limit → t.plat.stepNow = Max.max p.cap (p.stepNow - 1)) ∧
      (¬ (hotOf b ∨ limit < m.pkg) → ¬ (coolOf b ∧ m.pkg + 100 < limit) → t.plat.stepNow = Max.max p.cap p.stepNow) ∧
      (hotOf l → t.plat.tstepNow = Max.max p.tcap (Min.min (p.tstepNow + 1) 16)) ∧
      (¬ hotOf l → coolOf l → t.plat.tstepNow = Max.max p.tcap (p.tstepNow - 1)) ∧
      (¬ hotOf l → ¬ coolOf l → t.plat.tstepNow = Max.max p.tcap p.tstepNow))) ∧
  (∀ (s : State) (n : Nat), exec (.getMeasurements n) s =
    .next (s.send (if s.power ≠ .running then .hostRefused else if n = 1 then
      .measurement s.plat.digest (Config.signature s.plat.identity.sealedKey s.tick s.plat.digest) else .measurementError))) ∧
  (∀ (s : State) (i : Nat → Nat → EccResult → Instr) (tier d n : Nat),
    (i, tier) ∈ [(Instr.hbmReply, 1), (Instr.lpddrReply, 2), (Instr.cxlMemResponse, 3)] → n < 512 →
    exec (i d n .clean) s = .next s ∧
    (s.plat.memCfg.toNat % 65536 = 0 → ∃ t : State, exec (i d n .corrected) s = .next t ∧
      t.plat.errCE = (s.plat.errCE + 1) % 2 ^ 32 ∧ t.plat.errUE = s.plat.errUE ∧ ({ t with plat := s.plat } : State) = s) ∧
    (∃ t : State, exec (i d n .uncorrectable) s = .next t ∧
      t.plat.errUE = (s.plat.errUE + 1) % 2 ^ 32 ∧ t.plat.errCE = s.plat.errCE ∧
      (∀ f e, Cells.find s.place f = some e → e.copying = true → e.otherTier = tier → e.otherFrame = d →
        .migrationAbort f ∈ t.agenda ∧ ∃ p, Cells.find t.place f = some p ∧ p.mig = .aborted) ∧
      ((∀ line, s.lineBehind tier d n = some line → s.lineOwned line = false) →
        (∀ x ∈ s.place, x.2.copying = true → (x.2.otherTier, x.2.otherFrame) ≠ (tier, d)) →
        (s.plat.memEvqProd + s.hidden .memory + 2 ^ 32 - s.plat.memEvqCons) % 2 ^ 32 = queueSize s.plat.memEvq →
        t.metaOf (deviceLine tier d n) = { s.metaOf (deviceLine tier d n) with poison := true } ∧ t.mem = s.mem ∧
        ∀ k, k ≠ deviceLine tier d n → t.metaOf k = s.metaOf k))) ∧
  (∀ (s : State) (stack layer : Nat), stack < 8 → layer < 16 →
    (s.plat.layerOut stack layer = true → exec (.mapout stack layer) s = .next s) ∧
    (s.plat.layerOut stack layer = false → s.plat.evacuating = [] → ∃ t : State, exec (.mapout stack layer) s = .next t ∧
      t.plat.layerOut stack layer = true ∧ (∀ a b, a < 8 → b < 16 → (a, b) ≠ (stack, layer) →
        t.plat.layerOut a b = s.plat.layerOut a b))) ∧
  (∀ s : State, ∃ t : State, exec .memErrRead s = .next t ∧ t.plat = { s.plat with errCE := 0, errUE := 0 } ∧
    t.out = s.out ++ [.registerValue (BitVec.ofNat 64 (s.plat.errCE * 2 ^ 32 + s.plat.errUE))] ∧
    ({ t with plat := s.plat, out := s.out } : State) = s) ∧
  (∀ (s : State) (r : HostReq), s.power ≠ .running → (s.power = .failed → ∀ o, r ≠ .bar0Read o) →
    exec (.hostAccess r) s = .next (s.send .hostRefused)) ∧
  (∀ (s : State), s.power = .failed →
    exec (.hostAccess (.bar0Read 0)) s = .next (s.send (.registerValue (BitVec.ofNat 64 s.plat.bootStatus)))) ∧
  (∀ (s : State), s.power = .running → s.hostIn = [] →
    let gives (r : HostReq) (m : OutMsg) : Prop := ∃ t : State, exec (.hostAccess r) s = .next t ∧ t.mem = s.mem ∧
      t.out = s.out ++ [m] ∧ t.hostIn = []
    (∀ pa len ns, s.hostReaches pa len = false → gives (.read pa len ns) .hostRefused) ∧
    (∀ pa len, s.hostReaches pa len = true → s.hostMissing pa len = none → (∀ a, s.shutterOf a = none) →
      gives (.read pa len false) (.hostData (s.peek pa len)) ∧
      gives (.read pa len true) (.hostData ((List.range len).map (fun i => s.noSnoopByte (pa + i))))) ∧
    (∀ pa bs ns, s.hostReaches pa bs.length = false → gives (.write pa bs ns) .hostRefused) ∧
    (∀ pa bs d, s.hostReaches pa bs.length = true → s.hostMissing pa bs.length = none → (∀ a, s.shutterOf a = none) →
      pa % 128 + bs.length ≤ 128 → s.device pa = some d → (s.metaOf (d / 128)).poison = false →
      (∃ t : State, exec (.hostAccess (.write pa bs false)) s = .next t ∧ t.hostIn = [] ∧ t.ctxs = s.ctxs ∧
        (∀ k, t.OthersStand s k) ∧ ∀ a, Cells.get Memory.default t.mem a =
          if d ≤ a ∧ a < d + bs.length then bs.getD (a - d) 0 else Cells.get Memory.default s.mem a) ∧
      (∃ t : State, exec (.hostAccess (.write pa bs true)) s = .next t ∧ t.cache = s.cache ∧
        (s.lineOwned (pa / 128) = true → t.mem = s.mem) ∧
        (s.lineOwned (pa / 128) = false → Cells.find s.devOld (d / 128) = none → ∀ a, Cells.get Memory.default t.mem a =
          if d ≤ a ∧ a < d + bs.length then bs.getD (a - d) 0 else Cells.get Memory.default s.mem a))) ∧
    gives (.bar0Read 0) (.registerValue (BitVec.ofNat 64 s.plat.bootStatus)) ∧
    (∀ c q k, c < 256 → q < 64 → k < 9 →
      gives (.bar2Read (c * 65536 + q * 256 + k * 8)) (.registerValue (((s.ctxAt c).queueAt q).read k)) ∧
      ∀ v, exec (.hostAccess (.bar2Write (c * 65536 + q * 256 + k * 8) v)) s =
        .next { s.queueWrite c q k v true with hostIn := [] }))

/-! ### Encoding and stepping (03_encoding.md, 05_wave.md) -/

/-- Decoding and encoding agree (R47, R49, R61, R62, R75): the bytes that the encoder gives a well-formed instruction of
form F, X or D decode to that instruction, with every operand as it was, and to the bytes behind it; and a word and its
extension are what the encoder gives the instruction that they decode to. -/
def Obligations.EncodeDecode : Prop :=
  (∀ (i : Instr) (bs : List Byte), i.wf = true → (encode i).isSome → decode (encodeBytes i ++ bs) = .ok (i, bs)) ∧
  (∀ w x : DWord, encode (decodeWords w x) = some (w, if wordSize w = 16 then some x else none))

/-- The words that the spec works out (03_encoding.md, and the examples of chapters 04, 06, 09, 16, 18 and 19) decode to
their instructions: an add, an fadd, a mov with its literal, a D word, a cmp, an ld, an st with its literal, an atom, a
waitsig, an accal, a qmc, an amask and an sgrow; a word of form 0b11 and one of opcode 0 decode to no assigned instruction.
-/
def Obligations.DecodeWords : Prop :=
  let f0 : FWord := { g := 0, gn := false, fd := 0, fa := 0, fb := 0, fc := 0, ec := false, eb := false, ea := false, ty := 0
                      md := 0, ext := none }
  decodeWords 0x0020E040100C0008 0 = .add { f0 with g := 3, gn := true, fd := 4, fa := 2, fb := 3, ty := 2 } ∧
  decodeWords 0x0800008045CC0009 0 = .fadd { f0 with fd := 8, fa := 8, fb := 0x173, ty := 2, md := 1 } ∧
  decodeWords 0x8440006E08000028 0x12345678 = .mov { f0 with fd := 6, fa := 0x1C1, ty := 10, ext := some 0x12345678 } ∧
  decodeWords 0x4080202824014160 0 = .dWord
    { slot0 := { dop := 0x01, neg := false, grd := 0, vd := 4, vs := 5, rsv := 0 }
      slot1 := { dop := 0x12, neg := false, grd := 0, vd := 10, vs := 11, rsv := 0 }, rsv := 0 } ∧
  decodeWords 0x0420005015000408 0 = .cmp { f0 with fd := 5, fa := 2, fb := 0x140, fc := 2, ty := 2 } ∧
  decodeWords 0x180000C05010082A 0 = .ld { f0 with fd := 12, fa := 10, fb := 4, fc := 4, ty := 10, md := 2 } ∧
  decodeWords 0x9820004827052028 0x40 =
    .st { f0 with fd := 4, fa := 0x104, fb := 0x1C1, fc := 0x90, ty := 10, ext := some 0x40 } ∧
  decodeWords 0x2000005835040008 0 = .atom { f0 with fd := 5, fa := 0x106, fb := 0x141, ty := 2 } ∧
  decodeWords 0x392010882416181C 0 = .waitsig { f0 with fd := 0x108, fa := 0x104, fb := 0x105, fc := 0x10C, ty := 7 } ∧
  decodeWords 0x294010CA18000000 0 = .accal { f0 with fd := 0x10C, fa := 0x143 } ∧
  decodeWords 0x2A00C01A040DFE1E 0 =
    .qmc { f0 with g := 3, fd := 1, fa := 0x140, fb := 0x103, fc := 0xFF, ty := 7, md := 2 } ∧
  decodeWords 0x2A600008C4247200 0 = .amask { f0 with fd := 0, fa := 0x118, fb := 0x109, fc := 0x39 } ∧
  decodeWords 0x35801148AD040000 0 = .sgrow { f0 with fd := 0x114, fa := 0x115, fb := 0x141 } ∧
  decodeWords 0xC000000000000000 0 = .unassignedOpcode 0xC000000000000000 none ∧
  decodeWords 0 0 = .unassignedOpcode 0 none

/-- A step runs the instruction decoded at the program counter: where a wave of one group moves next, the bytes that it
fetches at its program counter from memory or from its instruction cache, one word or a word and its extension, decode to an
instruction, and that instruction does not wait, the step is its execution, the end of the turn, what settles behind a step,
and the passage of time. The turn, the passage of time and what an instruction cache keeps are free values of the model (log
entries 11, 12 and 15). -/
def Obligations.StepRunsDecoded : Prop :=
  ∀ (s₀ t : State) (core pane k pa : Nat) (ks : List Nat) (g : Group) (i : Instr) (rest : List Byte),
    let s := s₀.meetHalt k
    let w := s.waveAt k
    let bytes (n va at' : Nat) : List Byte := match s.cachedWord w n va at' with
      | none => s.peek at' 8
      | some v => toBytes 8 v.toNat
    let kept := (s.tlbFill w.ctx w.core g.pc.toNat).keepFetched w 0 g.pc.toNat
    let word := BitVec.ofNat 64 (ofBytes (bytes 0 g.pc.toNat pa))
    let ends (r : State) : Host.Outcome State Fault Refusal := .next
      ((((if t.last = .trapped then r else r.starve k []).setReasons k []).endTurn w).settle exec).pass
    s₀.nextMove = some (.pane core pane) → s₀.paneWaves core pane = k :: ks → w.ordered = [g] →
    s.fetchPlace w.ctx w.core g.pc.toNat = .ok pa → t.last ≠ .blocked →
    (decode (bytes 0 g.pc.toNat pa ++ rest) = .ok (i, rest) →
      exec i { kept with cur := some { wave := k, pc := g.pc, lanes := g.lanes, word := word, ext := none } } = .next t →
      step s₀ = ends t) ∧
    (∀ pb, s.fetchPlace w.ctx w.core (g.pc + 8).toNat = .ok pb →
      let more := bytes 1 (g.pc + 8).toNat pb
      decode (bytes 0 g.pc.toNat pa ++ (more ++ rest)) = .ok (i, rest) →
      exec i { kept.keepFetched w 1 (g.pc + 8).toNat with
        cur := some { wave := k, pc := g.pc, lanes := g.lanes, word := word, ext := some (BitVec.ofNat 64 (ofBytes more)) } } = .next t →
      step s₀ = ends t)

/-- No step of the machine ends in a fault or a refusal: from every state a step answers a next state. -/
def Obligations.EveryStepCompletes : Prop := ∀ s : State, Completes (step s)

/-- Memory keeps its form at every step: from a state whose memory lists rising addresses and no byte equal to what an
unlisted address reads as (the model's own form of the memories of 01_package.md R18; that such a byte is 0 is its choice,
log entry 2), a step leads to such a state. -/
def Obligations.MemoryStaysCanonical : Prop := ∀ s t : State, s.MemOk → step s = .next t → t.MemOk

/-- A package whose boot has failed, or that is off (22_platform.md R452, R455), with no wave, no owed event and no WAKE on
its way, stays so at every step, and its tier-C memory and its image stay as they are. -/
def Obligations.StoppedStaysStopped : Prop :=
  let stopped (s : State) : Prop :=
    (s.power = .failed ∨ s.power = .off) ∧ s.waves = [] ∧ s.agenda = [] ∧ Instr.wake ∉ s.inbox
  ∀ s t : State, stopped s → step s = .next t → stopped t ∧ t.flash = s.flash ∧
    ∀ a, 3 * 2 ^ 46 ≤ a → Cells.get Memory.default t.mem a = Cells.get Memory.default s.mem a

/-- What reset leaves (22_platform.md R451, R452, 08_context.md R201, 20_link.md R431, R433): every context EMPTY, no wave,
every port and node link DOWN, every session IDLE, no memory listed; without a configuration image the first step ends boot
with status 1. The empty memory and the absence of an image are the model's State.reset (log entries 1, 2 and 10). -/
def Obligations.ResetState : Prop :=
  (∀ c, (State.reset.ctxAt c).st = .empty) ∧ State.reset.waves = [] ∧ State.reset.mem = [] ∧ State.reset.MemOk ∧
  (∀ p, (State.reset.portAt p).st = .down) ∧ (∀ n, (State.reset.nodeAt n).st = .down) ∧
  (∀ i, (State.reset.sessionAt i).st = .idle) ∧
  ∃ t : State, step State.reset = .next t ∧ t.power = .failed ∧ t.plat.bootStatus = 1 ∧ t.waves = [] ∧ t.agenda = []
end

