-- ==== Sys2Proof/Laws/Dispatch.lean ====
section
/-! SUPPORT. What the dispatch answers for each instruction: its meaning. -/

namespace Sys2Proof.Machine

open Sys2Proof

@[simp] theorem exec_add {s : State} {f} : exec (.add f) s = execAdd f s := rfl
@[simp] theorem exec_sub {s : State} {f} : exec (.sub f) s = execSub f s := rfl
@[simp] theorem exec_mul {s : State} {f} : exec (.mul f) s = execMul f s := rfl
@[simp] theorem exec_mulhi {s : State} {f} : exec (.mulhi f) s = execMulhi f s := rfl
@[simp] theorem exec_mad {s : State} {f} : exec (.mad f) s = execMad f s := rfl
@[simp] theorem exec_madhi {s : State} {f} : exec (.madhi f) s = execMadhi f s := rfl
@[simp] theorem exec_div {s : State} {f} : exec (.div f) s = execDiv f s := rfl
@[simp] theorem exec_rem {s : State} {f} : exec (.rem f) s = execRem f s := rfl
@[simp] theorem exec_min {s : State} {f} : exec (.min f) s = execMin f s := rfl
@[simp] theorem exec_max {s : State} {f} : exec (.max f) s = execMax f s := rfl
@[simp] theorem exec_abs {s : State} {f} : exec (.abs f) s = execAbs f s := rfl
@[simp] theorem exec_neg {s : State} {f} : exec (.neg f) s = execNeg f s := rfl
@[simp] theorem exec_addc {s : State} {f} : exec (.addc f) s = execAddc f s := rfl
@[simp] theorem exec_subb {s : State} {f} : exec (.subb f) s = execSubb f s := rfl
@[simp] theorem exec_lea {s : State} {f} : exec (.lea f) s = execLea f s := rfl
@[simp] theorem exec_and {s : State} {f} : exec (.and f) s = execAnd f s := rfl
@[simp] theorem exec_or {s : State} {f} : exec (.or f) s = execOr f s := rfl
@[simp] theorem exec_xor {s : State} {f} : exec (.xor f) s = execXor f s := rfl
@[simp] theorem exec_andn {s : State} {f} : exec (.andn f) s = execAndn f s := rfl
@[simp] theorem exec_not {s : State} {f} : exec (.not f) s = execNot f s := rfl
@[simp] theorem exec_shl {s : State} {f} : exec (.shl f) s = execShl f s := rfl
@[simp] theorem exec_shr {s : State} {f} : exec (.shr f) s = execShr f s := rfl
@[simp] theorem exec_sar {s : State} {f} : exec (.sar f) s = execSar f s := rfl
@[simp] theorem exec_rot {s : State} {f} : exec (.rot f) s = execRot f s := rfl
@[simp] theorem exec_bfe {s : State} {f} : exec (.bfe f) s = execBfe f s := rfl
@[simp] theorem exec_bfi {s : State} {f} : exec (.bfi f) s = execBfi f s := rfl
@[simp] theorem exec_popc {s : State} {f} : exec (.popc f) s = execPopc f s := rfl
@[simp] theorem exec_clz {s : State} {f} : exec (.clz f) s = execClz f s := rfl
@[simp] theorem exec_ctz {s : State} {f} : exec (.ctz f) s = execCtz f s := rfl
@[simp] theorem exec_brev {s : State} {f} : exec (.brev f) s = execBrev f s := rfl
@[simp] theorem exec_prmt {s : State} {f} : exec (.prmt f) s = execPrmt f s := rfl
@[simp] theorem exec_sel {s : State} {f} : exec (.sel f) s = execSel f s := rfl
@[simp] theorem exec_cmp {s : State} {f} : exec (.cmp f) s = execCmp f s := rfl
@[simp] theorem exec_mov {s : State} {f} : exec (.mov f) s = execMov f s := rfl
@[simp] theorem exec_cvt {s : State} {f} : exec (.cvt f) s = execCvt f s := rfl
@[simp] theorem exec_fadd {s : State} {f} : exec (.fadd f) s = execFadd f s := rfl
@[simp] theorem exec_fsub {s : State} {f} : exec (.fsub f) s = execFsub f s := rfl
@[simp] theorem exec_fmul {s : State} {f} : exec (.fmul f) s = execFmul f s := rfl
@[simp] theorem exec_fma {s : State} {f} : exec (.fma f) s = execFma f s := rfl
@[simp] theorem exec_fmin {s : State} {f} : exec (.fmin f) s = execFmin f s := rfl
@[simp] theorem exec_fmax {s : State} {f} : exec (.fmax f) s = execFmax f s := rfl
@[simp] theorem exec_fcmp {s : State} {f} : exec (.fcmp f) s = execFcmp f s := rfl
@[simp] theorem exec_fcls {s : State} {f} : exec (.fcls f) s = execFcls f s := rfl
@[simp] theorem exec_frcp {s : State} {f} : exec (.frcp f) s = execFrcp f s := rfl
@[simp] theorem exec_frsq {s : State} {f} : exec (.frsq f) s = execFrsq f s := rfl
@[simp] theorem exec_fsqrt {s : State} {f} : exec (.fsqrt f) s = execFsqrt f s := rfl
@[simp] theorem exec_fexp2 {s : State} {f} : exec (.fexp2 f) s = execFexp2 f s := rfl
@[simp] theorem exec_flog2 {s : State} {f} : exec (.flog2 f) s = execFlog2 f s := rfl
@[simp] theorem exec_fsin {s : State} {f} : exec (.fsin f) s = execFsin f s := rfl
@[simp] theorem exec_fcos {s : State} {f} : exec (.fcos f) s = execFcos f s := rfl
@[simp] theorem exec_ftanh {s : State} {f} : exec (.ftanh f) s = execFtanh f s := rfl
@[simp] theorem exec_frnd {s : State} {f} : exec (.frnd f) s = execFrnd f s := rfl
@[simp] theorem exec_fscl {s : State} {f} : exec (.fscl f) s = execFscl f s := rfl
@[simp] theorem exec_fcvt {s : State} {f} : exec (.fcvt f) s = execFcvt f s := rfl
@[simp] theorem exec_dot2 {s : State} {f} : exec (.dot2 f) s = execDot2 f s := rfl
@[simp] theorem exec_dot4 {s : State} {f} : exec (.dot4 f) s = execDot4 f s := rfl
@[simp] theorem exec_pfma {s : State} {f} : exec (.pfma f) s = execPfma f s := rfl
@[simp] theorem exec_padd {s : State} {f} : exec (.padd f) s = execPadd f s := rfl
@[simp] theorem exec_pmul {s : State} {f} : exec (.pmul f) s = execPmul f s := rfl
@[simp] theorem exec_pmax {s : State} {f} : exec (.pmax f) s = execPmax f s := rfl
@[simp] theorem exec_pand {s : State} {f} : exec (.pand f) s = execPand f s := rfl
@[simp] theorem exec_por {s : State} {f} : exec (.por f) s = execPor f s := rfl
@[simp] theorem exec_pxor {s : State} {f} : exec (.pxor f) s = execPxor f s := rfl
@[simp] theorem exec_pnot {s : State} {f} : exec (.pnot f) s = execPnot f s := rfl
@[simp] theorem exec_pmov {s : State} {f} : exec (.pmov f) s = execPmov f s := rfl
@[simp] theorem exec_pset {s : State} {f} : exec (.pset f) s = execPset f s := rfl
@[simp] theorem exec_pget {s : State} {f} : exec (.pget f) s = execPget f s := rfl
@[simp] theorem exec_ballot {s : State} {f} : exec (.ballot f) s = execBallot f s := rfl
@[simp] theorem exec_vany {s : State} {f} : exec (.vany f) s = execVany f s := rfl
@[simp] theorem exec_vall {s : State} {f} : exec (.vall f) s = execVall f s := rfl
@[simp] theorem exec_shfl {s : State} {f} : exec (.shfl f) s = execShfl f s := rfl
@[simp] theorem exec_redux {s : State} {f} : exec (.redux f) s = execRedux f s := rfl
@[simp] theorem exec_scan {s : State} {f} : exec (.scan f) s = execScan f s := rfl
@[simp] theorem exec_matchLanes {s : State} {f} : exec (.matchLanes f) s = execMatchLanes f s := rfl
@[simp] theorem exec_elect {s : State} {f} : exec (.elect f) s = execElect f s := rfl
@[simp] theorem exec_bcast {s : State} {f} : exec (.bcast f) s = execBcast f s := rfl
@[simp] theorem exec_dWord {s : State} {d} : exec (.dWord d) s = execDWord d s := rfl
@[simp] theorem exec_bra {s : State} {f} : exec (.bra f) s = execBra f s := rfl
@[simp] theorem exec_brx {s : State} {f} : exec (.brx f) s = execBrx f s := rfl
@[simp] theorem exec_call {s : State} {f} : exec (.call f) s = execCall f s := rfl
@[simp] theorem exec_ret {s : State} {f} : exec (.ret f) s = execRet f s := rfl
@[simp] theorem exec_exit {s : State} {f} : exec (.exit f) s = execExit f s := rfl
@[simp] theorem exec_region {s : State} {f} : exec (.region f) s = execRegion f s := rfl
@[simp] theorem exec_yield {s : State} {f} : exec (.yield f) s = execYield f s := rfl
@[simp] theorem exec_bkpt {s : State} {f} : exec (.bkpt f) s = execBkpt f s := rfl
@[simp] theorem exec_join {s : State} {f} : exec (.join f) s = execJoin f s := rfl
@[simp] theorem exec_leave {s : State} {f} : exec (.leave f) s = execLeave f s := rfl
@[simp] theorem exec_waitm {s : State} {f} : exec (.waitm f) s = execWaitm f s := rfl
@[simp] theorem exec_mset {s : State} {f} : exec (.mset f) s = execMset f s := rfl
@[simp] theorem exec_mop {s : State} {f} : exec (.mop f) s = execMop f s := rfl
@[simp] theorem exec_nop {s : State} {f} : exec (.nop f) s = execNop f s := rfl
@[simp] theorem exec_ld {s : State} {f} : exec (.ld f) s = execLd f s := rfl
@[simp] theorem exec_st {s : State} {f} : exec (.st f) s = execSt f s := rfl
@[simp] theorem exec_ldx {s : State} {f} : exec (.ldx f) s = execLdx f s := rfl
@[simp] theorem exec_stx {s : State} {f} : exec (.stx f) s = execStx f s := rfl
@[simp] theorem exec_pref {s : State} {f} : exec (.pref f) s = execPref f s := rfl
@[simp] theorem exec_cinv {s : State} {f} : exec (.cinv f) s = execCinv f s := rfl
@[simp] theorem exec_cwb {s : State} {f} : exec (.cwb f) s = execCwb f s := rfl
@[simp] theorem exec_stmap {s : State} {f} : exec (.stmap f) s = execStmap f s := rfl
@[simp] theorem exec_stunmap {s : State} {f} : exec (.stunmap f) s = execStunmap f s := rfl
@[simp] theorem exec_stflush {s : State} {f} : exec (.stflush f) s = execStflush f s := rfl
@[simp] theorem exec_kvld {s : State} {f} : exec (.kvld f) s = execKvld f s := rfl
@[simp] theorem exec_atom {s : State} {f} : exec (.atom f) s = execAtom f s := rfl
@[simp] theorem exec_atomSc {s : State} {f} : exec (.atomSc f) s = execAtomSc f s := rfl
@[simp] theorem exec_red {s : State} {f} : exec (.red f) s = execRed f s := rfl
@[simp] theorem exec_fence {s : State} {f} : exec (.fence f) s = execFence f s := rfl
@[simp] theorem exec_waitc {s : State} {f} : exec (.waitc f) s = execWaitc f s := rfl
@[simp] theorem exec_cpy {s : State} {f} : exec (.cpy f) s = execCpy f s := rfl
@[simp] theorem exec_cpyt {s : State} {f} : exec (.cpyt f) s = execCpyt f s := rfl
@[simp] theorem exec_gath {s : State} {f} : exec (.gath f) s = execGath f s := rfl
@[simp] theorem exec_tmset {s : State} {f} : exec (.tmset f) s = execTmset f s := rfl
@[simp] theorem exec_hacq {s : State} {f} : exec (.hacq f) s = execHacq f s := rfl
@[simp] theorem exec_hwait {s : State} {f} : exec (.hwait f) s = execHwait f s := rfl
@[simp] theorem exec_hrel {s : State} {f} : exec (.hrel f) s = execHrel f s := rfl
@[simp] theorem exec_tagq {s : State} {f} : exec (.tagq f) s = execTagq f s := rfl
@[simp] theorem exec_mxa {s : State} {f} : exec (.mxa f) s = execMxa f s := rfl
@[simp] theorem exec_mxap {s : State} {f} : exec (.mxap f) s = execMxap f s := rfl
@[simp] theorem exec_accal {s : State} {f} : exec (.accal f) s = execAccal f s := rfl
@[simp] theorem exec_accfr {s : State} {f} : exec (.accfr f) s = execAccfr f s := rfl
@[simp] theorem exec_acczr {s : State} {f} : exec (.acczr f) s = execAcczr f s := rfl
@[simp] theorem exec_accdr {s : State} {f} : exec (.accdr f) s = execAccdr f s := rfl
@[simp] theorem exec_accrd {s : State} {f} : exec (.accrd f) s = execAccrd f s := rfl
@[simp] theorem exec_accwr {s : State} {f} : exec (.accwr f) s = execAccwr f s := rfl
@[simp] theorem exec_qmc {s : State} {f} : exec (.qmc f) s = execQmc f s := rfl
@[simp] theorem exec_smx {s : State} {f} : exec (.smx f) s = execSmx f s := rfl
@[simp] theorem exec_cred {s : State} {f} : exec (.cred f) s = execCred f s := rfl
@[simp] theorem exec_amask {s : State} {f} : exec (.amask f) s = execAmask f s := rfl
@[simp] theorem exec_cjoin {s : State} {f} : exec (.cjoin f) s = execCjoin f s := rfl
@[simp] theorem exec_cleave {s : State} {f} : exec (.cleave f) s = execCleave f s := rfl
@[simp] theorem exec_cqry {s : State} {f} : exec (.cqry f) s = execCqry f s := rfl
@[simp] theorem exec_bmakeNew {s : State} {f} : exec (.bmakeNew f) s = execBmakeNew f s := rfl
@[simp] theorem exec_bmakeDrop {s : State} {f} : exec (.bmakeDrop f) s = execBmakeDrop f s := rfl
@[simp] theorem exec_barr {s : State} {f} : exec (.barr f) s = execBarr f s := rfl
@[simp] theorem exec_bwait {s : State} {f} : exec (.bwait f) s = execBwait f s := rfl
@[simp] theorem exec_barw {s : State} {f} : exec (.barw f) s = execBarw f s := rfl
@[simp] theorem exec_sstep {s : State} {f} : exec (.sstep f) s = execSstep f s := rfl
@[simp] theorem exec_launch {s : State} {f} : exec (.launch f) s = execLaunch f s := rfl
@[simp] theorem exec_joink {s : State} {f} : exec (.joink f) s = execJoink f s := rfl
@[simp] theorem exec_kqQuery {s : State} {f} : exec (.kqQuery f) s = execKqQuery f s := rfl
@[simp] theorem exec_kqKill {s : State} {f} : exec (.kqKill f) s = execKqKill f s := rfl
@[simp] theorem exec_balloc {s : State} {f} : exec (.balloc f) s = execBalloc f s := rfl
@[simp] theorem exec_bfree {s : State} {f} : exec (.bfree f) s = execBfree f s := rfl
@[simp] theorem exec_seqnew {s : State} {f} : exec (.seqnew f) s = execSeqnew f s := rfl
@[simp] theorem exec_seqdrop {s : State} {f} : exec (.seqdrop f) s = execSeqdrop f s := rfl
@[simp] theorem exec_seqfork {s : State} {f} : exec (.seqfork f) s = execSeqfork f s := rfl
@[simp] theorem exec_kvapp {s : State} {f} : exec (.kvapp f) s = execKvapp f s := rfl
@[simp] theorem exec_kvpub {s : State} {f} : exec (.kvpub f) s = execKvpub f s := rfl
@[simp] theorem exec_seqlen {s : State} {f} : exec (.seqlen f) s = execSeqlen f s := rfl
@[simp] theorem exec_poolq {s : State} {f} : exec (.poolq f) s = execPoolq f s := rfl
@[simp] theorem exec_snapNew {s : State} {f} : exec (.snapNew f) s = execSnapNew f s := rfl
@[simp] theorem exec_snapNest {s : State} {f} : exec (.snapNest f) s = execSnapNest f s := rfl
@[simp] theorem exec_sacc {s : State} {f} : exec (.sacc f) s = execSacc f s := rfl
@[simp] theorem exec_srej {s : State} {f} : exec (.srej f) s = execSrej f s := rfl
@[simp] theorem exec_sqry {s : State} {f} : exec (.sqry f) s = execSqry f s := rfl
@[simp] theorem exec_sgrow {s : State} {f} : exec (.sgrow f) s = execSgrow f s := rfl
@[simp] theorem exec_sgrowTrim {s : State} {f} : exec (.sgrowTrim f) s = execSgrowTrim f s := rfl
@[simp] theorem exec_pin {s : State} {f} : exec (.pin f) s = execPin f s := rfl
@[simp] theorem exec_unpin {s : State} {f} : exec (.unpin f) s = execUnpin f s := rfl
@[simp] theorem exec_hint {s : State} {f} : exec (.hint f) s = execHint f s := rfl
@[simp] theorem exec_pgqry {s : State} {f} : exec (.pgqry f) s = execPgqry f s := rfl
@[simp] theorem exec_pgown {s : State} {f} : exec (.pgown f) s = execPgown f s := rfl
@[simp] theorem exec_recode {s : State} {f} : exec (.recode f) s = execRecode f s := rfl
@[simp] theorem exec_trap {s : State} {f} : exec (.trap f) s = execTrap f s := rfl
@[simp] theorem exec_tret {s : State} {f} : exec (.tret f) s = execTret f s := rfl
@[simp] theorem exec_sysr {s : State} {f} : exec (.sysr f) s = execSysr f s := rfl
@[simp] theorem exec_sysw {s : State} {f} : exec (.sysw f) s = execSysw f s := rfl
@[simp] theorem exec_haltStop {s : State} {f} : exec (.haltStop f) s = execHaltStop f s := rfl
@[simp] theorem exec_haltGo {s : State} {f} : exec (.haltGo f) s = execHaltGo f s := rfl
@[simp] theorem exec_tlbinv {s : State} {f} : exec (.tlbinv f) s = execTlbinv f s := rfl
@[simp] theorem exec_icinv {s : State} {f} : exec (.icinv f) s = execIcinv f s := rfl
@[simp] theorem exec_sig {s : State} {f} : exec (.sig f) s = execSig f s := rfl
@[simp] theorem exec_waitsig {s : State} {f} : exec (.waitsig f) s = execWaitsig f s := rfl
@[simp] theorem exec_qpush {s : State} {f} : exec (.qpush f) s = execQpush f s := rfl
@[simp] theorem exec_put {s : State} {f} : exec (.put f) s = execPut f s := rfl
@[simp] theorem exec_get {s : State} {f} : exec (.get f) s = execGet f s := rfl
@[simp] theorem exec_coll {s : State} {f} : exec (.coll f) s = execColl f s := rfl
@[simp] theorem exec_linkq {s : State} {f} : exec (.linkq f) s = execLinkq f s := rfl
@[simp] theorem exec_unassignedOpcode {s : State} {w} {ext} : exec (.unassignedOpcode w ext) s = execUnassignedOpcode w ext s := rfl
@[simp] theorem exec_registerFill {s : State} {fill} : exec (.registerFill fill) s = execRegisterFill fill s := rfl
@[simp] theorem exec_engineOpRetire {s : State} {op} : exec (.engineOpRetire op) s = execEngineOpRetire op s := rfl
@[simp] theorem exec_waveEnterActive {s : State} {core} {pane} : exec (.waveEnterActive core pane) s = execWaveEnterActive core pane s := rfl
@[simp] theorem exec_dispatchChoose {s : State} : exec .dispatchChoose s = execDispatchChoose s := rfl
@[simp] theorem exec_blockPlace {s : State} {die} : exec (.blockPlace die) s = execBlockPlace die s := rfl
@[simp] theorem exec_prologue {s : State} {block} : exec (.prologue block) s = execPrologue block s := rfl
@[simp] theorem exec_preemptComplete {s : State} {ctx} : exec (.preemptComplete ctx) s = execPreemptComplete ctx s := rfl
@[simp] theorem exec_destroyComplete {s : State} {ctx} : exec (.destroyComplete ctx) s = execDestroyComplete ctx s := rfl
@[simp] theorem exec_entryAccept {s : State} {ctx} {queue} : exec (.entryAccept ctx queue) s = execEntryAccept ctx queue s := rfl
@[simp] theorem exec_entryLaunch {s : State} {ctx} {queue} {hseq} : exec (.entryLaunch ctx queue hseq) s = execEntryLaunch ctx queue hseq s := rfl
@[simp] theorem exec_entrySignal {s : State} {ctx} {queue} {hseq} : exec (.entrySignal ctx queue hseq) s = execEntrySignal ctx queue hseq s := rfl
@[simp] theorem exec_entryWait {s : State} {ctx} {queue} {hseq} : exec (.entryWait ctx queue hseq) s = execEntryWait ctx queue hseq s := rfl
@[simp] theorem exec_entryNop {s : State} {ctx} {queue} {hseq} : exec (.entryNop ctx queue hseq) s = execEntryNop ctx queue hseq s := rfl
@[simp] theorem exec_map {s : State} {frame} {ctx} {tier} {shared} {dframe} : exec (.map frame ctx tier shared dframe) s = execMap frame ctx tier shared dframe s := rfl
@[simp] theorem exec_unmap {s : State} {frame} : exec (.unmap frame) s = execUnmap frame s := rfl
@[simp] theorem exec_move {s : State} {frame} {tier} : exec (.move frame tier) s = execMove frame tier s := rfl
@[simp] theorem exec_take {s : State} {frame} : exec (.take frame) s = execTake frame s := rfl
@[simp] theorem exec_migrationLineCopy {s : State} {frame} : exec (.migrationLineCopy frame) s = execMigrationLineCopy frame s := rfl
@[simp] theorem exec_migrationCommit {s : State} {frame} : exec (.migrationCommit frame) s = execMigrationCommit frame s := rfl
@[simp] theorem exec_migrationRetire {s : State} {frame} : exec (.migrationRetire frame) s = execMigrationRetire frame s := rfl
@[simp] theorem exec_migrationAbort {s : State} {frame} : exec (.migrationAbort frame) s = execMigrationAbort frame s := rfl
@[simp] theorem exec_ownershipRelease {s : State} {frame} : exec (.ownershipRelease frame) s = execOwnershipRelease frame s := rfl
@[simp] theorem exec_handoverComplete {s : State} {frame} : exec (.handoverComplete frame) s = execHandoverComplete frame s := rfl
@[simp] theorem exec_gets {s : State} {agent} {line} : exec (.gets agent line) s = execGets agent line s := rfl
@[simp] theorem exec_getx {s : State} {agent} {line} : exec (.getx agent line) s = execGetx agent line s := rfl
@[simp] theorem exec_upg {s : State} {agent} {line} : exec (.upg agent line) s = execUpg agent line s := rfl
@[simp] theorem exec_puts {s : State} {agent} {line} : exec (.puts agent line) s = execPuts agent line s := rfl
@[simp] theorem exec_putx {s : State} {agent} {msg} : exec (.putx agent msg) s = execPutx agent msg s := rfl
@[simp] theorem exec_wbk {s : State} {agent} {msg} : exec (.wbk agent msg) s = execWbk agent msg s := rfl
@[simp] theorem exec_iack {s : State} {agent} {line} : exec (.iack agent line) s = execIack agent line s := rfl
@[simp] theorem exec_rdat {s : State} {agent} {msg} : exec (.rdat agent msg) s = execRdat agent msg s := rfl
@[simp] theorem exec_rack {s : State} {agent} {line} : exec (.rack agent line) s = execRack agent line s := rfl
@[simp] theorem exec_dats {s : State} {agent} {msg} : exec (.dats agent msg) s = execDats agent msg s := rfl
@[simp] theorem exec_datx {s : State} {agent} {msg} : exec (.datx agent msg) s = execDatx agent msg s := rfl
@[simp] theorem exec_grnt {s : State} {agent} {line} : exec (.grnt agent line) s = execGrnt agent line s := rfl
@[simp] theorem exec_inv {s : State} {agent} {line} : exec (.inv agent line) s = execInv agent line s := rfl
@[simp] theorem exec_rcls {s : State} {agent} {line} : exec (.rcls agent line) s = execRcls agent line s := rfl
@[simp] theorem exec_rclx {s : State} {agent} {line} : exec (.rclx agent line) s = execRclx agent line s := rfl
@[simp] theorem exec_ackp {s : State} {agent} {line} : exec (.ackp agent line) s = execAckp agent line s := rfl
@[simp] theorem exec_noncachingRequest {s : State} {req} : exec (.noncachingRequest req) s = execNoncachingRequest req s := rfl
@[simp] theorem exec_shutterUpdate {s : State} {agent} {ctx} {shutter} : exec (.shutterUpdate agent ctx shutter) s = execShutterUpdate agent ctx shutter s := rfl
@[simp] theorem exec_copyTileWrite {s : State} {op} : exec (.copyTileWrite op) s = execCopyTileWrite op s := rfl
@[simp] theorem exec_mtxOperation {s : State} {core} {op} : exec (.mtxOperation core op) s = execMtxOperation core op s := rfl
@[simp] theorem exec_credRoundComplete {s : State} {cluster} {round} : exec (.credRoundComplete cluster round) s = execCredRoundComplete cluster round s := rfl
@[simp] theorem exec_shutterRestore {s : State} {ctx} {shutter} : exec (.shutterRestore ctx shutter) s = execShutterRestore ctx shutter s := rfl
@[simp] theorem exec_shutterScrub {s : State} {ctx} {shutter} : exec (.shutterScrub ctx shutter) s = execShutterScrub ctx shutter s := rfl
@[simp] theorem exec_shadowWaitProceed {s : State} {ctx} : exec (.shadowWaitProceed ctx) s = execShadowWaitProceed ctx s := rfl
@[simp] theorem exec_powerUp {s : State} : exec .powerUp s = execPowerUp s := rfl
@[simp] theorem exec_regionStallAbort {s : State} {core} : exec (.regionStallAbort core) s = execRegionStallAbort core s := rfl
@[simp] theorem exec_freePlaceReport {s : State} {die} : exec (.freePlaceReport die) s = execFreePlaceReport die s := rfl
@[simp] theorem exec_bind {s : State} {ctx} : exec (.bind ctx) s = execBind ctx s := rfl
@[simp] theorem exec_arm {s : State} {ctx} : exec (.arm ctx) s = execArm ctx s := rfl
@[simp] theorem exec_run {s : State} {ctx} : exec (.run ctx) s = execRun ctx s := rfl
@[simp] theorem exec_preempt {s : State} {ctx} : exec (.preempt ctx) s = execPreempt ctx s := rfl
@[simp] theorem exec_destroy {s : State} {ctx} : exec (.destroy ctx) s = execDestroy ctx s := rfl
@[simp] theorem exec_resume {s : State} {ctx} {agent} {slot} : exec (.resume ctx agent slot) s = execResume ctx agent slot s := rfl
@[simp] theorem exec_fail {s : State} {ctx} {agent} {slot} : exec (.fail ctx agent slot) s = execFail ctx agent slot s := rfl
@[simp] theorem exec_sliceExpiry {s : State} {ctx} : exec (.sliceExpiry ctx) s = execSliceExpiry ctx s := rfl
@[simp] theorem exec_ctxRectWrite {s : State} {ctx} {value} : exec (.ctxRectWrite ctx value) s = execCtxRectWrite ctx value s := rfl
@[simp] theorem exec_ctxFqPtrWrite {s : State} {ctx} {value} : exec (.ctxFqPtrWrite ctx value) s = execCtxFqPtrWrite ctx value s := rfl
@[simp] theorem exec_ctxDbgDataAccess {s : State} {ctx} {write} : exec (.ctxDbgDataAccess ctx write) s = execCtxDbgDataAccess ctx write s := rfl
@[simp] theorem exec_krnLimitWrite {s : State} {ctx} {value} : exec (.krnLimitWrite ctx value) s = execKrnLimitWrite ctx value s := rfl
@[simp] theorem exec_cohDiraWrite {s : State} {value} : exec (.cohDiraWrite value) s = execCohDiraWrite value s := rfl
@[simp] theorem exec_mtxErrRead {s : State} {core} : exec (.mtxErrRead core) s = execMtxErrRead core s := rfl
@[simp] theorem exec_memErrRead {s : State} : exec .memErrRead s = execMemErrRead s := rfl
@[simp] theorem exec_sysregWrite {s : State} {ctx} {num} {value} : exec (.sysregWrite ctx num value) s = execSysregWrite ctx num value s := rfl
@[simp] theorem exec_queueEnable {s : State} {ctx} {queue} : exec (.queueEnable ctx queue) s = execQueueEnable ctx queue s := rfl
@[simp] theorem exec_queuePause {s : State} {ctx} {queue} : exec (.queuePause ctx queue) s = execQueuePause ctx queue s := rfl
@[simp] theorem exec_queueResume {s : State} {ctx} {queue} : exec (.queueResume ctx queue) s = execQueueResume ctx queue s := rfl
@[simp] theorem exec_queueDisable {s : State} {ctx} {queue} : exec (.queueDisable ctx queue) s = execQueueDisable ctx queue s := rfl
@[simp] theorem exec_queueClear {s : State} {ctx} {queue} : exec (.queueClear ctx queue) s = execQueueClear ctx queue s := rfl
@[simp] theorem exec_queueDoorbellWrite {s : State} {ctx} {queue} {value} : exec (.queueDoorbellWrite ctx queue value) s = execQueueDoorbellWrite ctx queue value s := rfl
@[simp] theorem exec_queueCplConsWrite {s : State} {ctx} {queue} {value} : exec (.queueCplConsWrite ctx queue value) s = execQueueCplConsWrite ctx queue value s := rfl
@[simp] theorem exec_ssArm {s : State} {ctx} {group} : exec (.ssArm ctx group) s = execSsArm ctx group s := rfl
@[simp] theorem exec_ssReset {s : State} {ctx} {group} : exec (.ssReset ctx group) s = execSsReset ctx group s := rfl
@[simp] theorem exec_ssDone {s : State} {node} {tag} {stepNo} : exec (.ssDone node tag stepNo) s = execSsDone node tag stepNo s := rfl
@[simp] theorem exec_ssTimeout {s : State} {ctx} {group} : exec (.ssTimeout ctx group) s = execSsTimeout ctx group s := rfl
@[simp] theorem exec_watchdogExpiry {s : State} {ctx} : exec (.watchdogExpiry ctx) s = execWatchdogExpiry ctx s := rfl
@[simp] theorem exec_placementTick {s : State} : exec .placementTick s = execPlacementTick s := rfl
@[simp] theorem exec_recall {s : State} {dframe} {node} : exec (.recall dframe node) s = execRecall dframe node s := rfl
@[simp] theorem exec_ownTimeout {s : State} {frame} : exec (.ownTimeout frame) s = execOwnTimeout frame s := rfl
@[simp] theorem exec_shootdownRequest {s : State} {req} : exec (.shootdownRequest req) s = execShootdownRequest req s := rfl
@[simp] theorem exec_shootdownAck {s : State} {serial} {child} {count} {fenced} : exec (.shootdownAck serial child count fenced) s = execShootdownAck serial child count fenced s := rfl
@[simp] theorem exec_shootdownChildTimeout {s : State} {serial} {child} : exec (.shootdownChildTimeout serial child) s = execShootdownChildTimeout serial child s := rfl
@[simp] theorem exec_fencedNodeNotice {s : State} {node} : exec (.fencedNodeNotice node) s = execFencedNodeNotice node s := rfl
@[simp] theorem exec_poolCreate {s : State} {ctx} {pool} : exec (.poolCreate ctx pool) s = execPoolCreate ctx pool s := rfl
@[simp] theorem exec_poolReset {s : State} {ctx} {pool} : exec (.poolReset ctx pool) s = execPoolReset ctx pool s := rfl
@[simp] theorem exec_flitReceive {s : State} {port} {crcOk} {intact} {flit} : exec (.flitReceive port crcOk intact flit) s = execFlitReceive port crcOk intact flit s := rfl
@[simp] theorem exec_portLock {s : State} {port} : exec (.portLock port) s = execPortLock port s := rfl
@[simp] theorem exec_portTrainingDone {s : State} {port} : exec (.portTrainingDone port) s = execPortTrainingDone port s := rfl
@[simp] theorem exec_portTrainingTimeout {s : State} {port} : exec (.portTrainingTimeout port) s = execPortTrainingTimeout port s := rfl
@[simp] theorem exec_portLossOfLock {s : State} {port} : exec (.portLossOfLock port) s = execPortLossOfLock port s := rfl
@[simp] theorem exec_portRetrainDone {s : State} {port} : exec (.portRetrainDone port) s = execPortRetrainDone port s := rfl
@[simp] theorem exec_portRetrainTimeout {s : State} {port} : exec (.portRetrainTimeout port) s = execPortRetrainTimeout port s := rfl
@[simp] theorem exec_nodeHandshakeDone {s : State} {node} : exec (.nodeHandshakeDone node) s = execNodeHandshakeDone node s := rfl
@[simp] theorem exec_nodeTrainingTimeout {s : State} {node} : exec (.nodeTrainingTimeout node) s = execNodeTrainingTimeout node s := rfl
@[simp] theorem exec_nodeRetrainTimeout {s : State} {node} : exec (.nodeRetrainTimeout node) s = execNodeRetrainTimeout node s := rfl
@[simp] theorem exec_fabricAccess {s : State} {req} : exec (.fabricAccess req) s = execFabricAccess req s := rfl
@[simp] theorem exec_fabricAck {s : State} {node} {seq} {refused} : exec (.fabricAck node seq refused) s = execFabricAck node seq refused s := rfl
@[simp] theorem exec_fabricReply {s : State} {request} {reply} : exec (.fabricReply request reply) s = execFabricReply request reply s := rfl
@[simp] theorem exec_fenceBoundExpiry {s : State} {wave} : exec (.fenceBoundExpiry wave) s = execFenceBoundExpiry wave s := rfl
@[simp] theorem exec_collMessage {s : State} {msg} : exec (.collMessage msg) s = execCollMessage msg s := rfl
@[simp] theorem exec_lnkUnfence {s : State} {node} : exec (.lnkUnfence node) s = execLnkUnfence node s := rfl
@[simp] theorem exec_lnkDown {s : State} {node} : exec (.lnkDown node) s = execLnkDown node s := rfl
@[simp] theorem exec_lnkFence {s : State} {node} : exec (.lnkFence node) s = execLnkFence node s := rfl
@[simp] theorem exec_sessionOpen {s : State} {slot} : exec (.sessionOpen slot) s = execSessionOpen slot s := rfl
@[simp] theorem exec_sessionLock {s : State} {slot} : exec (.sessionLock slot) s = execSessionLock slot s := rfl
@[simp] theorem exec_sessionUnlock {s : State} {slot} : exec (.sessionUnlock slot) s = execSessionUnlock slot s := rfl
@[simp] theorem exec_sessionClose {s : State} {slot} : exec (.sessionClose slot) s = execSessionClose slot s := rfl
@[simp] theorem exec_keyupd {s : State} {slot} : exec (.keyupd slot) s = execKeyupd slot s := rfl
@[simp] theorem exec_spdmMessage {s : State} {slot} {msg} : exec (.spdmMessage slot msg) s = execSpdmMessage slot msg s := rfl
@[simp] theorem exec_getMeasurements {s : State} {index} : exec (.getMeasurements index) s = execGetMeasurements index s := rfl
@[simp] theorem exec_hostAccess {s : State} {req} : exec (.hostAccess req) s = execHostAccess req s := rfl
@[simp] theorem exec_hbmReply {s : State} {dframe} {line} {err} : exec (.hbmReply dframe line err) s = execHbmReply dframe line err s := rfl
@[simp] theorem exec_mapout {s : State} {stack} {layer} : exec (.mapout stack layer) s = execMapout stack layer s := rfl
@[simp] theorem exec_wake {s : State} : exec .wake s = execWake s := rfl
@[simp] theorem exec_standby {s : State} : exec .standby s = execStandby s := rfl
@[simp] theorem exec_thermalTrip {s : State} : exec .thermalTrip s = execThermalTrip s := rfl
@[simp] theorem exec_clockTick {s : State} {m} : exec (.clockTick m) s = execClockTick m s := rfl
@[simp] theorem exec_collTimeout {s : State} {ctx} {group} : exec (.collTimeout ctx group) s = execCollTimeout ctx group s := rfl
@[simp] theorem exec_lpddrReply {s : State} {dframe} {line} {err} : exec (.lpddrReply dframe line err) s = execLpddrReply dframe line err s := rfl
@[simp] theorem exec_cxlMemResponse {s : State} {dframe} {line} {err} : exec (.cxlMemResponse dframe line err) s = execCxlMemResponse dframe line err s := rfl

end Sys2Proof.Machine
end

