-- ==== Sys2Proof/Laws/Cells.lean ====
section
/-! SUPPORT. The laws of sparse maps: what a key holds after a change, and that every change keeps the canonical form. -/

namespace Sys2Proof.Machine

variable {α : Type}

@[simp] theorem Cells.find_put_self (m : Cells α) (x : Nat) (v : α) : Cells.find (Cells.put m x v) x = some v := by
  induction m with
  | nil => simp [Cells.put, Cells.find]
  | cons e m ih =>
    obtain ⟨k, w⟩ := e
    simp only [Cells.put]
    split
    · simp [Cells.find]
    · split
      · simp [Cells.find]
      · simp [Cells.find, *]

theorem Cells.find_put_ne (m : Cells α) {x y : Nat} (v : α) (h : y ≠ x) :
    Cells.find (Cells.put m x v) y = Cells.find m y := by
  induction m with
  | nil => simp [Cells.put, Cells.find, h]
  | cons e m ih =>
    obtain ⟨k, w⟩ := e
    simp only [Cells.put]
    split
    · subst_vars; simp [Cells.find, h]
    · split
      · simp [Cells.find, h]
      · simp [Cells.find, ih]

@[simp] theorem Cells.find_del_self (m : Cells α) (x : Nat) : Cells.find (Cells.del m x) x = none := by
  induction m with
  | nil => rfl
  | cons e m ih =>
    obtain ⟨k, w⟩ := e
    simp only [Cells.del]
    split
    · exact ih
    · simp [Cells.find, *]

theorem Cells.find_del_ne (m : Cells α) {x y : Nat} (h : y ≠ x) : Cells.find (Cells.del m x) y = Cells.find m y := by
  induction m with
  | nil => rfl
  | cons e m ih =>
    obtain ⟨k, w⟩ := e
    simp only [Cells.del]
    split
    · subst_vars; simp [Cells.find, h, ih]
    · simp [Cells.find, ih]

@[simp] theorem Cells.get_set_self [DecidableEq α] (d : α) (m : Cells α) (x : Nat) (v : α) :
    Cells.get d (Cells.set d m x v) x = v := by
  unfold Cells.get Cells.set
  split
  · simp [Cells.find_del_self, *]
  · simp [Cells.find_put_self]

theorem Cells.get_set_ne [DecidableEq α] (d : α) (m : Cells α) {x y : Nat} (v : α) (h : y ≠ x) :
    Cells.get d (Cells.set d m x v) y = Cells.get d m y := by
  unfold Cells.get Cells.set
  split
  · rw [Cells.find_del_ne m h]
  · rw [Cells.find_put_ne m v h]

@[simp] theorem Cells.find_modify_self (m : Cells α) (x : Nat) (f : α → α) :
    Cells.find (Cells.modify m x f) x = (Cells.find m x).map f := by
  unfold Cells.modify
  split <;> simp [Cells.find_put_self, *]

theorem Cells.find_modify_ne (m : Cells α) {x y : Nat} (f : α → α) (h : y ≠ x) :
    Cells.find (Cells.modify m x f) y = Cells.find m y := by
  unfold Cells.modify
  split
  · rfl
  · rw [Cells.find_put_ne m _ h]

/-- A run of writes leaves every key outside it alone. -/
theorem Cells.get_setRun_out [DecidableEq α] (d : α) (vs : List α) (m : Cells α) (x y : Nat)
    (h : y < x ∨ x + vs.length ≤ y) : Cells.get d (Cells.setRun d m x vs) y = Cells.get d m y := by
  induction vs generalizing m x with
  | nil => rfl
  | cons v vs ih =>
    simp only [List.length_cons] at h
    simp only [Cells.setRun]
    rw [ih _ _ (by omega), Cells.get_set_ne d m v (by omega)]

/-- A run of writes leaves its values under its keys. -/
theorem Cells.get_setRun_in [DecidableEq α] (d : α) (vs : List α) (m : Cells α) (x i : Nat) (h : i < vs.length) :
    Cells.get d (Cells.setRun d m x vs) (x + i) = vs[i] := by
  induction vs generalizing m x i with
  | nil => simp at h
  | cons v vs ih =>
    simp only [Cells.setRun]
    cases i with
    | zero => rw [Cells.get_setRun_out d vs _ _ _ (by omega), Nat.add_zero, Cells.get_set_self]; rfl
    | succ i =>
      simp only [List.length_cons] at h
      have := ih (Cells.set d m x v) (x + 1) i (by omega)
      rw [show x + (i + 1) = x + 1 + i by omega, this]; rfl

/-! ### The canonical form -/

theorem Cells.risingFrom_weaken (lo lo' : Nat) (m : Cells α) (h : lo' ≤ lo) (hm : Cells.risingFrom (some lo) m = true) :
    Cells.risingFrom (some lo') m = true := by
  cases m with
  | nil => rfl
  | cons e m => obtain ⟨k, w⟩ := e; simp only [Cells.risingFrom, Bool.and_eq_true, decide_eq_true_eq] at *; exact ⟨by omega, hm.2⟩

theorem Cells.risingFrom_none (lo : Nat) (m : Cells α) (hm : Cells.risingFrom (some lo) m = true) :
    Cells.risingFrom none m = true := by
  cases m with
  | nil => rfl
  | cons e m => obtain ⟨k, w⟩ := e; simp only [Cells.risingFrom, Bool.and_eq_true] at *; exact hm.2

theorem Cells.risingFrom_put (lo : Nat) (m : Cells α) (x : Nat) (v : α) (hx : lo < x)
    (hm : Cells.risingFrom (some lo) m = true) : Cells.risingFrom (some lo) (Cells.put m x v) = true := by
  induction m generalizing lo with
  | nil => simp [Cells.put, Cells.risingFrom, hx]
  | cons e m ih =>
    obtain ⟨k, w⟩ := e
    simp only [Cells.risingFrom, Bool.and_eq_true, decide_eq_true_eq] at hm
    simp only [Cells.put]
    split
    · subst_vars; simp [Cells.risingFrom, hx, hm.2]
    · split
      · simp [Cells.risingFrom, hx, hm.2]; omega
      · simp only [Cells.risingFrom, Bool.and_eq_true, decide_eq_true_eq]
        exact ⟨hm.1, ih k (by omega) hm.2⟩

theorem Cells.rising_put (m : Cells α) (x : Nat) (v : α) (hm : Cells.risingFrom none m = true) :
    Cells.risingFrom none (Cells.put m x v) = true := by
  cases m with
  | nil => rfl
  | cons e m =>
    obtain ⟨k, w⟩ := e
    simp only [Cells.risingFrom] at hm
    simp only [Cells.put]
    split
    · subst_vars; exact hm
    · split
      · simp [Cells.risingFrom, hm]; omega
      · exact Cells.risingFrom_put k m x v (by omega) hm

theorem Cells.risingFrom_del (lo : Nat) (m : Cells α) (x : Nat) (hm : Cells.risingFrom (some lo) m = true) :
    Cells.risingFrom (some lo) (Cells.del m x) = true := by
  induction m generalizing lo with
  | nil => rfl
  | cons e m ih =>
    obtain ⟨k, w⟩ := e
    simp only [Cells.risingFrom, Bool.and_eq_true, decide_eq_true_eq] at hm
    simp only [Cells.del]
    split
    · exact ih lo (Cells.risingFrom_weaken k lo m (by omega) hm.2)
    · simp [Cells.risingFrom, hm.1, ih k hm.2]

theorem Cells.rising_del (m : Cells α) (x : Nat) (hm : Cells.risingFrom none m = true) :
    Cells.risingFrom none (Cells.del m x) = true := by
  cases m with
  | nil => rfl
  | cons e m =>
    obtain ⟨k, w⟩ := e
    simp only [Cells.risingFrom] at hm
    simp only [Cells.del]
    split
    · exact Cells.risingFrom_none k _ (Cells.risingFrom_del k m x hm)
    · exact Cells.risingFrom_del k m x hm

theorem Cells.all_put (p : Nat × α → Bool) (m : Cells α) (x : Nat) (v : α) (hv : p (x, v) = true) (hm : m.all p = true) :
    (Cells.put m x v).all p = true := by
  induction m with
  | nil => simp [Cells.put, hv]
  | cons e m ih =>
    obtain ⟨k, w⟩ := e
    simp only [List.all_cons, Bool.and_eq_true] at hm
    simp only [Cells.put]
    split
    · simp [hv, hm.2]
    · split
      · simp [hv, hm.1, hm.2]
      · simp [hm.1, ih hm.2]

theorem Cells.all_del (p : Nat × α → Bool) (m : Cells α) (x : Nat) (hm : m.all p = true) :
    (Cells.del m x).all p = true := by
  induction m with
  | nil => rfl
  | cons e m ih =>
    obtain ⟨k, w⟩ := e
    simp only [List.all_cons, Bool.and_eq_true] at hm
    simp only [Cells.del]
    split
    · exact ih hm.2
    · simp [hm.1, ih hm.2]

/-- A write keeps the canonical form. -/
theorem Cells.wf_set [DecidableEq α] (d : α) (m : Cells α) (x : Nat) (v : α) (h : Cells.wf d m = true) :
    Cells.wf d (Cells.set d m x v) = true := by
  simp only [Cells.wf, Bool.and_eq_true] at *
  unfold Cells.set
  split
  · exact ⟨Cells.rising_del m x h.1, Cells.all_del _ m x h.2⟩
  · exact ⟨Cells.rising_put m x v h.1, Cells.all_put _ m x v (by simpa) h.2⟩

/-- A run of writes keeps the canonical form. -/
theorem Cells.wf_setRun [DecidableEq α] (d : α) (vs : List α) (m : Cells α) (x : Nat) (h : Cells.wf d m = true) :
    Cells.wf d (Cells.setRun d m x vs) = true := by
  induction vs generalizing m x with
  | nil => exact h
  | cons v vs ih => exact ih _ _ (Cells.wf_set d m x v h)

end Sys2Proof.Machine
end

