-- ==== Sys2Proof/Laws/State.lean ====
section
/-! SUPPORT. What the updates of the state leave in each of its fields: one lemma for each field of each update. -/

namespace Sys2Proof.Machine

open Sys2Proof

/-! ### modWave -/

@[simp] theorem State.modWave_power (s : State) (k : Nat) (f : Wave → Wave) : (s.modWave k f).power = s.power := rfl
@[simp] theorem State.modWave_flash (s : State) (k : Nat) (f : Wave → Wave) : (s.modWave k f).flash = s.flash := rfl
@[simp] theorem State.modWave_plat (s : State) (k : Nat) (f : Wave → Wave) : (s.modWave k f).plat = s.plat := rfl
@[simp] theorem State.modWave_node (s : State) (k : Nat) (f : Wave → Wave) : (s.modWave k f).node = s.node := rfl
@[simp] theorem State.modWave_cycle (s : State) (k : Nat) (f : Wave → Wave) : (s.modWave k f).cycle = s.cycle := rfl
@[simp] theorem State.modWave_latencyCycle (s : State) (k : Nat) (f : Wave → Wave) : (s.modWave k f).latencyCycle = s.latencyCycle := rfl
@[simp] theorem State.modWave_timeNs (s : State) (k : Nat) (f : Wave → Wave) : (s.modWave k f).timeNs = s.timeNs := rfl
@[simp] theorem State.modWave_mem (s : State) (k : Nat) (f : Wave → Wave) : (s.modWave k f).mem = s.mem := rfl
@[simp] theorem State.modWave_lineMeta (s : State) (k : Nat) (f : Wave → Wave) : (s.modWave k f).lineMeta = s.lineMeta := rfl
@[simp] theorem State.modWave_alloc (s : State) (k : Nat) (f : Wave → Wave) : (s.modWave k f).alloc = s.alloc := rfl
@[simp] theorem State.modWave_devOld (s : State) (k : Nat) (f : Wave → Wave) : (s.modWave k f).devOld = s.devOld := rfl
@[simp] theorem State.modWave_stale (s : State) (k : Nat) (f : Wave → Wave) : (s.modWave k f).stale = s.stale := rfl
@[simp] theorem State.modWave_cache (s : State) (k : Nat) (f : Wave → Wave) : (s.modWave k f).cache = s.cache := rfl
@[simp] theorem State.modWave_writebacks (s : State) (k : Nat) (f : Wave → Wave) : (s.modWave k f).writebacks = s.writebacks := rfl
@[simp] theorem State.modWave_cacheWait (s : State) (k : Nat) (f : Wave → Wave) : (s.modWave k f).cacheWait = s.cacheWait := rfl
@[simp] theorem State.modWave_l2 (s : State) (k : Nat) (f : Wave → Wave) : (s.modWave k f).l2 = s.l2 := rfl
@[simp] theorem State.modWave_dir (s : State) (k : Nat) (f : Wave → Wave) : (s.modWave k f).dir = s.dir := rfl
@[simp] theorem State.modWave_homeQ (s : State) (k : Nat) (f : Wave → Wave) : (s.modWave k f).homeQ = s.homeQ := rfl
@[simp] theorem State.modWave_l0 (s : State) (k : Nat) (f : Wave → Wave) : (s.modWave k f).l0 = s.l0 := rfl
@[simp] theorem State.modWave_icache (s : State) (k : Nat) (f : Wave → Wave) : (s.modWave k f).icache = s.icache := rfl
@[simp] theorem State.modWave_cohDira (s : State) (k : Nat) (f : Wave → Wave) : (s.modWave k f).cohDira = s.cohDira := rfl
@[simp] theorem State.modWave_cohDire (s : State) (k : Nat) (f : Wave → Wave) : (s.modWave k f).cohDire = s.cohDire := rfl
@[simp] theorem State.modWave_cross (s : State) (k : Nat) (f : Wave → Wave) : (s.modWave k f).cross = s.cross := rfl
@[simp] theorem State.modWave_overflow (s : State) (k : Nat) (f : Wave → Wave) : (s.modWave k f).overflow = s.overflow := rfl
@[simp] theorem State.modWave_place (s : State) (k : Nat) (f : Wave → Wave) : (s.modWave k f).place = s.place := rfl
@[simp] theorem State.modWave_ownTable (s : State) (k : Nat) (f : Wave → Wave) : (s.modWave k f).ownTable = s.ownTable := rfl
@[simp] theorem State.modWave_plcArg (s : State) (k : Nat) (f : Wave → Wave) : (s.modWave k f).plcArg = s.plcArg := rfl
@[simp] theorem State.modWave_plcStatus (s : State) (k : Nat) (f : Wave → Wave) : (s.modWave k f).plcStatus = s.plcStatus := rfl
@[simp] theorem State.modWave_plcFrame (s : State) (k : Nat) (f : Wave → Wave) : (s.modWave k f).plcFrame = s.plcFrame := rfl
@[simp] theorem State.modWave_migCtl (s : State) (k : Nat) (f : Wave → Wave) : (s.modWave k f).migCtl = s.migCtl := rfl
@[simp] theorem State.modWave_migAborted (s : State) (k : Nat) (f : Wave → Wave) : (s.modWave k f).migAborted = s.migAborted := rfl
@[simp] theorem State.modWave_migDone (s : State) (k : Nat) (f : Wave → Wave) : (s.modWave k f).migDone = s.migDone := rfl
@[simp] theorem State.modWave_guests (s : State) (k : Nat) (f : Wave → Wave) : (s.modWave k f).guests = s.guests := rfl
@[simp] theorem State.modWave_tlb (s : State) (k : Nat) (f : Wave → Wave) : (s.modWave k f).tlb = s.tlb := rfl
@[simp] theorem State.modWave_shootdowns (s : State) (k : Nat) (f : Wave → Wave) : (s.modWave k f).shootdowns = s.shootdowns := rfl
@[simp] theorem State.modWave_ports (s : State) (k : Nat) (f : Wave → Wave) : (s.modWave k f).ports = s.ports := rfl
@[simp] theorem State.modWave_nodes (s : State) (k : Nat) (f : Wave → Wave) : (s.modWave k f).nodes = s.nodes := rfl
@[simp] theorem State.modWave_fabric (s : State) (k : Nat) (f : Wave → Wave) : (s.modWave k f).fabric = s.fabric := rfl
@[simp] theorem State.modWave_fabricIn (s : State) (k : Nat) (f : Wave → Wave) : (s.modWave k f).fabricIn = s.fabricIn := rfl
@[simp] theorem State.modWave_hostIn (s : State) (k : Nat) (f : Wave → Wave) : (s.modWave k f).hostIn = s.hostIn := rfl
@[simp] theorem State.modWave_sessions (s : State) (k : Nat) (f : Wave → Wave) : (s.modWave k f).sessions = s.sessions := rfl
@[simp] theorem State.modWave_lnkNsel (s : State) (k : Nat) (f : Wave → Wave) : (s.modWave k f).lnkNsel = s.lnkNsel := rfl
@[simp] theorem State.modWave_lnkSsel (s : State) (k : Nat) (f : Wave → Wave) : (s.modWave k f).lnkSsel = s.lnkSsel := rfl
@[simp] theorem State.modWave_fabricWaits (s : State) (k : Nat) (f : Wave → Wave) : (s.modWave k f).fabricWaits = s.fabricWaits := rfl
@[simp] theorem State.modWave_collMsgs (s : State) (k : Nat) (f : Wave → Wave) : (s.modWave k f).collMsgs = s.collMsgs := rfl
@[simp] theorem State.modWave_keptDones (s : State) (k : Nat) (f : Wave → Wave) : (s.modWave k f).keptDones = s.keptDones := rfl
@[simp] theorem State.modWave_ctxs (s : State) (k : Nat) (f : Wave → Wave) : (s.modWave k f).ctxs = s.ctxs := rfl
@[simp] theorem State.modWave_launches (s : State) (k : Nat) (f : Wave → Wave) : (s.modWave k f).launches = s.launches := rfl
@[simp] theorem State.modWave_dieLists (s : State) (k : Nat) (f : Wave → Wave) : (s.modWave k f).dieLists = s.dieLists := rfl
@[simp] theorem State.modWave_lastServed (s : State) (k : Nat) (f : Wave → Wave) : (s.modWave k f).lastServed = s.lastServed := rfl
@[simp] theorem State.modWave_blocks (s : State) (k : Nat) (f : Wave → Wave) : (s.modWave k f).blocks = s.blocks := rfl
@[simp] theorem State.modWave_waves (s : State) (k : Nat) (f : Wave → Wave) : (s.modWave k f).waves = Cells.modify s.waves k f := rfl
@[simp] theorem State.modWave_lastSlot (s : State) (k : Nat) (f : Wave → Wave) : (s.modWave k f).lastSlot = s.lastSlot := rfl
@[simp] theorem State.modWave_fills (s : State) (k : Nat) (f : Wave → Wave) : (s.modWave k f).fills = s.fills := rfl
@[simp] theorem State.modWave_ops (s : State) (k : Nat) (f : Wave → Wave) : (s.modWave k f).ops = s.ops := rfl
@[simp] theorem State.modWave_stash (s : State) (k : Nat) (f : Wave → Wave) : (s.modWave k f).stash = s.stash := rfl
@[simp] theorem State.modWave_acc (s : State) (k : Nat) (f : Wave → Wave) : (s.modWave k f).acc = s.acc := rfl
@[simp] theorem State.modWave_accPoison (s : State) (k : Nat) (f : Wave → Wave) : (s.modWave k f).accPoison = s.accPoison := rfl
@[simp] theorem State.modWave_accParity (s : State) (k : Nat) (f : Wave → Wave) : (s.modWave k f).accParity = s.accParity := rfl
@[simp] theorem State.modWave_banks (s : State) (k : Nat) (f : Wave → Wave) : (s.modWave k f).banks = s.banks := rfl
@[simp] theorem State.modWave_mtxErr (s : State) (k : Nat) (f : Wave → Wave) : (s.modWave k f).mtxErr = s.mtxErr := rfl
@[simp] theorem State.modWave_bstore (s : State) (k : Nat) (f : Wave → Wave) : (s.modWave k f).bstore = s.bstore := rfl
@[simp] theorem State.modWave_cohorts (s : State) (k : Nat) (f : Wave → Wave) : (s.modWave k f).cohorts = s.cohorts := rfl
@[simp] theorem State.modWave_barriers (s : State) (k : Nat) (f : Wave → Wave) : (s.modWave k f).barriers = s.barriers := rfl
@[simp] theorem State.modWave_rounds (s : State) (k : Nat) (f : Wave → Wave) : (s.modWave k f).rounds = s.rounds := rfl
@[simp] theorem State.modWave_shadowWaits (s : State) (k : Nat) (f : Wave → Wave) : (s.modWave k f).shadowWaits = s.shadowWaits := rfl
@[simp] theorem State.modWave_unpublished (s : State) (k : Nat) (f : Wave → Wave) : (s.modWave k f).unpublished = s.unpublished := rfl
@[simp] theorem State.modWave_tickets (s : State) (k : Nat) (f : Wave → Wave) : (s.modWave k f).tickets = s.tickets := rfl
@[simp] theorem State.modWave_inbox (s : State) (k : Nat) (f : Wave → Wave) : (s.modWave k f).inbox = s.inbox := rfl
@[simp] theorem State.modWave_agenda (s : State) (k : Nat) (f : Wave → Wave) : (s.modWave k f).agenda = s.agenda := rfl
@[simp] theorem State.modWave_out (s : State) (k : Nat) (f : Wave → Wave) : (s.modWave k f).out = s.out := rfl
@[simp] theorem State.modWave_cur (s : State) (k : Nat) (f : Wave → Wave) : (s.modWave k f).cur = s.cur := rfl
@[simp] theorem State.modWave_turnRegs (s : State) (k : Nat) (f : Wave → Wave) : (s.modWave k f).turnRegs = s.turnRegs := rfl
@[simp] theorem State.modWave_last (s : State) (k : Nat) (f : Wave → Wave) : (s.modWave k f).last = s.last := rfl
@[simp] theorem State.modWave_tick (s : State) (k : Nat) (f : Wave → Wave) : (s.modWave k f).tick = s.tick := rfl
@[simp] theorem State.modWave_nextId (s : State) (k : Nat) (f : Wave → Wave) : (s.modWave k f).nextId = s.nextId := rfl

/-! ### modCtx -/

@[simp] theorem State.modCtx_power (s : State) (c : Nat) (f : Context → Context) : (s.modCtx c f).power = s.power := rfl
@[simp] theorem State.modCtx_flash (s : State) (c : Nat) (f : Context → Context) : (s.modCtx c f).flash = s.flash := rfl
@[simp] theorem State.modCtx_plat (s : State) (c : Nat) (f : Context → Context) : (s.modCtx c f).plat = s.plat := rfl
@[simp] theorem State.modCtx_node (s : State) (c : Nat) (f : Context → Context) : (s.modCtx c f).node = s.node := rfl
@[simp] theorem State.modCtx_cycle (s : State) (c : Nat) (f : Context → Context) : (s.modCtx c f).cycle = s.cycle := rfl
@[simp] theorem State.modCtx_latencyCycle (s : State) (c : Nat) (f : Context → Context) : (s.modCtx c f).latencyCycle = s.latencyCycle := rfl
@[simp] theorem State.modCtx_timeNs (s : State) (c : Nat) (f : Context → Context) : (s.modCtx c f).timeNs = s.timeNs := rfl
@[simp] theorem State.modCtx_mem (s : State) (c : Nat) (f : Context → Context) : (s.modCtx c f).mem = s.mem := rfl
@[simp] theorem State.modCtx_lineMeta (s : State) (c : Nat) (f : Context → Context) : (s.modCtx c f).lineMeta = s.lineMeta := rfl
@[simp] theorem State.modCtx_alloc (s : State) (c : Nat) (f : Context → Context) : (s.modCtx c f).alloc = s.alloc := rfl
@[simp] theorem State.modCtx_devOld (s : State) (c : Nat) (f : Context → Context) : (s.modCtx c f).devOld = s.devOld := rfl
@[simp] theorem State.modCtx_stale (s : State) (c : Nat) (f : Context → Context) : (s.modCtx c f).stale = s.stale := rfl
@[simp] theorem State.modCtx_cache (s : State) (c : Nat) (f : Context → Context) : (s.modCtx c f).cache = s.cache := rfl
@[simp] theorem State.modCtx_writebacks (s : State) (c : Nat) (f : Context → Context) : (s.modCtx c f).writebacks = s.writebacks := rfl
@[simp] theorem State.modCtx_cacheWait (s : State) (c : Nat) (f : Context → Context) : (s.modCtx c f).cacheWait = s.cacheWait := rfl
@[simp] theorem State.modCtx_l2 (s : State) (c : Nat) (f : Context → Context) : (s.modCtx c f).l2 = s.l2 := rfl
@[simp] theorem State.modCtx_dir (s : State) (c : Nat) (f : Context → Context) : (s.modCtx c f).dir = s.dir := rfl
@[simp] theorem State.modCtx_homeQ (s : State) (c : Nat) (f : Context → Context) : (s.modCtx c f).homeQ = s.homeQ := rfl
@[simp] theorem State.modCtx_l0 (s : State) (c : Nat) (f : Context → Context) : (s.modCtx c f).l0 = s.l0 := rfl
@[simp] theorem State.modCtx_icache (s : State) (c : Nat) (f : Context → Context) : (s.modCtx c f).icache = s.icache := rfl
@[simp] theorem State.modCtx_cohDira (s : State) (c : Nat) (f : Context → Context) : (s.modCtx c f).cohDira = s.cohDira := rfl
@[simp] theorem State.modCtx_cohDire (s : State) (c : Nat) (f : Context → Context) : (s.modCtx c f).cohDire = s.cohDire := rfl
@[simp] theorem State.modCtx_cross (s : State) (c : Nat) (f : Context → Context) : (s.modCtx c f).cross = s.cross := rfl
@[simp] theorem State.modCtx_overflow (s : State) (c : Nat) (f : Context → Context) : (s.modCtx c f).overflow = s.overflow := rfl
@[simp] theorem State.modCtx_place (s : State) (c : Nat) (f : Context → Context) : (s.modCtx c f).place = s.place := rfl
@[simp] theorem State.modCtx_ownTable (s : State) (c : Nat) (f : Context → Context) : (s.modCtx c f).ownTable = s.ownTable := rfl
@[simp] theorem State.modCtx_plcArg (s : State) (c : Nat) (f : Context → Context) : (s.modCtx c f).plcArg = s.plcArg := rfl
@[simp] theorem State.modCtx_plcStatus (s : State) (c : Nat) (f : Context → Context) : (s.modCtx c f).plcStatus = s.plcStatus := rfl
@[simp] theorem State.modCtx_plcFrame (s : State) (c : Nat) (f : Context → Context) : (s.modCtx c f).plcFrame = s.plcFrame := rfl
@[simp] theorem State.modCtx_migCtl (s : State) (c : Nat) (f : Context → Context) : (s.modCtx c f).migCtl = s.migCtl := rfl
@[simp] theorem State.modCtx_migAborted (s : State) (c : Nat) (f : Context → Context) : (s.modCtx c f).migAborted = s.migAborted := rfl
@[simp] theorem State.modCtx_migDone (s : State) (c : Nat) (f : Context → Context) : (s.modCtx c f).migDone = s.migDone := rfl
@[simp] theorem State.modCtx_guests (s : State) (c : Nat) (f : Context → Context) : (s.modCtx c f).guests = s.guests := rfl
@[simp] theorem State.modCtx_tlb (s : State) (c : Nat) (f : Context → Context) : (s.modCtx c f).tlb = s.tlb := rfl
@[simp] theorem State.modCtx_shootdowns (s : State) (c : Nat) (f : Context → Context) : (s.modCtx c f).shootdowns = s.shootdowns := rfl
@[simp] theorem State.modCtx_ports (s : State) (c : Nat) (f : Context → Context) : (s.modCtx c f).ports = s.ports := rfl
@[simp] theorem State.modCtx_nodes (s : State) (c : Nat) (f : Context → Context) : (s.modCtx c f).nodes = s.nodes := rfl
@[simp] theorem State.modCtx_fabric (s : State) (c : Nat) (f : Context → Context) : (s.modCtx c f).fabric = s.fabric := rfl
@[simp] theorem State.modCtx_fabricIn (s : State) (c : Nat) (f : Context → Context) : (s.modCtx c f).fabricIn = s.fabricIn := rfl
@[simp] theorem State.modCtx_hostIn (s : State) (c : Nat) (f : Context → Context) : (s.modCtx c f).hostIn = s.hostIn := rfl
@[simp] theorem State.modCtx_sessions (s : State) (c : Nat) (f : Context → Context) : (s.modCtx c f).sessions = s.sessions := rfl
@[simp] theorem State.modCtx_lnkNsel (s : State) (c : Nat) (f : Context → Context) : (s.modCtx c f).lnkNsel = s.lnkNsel := rfl
@[simp] theorem State.modCtx_lnkSsel (s : State) (c : Nat) (f : Context → Context) : (s.modCtx c f).lnkSsel = s.lnkSsel := rfl
@[simp] theorem State.modCtx_fabricWaits (s : State) (c : Nat) (f : Context → Context) : (s.modCtx c f).fabricWaits = s.fabricWaits := rfl
@[simp] theorem State.modCtx_collMsgs (s : State) (c : Nat) (f : Context → Context) : (s.modCtx c f).collMsgs = s.collMsgs := rfl
@[simp] theorem State.modCtx_keptDones (s : State) (c : Nat) (f : Context → Context) : (s.modCtx c f).keptDones = s.keptDones := rfl
@[simp] theorem State.modCtx_launches (s : State) (c : Nat) (f : Context → Context) : (s.modCtx c f).launches = s.launches := rfl
@[simp] theorem State.modCtx_dieLists (s : State) (c : Nat) (f : Context → Context) : (s.modCtx c f).dieLists = s.dieLists := rfl
@[simp] theorem State.modCtx_lastServed (s : State) (c : Nat) (f : Context → Context) : (s.modCtx c f).lastServed = s.lastServed := rfl
@[simp] theorem State.modCtx_blocks (s : State) (c : Nat) (f : Context → Context) : (s.modCtx c f).blocks = s.blocks := rfl
@[simp] theorem State.modCtx_waves (s : State) (c : Nat) (f : Context → Context) : (s.modCtx c f).waves = s.waves := rfl
@[simp] theorem State.modCtx_lastSlot (s : State) (c : Nat) (f : Context → Context) : (s.modCtx c f).lastSlot = s.lastSlot := rfl
@[simp] theorem State.modCtx_fills (s : State) (c : Nat) (f : Context → Context) : (s.modCtx c f).fills = s.fills := rfl
@[simp] theorem State.modCtx_ops (s : State) (c : Nat) (f : Context → Context) : (s.modCtx c f).ops = s.ops := rfl
@[simp] theorem State.modCtx_stash (s : State) (c : Nat) (f : Context → Context) : (s.modCtx c f).stash = s.stash := rfl
@[simp] theorem State.modCtx_acc (s : State) (c : Nat) (f : Context → Context) : (s.modCtx c f).acc = s.acc := rfl
@[simp] theorem State.modCtx_accPoison (s : State) (c : Nat) (f : Context → Context) : (s.modCtx c f).accPoison = s.accPoison := rfl
@[simp] theorem State.modCtx_accParity (s : State) (c : Nat) (f : Context → Context) : (s.modCtx c f).accParity = s.accParity := rfl
@[simp] theorem State.modCtx_banks (s : State) (c : Nat) (f : Context → Context) : (s.modCtx c f).banks = s.banks := rfl
@[simp] theorem State.modCtx_mtxErr (s : State) (c : Nat) (f : Context → Context) : (s.modCtx c f).mtxErr = s.mtxErr := rfl
@[simp] theorem State.modCtx_bstore (s : State) (c : Nat) (f : Context → Context) : (s.modCtx c f).bstore = s.bstore := rfl
@[simp] theorem State.modCtx_cohorts (s : State) (c : Nat) (f : Context → Context) : (s.modCtx c f).cohorts = s.cohorts := rfl
@[simp] theorem State.modCtx_barriers (s : State) (c : Nat) (f : Context → Context) : (s.modCtx c f).barriers = s.barriers := rfl
@[simp] theorem State.modCtx_rounds (s : State) (c : Nat) (f : Context → Context) : (s.modCtx c f).rounds = s.rounds := rfl
@[simp] theorem State.modCtx_shadowWaits (s : State) (c : Nat) (f : Context → Context) : (s.modCtx c f).shadowWaits = s.shadowWaits := rfl
@[simp] theorem State.modCtx_unpublished (s : State) (c : Nat) (f : Context → Context) : (s.modCtx c f).unpublished = s.unpublished := rfl
@[simp] theorem State.modCtx_tickets (s : State) (c : Nat) (f : Context → Context) : (s.modCtx c f).tickets = s.tickets := rfl
@[simp] theorem State.modCtx_inbox (s : State) (c : Nat) (f : Context → Context) : (s.modCtx c f).inbox = s.inbox := rfl
@[simp] theorem State.modCtx_agenda (s : State) (c : Nat) (f : Context → Context) : (s.modCtx c f).agenda = s.agenda := rfl
@[simp] theorem State.modCtx_out (s : State) (c : Nat) (f : Context → Context) : (s.modCtx c f).out = s.out := rfl
@[simp] theorem State.modCtx_cur (s : State) (c : Nat) (f : Context → Context) : (s.modCtx c f).cur = s.cur := rfl
@[simp] theorem State.modCtx_turnRegs (s : State) (c : Nat) (f : Context → Context) : (s.modCtx c f).turnRegs = s.turnRegs := rfl
@[simp] theorem State.modCtx_last (s : State) (c : Nat) (f : Context → Context) : (s.modCtx c f).last = s.last := rfl
@[simp] theorem State.modCtx_tick (s : State) (c : Nat) (f : Context → Context) : (s.modCtx c f).tick = s.tick := rfl
@[simp] theorem State.modCtx_nextId (s : State) (c : Nat) (f : Context → Context) : (s.modCtx c f).nextId = s.nextId := rfl

/-! ### post -/

@[simp] theorem State.post_power (s : State) (i : Instr) : (s.post i).power = s.power := rfl
@[simp] theorem State.post_flash (s : State) (i : Instr) : (s.post i).flash = s.flash := rfl
@[simp] theorem State.post_plat (s : State) (i : Instr) : (s.post i).plat = s.plat := rfl
@[simp] theorem State.post_node (s : State) (i : Instr) : (s.post i).node = s.node := rfl
@[simp] theorem State.post_cycle (s : State) (i : Instr) : (s.post i).cycle = s.cycle := rfl
@[simp] theorem State.post_latencyCycle (s : State) (i : Instr) : (s.post i).latencyCycle = s.latencyCycle := rfl
@[simp] theorem State.post_timeNs (s : State) (i : Instr) : (s.post i).timeNs = s.timeNs := rfl
@[simp] theorem State.post_mem (s : State) (i : Instr) : (s.post i).mem = s.mem := rfl
@[simp] theorem State.post_lineMeta (s : State) (i : Instr) : (s.post i).lineMeta = s.lineMeta := rfl
@[simp] theorem State.post_alloc (s : State) (i : Instr) : (s.post i).alloc = s.alloc := rfl
@[simp] theorem State.post_devOld (s : State) (i : Instr) : (s.post i).devOld = s.devOld := rfl
@[simp] theorem State.post_stale (s : State) (i : Instr) : (s.post i).stale = s.stale := rfl
@[simp] theorem State.post_cache (s : State) (i : Instr) : (s.post i).cache = s.cache := rfl
@[simp] theorem State.post_writebacks (s : State) (i : Instr) : (s.post i).writebacks = s.writebacks := rfl
@[simp] theorem State.post_cacheWait (s : State) (i : Instr) : (s.post i).cacheWait = s.cacheWait := rfl
@[simp] theorem State.post_l2 (s : State) (i : Instr) : (s.post i).l2 = s.l2 := rfl
@[simp] theorem State.post_dir (s : State) (i : Instr) : (s.post i).dir = s.dir := rfl
@[simp] theorem State.post_homeQ (s : State) (i : Instr) : (s.post i).homeQ = s.homeQ := rfl
@[simp] theorem State.post_l0 (s : State) (i : Instr) : (s.post i).l0 = s.l0 := rfl
@[simp] theorem State.post_icache (s : State) (i : Instr) : (s.post i).icache = s.icache := rfl
@[simp] theorem State.post_cohDira (s : State) (i : Instr) : (s.post i).cohDira = s.cohDira := rfl
@[simp] theorem State.post_cohDire (s : State) (i : Instr) : (s.post i).cohDire = s.cohDire := rfl
@[simp] theorem State.post_cross (s : State) (i : Instr) : (s.post i).cross = s.cross := rfl
@[simp] theorem State.post_overflow (s : State) (i : Instr) : (s.post i).overflow = s.overflow := rfl
@[simp] theorem State.post_place (s : State) (i : Instr) : (s.post i).place = s.place := rfl
@[simp] theorem State.post_ownTable (s : State) (i : Instr) : (s.post i).ownTable = s.ownTable := rfl
@[simp] theorem State.post_plcArg (s : State) (i : Instr) : (s.post i).plcArg = s.plcArg := rfl
@[simp] theorem State.post_plcStatus (s : State) (i : Instr) : (s.post i).plcStatus = s.plcStatus := rfl
@[simp] theorem State.post_plcFrame (s : State) (i : Instr) : (s.post i).plcFrame = s.plcFrame := rfl
@[simp] theorem State.post_migCtl (s : State) (i : Instr) : (s.post i).migCtl = s.migCtl := rfl
@[simp] theorem State.post_migAborted (s : State) (i : Instr) : (s.post i).migAborted = s.migAborted := rfl
@[simp] theorem State.post_migDone (s : State) (i : Instr) : (s.post i).migDone = s.migDone := rfl
@[simp] theorem State.post_guests (s : State) (i : Instr) : (s.post i).guests = s.guests := rfl
@[simp] theorem State.post_tlb (s : State) (i : Instr) : (s.post i).tlb = s.tlb := rfl
@[simp] theorem State.post_shootdowns (s : State) (i : Instr) : (s.post i).shootdowns = s.shootdowns := rfl
@[simp] theorem State.post_ports (s : State) (i : Instr) : (s.post i).ports = s.ports := rfl
@[simp] theorem State.post_nodes (s : State) (i : Instr) : (s.post i).nodes = s.nodes := rfl
@[simp] theorem State.post_fabric (s : State) (i : Instr) : (s.post i).fabric = s.fabric := rfl
@[simp] theorem State.post_fabricIn (s : State) (i : Instr) : (s.post i).fabricIn = s.fabricIn := rfl
@[simp] theorem State.post_hostIn (s : State) (i : Instr) : (s.post i).hostIn = s.hostIn := rfl
@[simp] theorem State.post_sessions (s : State) (i : Instr) : (s.post i).sessions = s.sessions := rfl
@[simp] theorem State.post_lnkNsel (s : State) (i : Instr) : (s.post i).lnkNsel = s.lnkNsel := rfl
@[simp] theorem State.post_lnkSsel (s : State) (i : Instr) : (s.post i).lnkSsel = s.lnkSsel := rfl
@[simp] theorem State.post_fabricWaits (s : State) (i : Instr) : (s.post i).fabricWaits = s.fabricWaits := rfl
@[simp] theorem State.post_collMsgs (s : State) (i : Instr) : (s.post i).collMsgs = s.collMsgs := rfl
@[simp] theorem State.post_keptDones (s : State) (i : Instr) : (s.post i).keptDones = s.keptDones := rfl
@[simp] theorem State.post_ctxs (s : State) (i : Instr) : (s.post i).ctxs = s.ctxs := rfl
@[simp] theorem State.post_launches (s : State) (i : Instr) : (s.post i).launches = s.launches := rfl
@[simp] theorem State.post_dieLists (s : State) (i : Instr) : (s.post i).dieLists = s.dieLists := rfl
@[simp] theorem State.post_lastServed (s : State) (i : Instr) : (s.post i).lastServed = s.lastServed := rfl
@[simp] theorem State.post_blocks (s : State) (i : Instr) : (s.post i).blocks = s.blocks := rfl
@[simp] theorem State.post_waves (s : State) (i : Instr) : (s.post i).waves = s.waves := rfl
@[simp] theorem State.post_lastSlot (s : State) (i : Instr) : (s.post i).lastSlot = s.lastSlot := rfl
@[simp] theorem State.post_fills (s : State) (i : Instr) : (s.post i).fills = s.fills := rfl
@[simp] theorem State.post_ops (s : State) (i : Instr) : (s.post i).ops = s.ops := rfl
@[simp] theorem State.post_stash (s : State) (i : Instr) : (s.post i).stash = s.stash := rfl
@[simp] theorem State.post_acc (s : State) (i : Instr) : (s.post i).acc = s.acc := rfl
@[simp] theorem State.post_accPoison (s : State) (i : Instr) : (s.post i).accPoison = s.accPoison := rfl
@[simp] theorem State.post_accParity (s : State) (i : Instr) : (s.post i).accParity = s.accParity := rfl
@[simp] theorem State.post_banks (s : State) (i : Instr) : (s.post i).banks = s.banks := rfl
@[simp] theorem State.post_mtxErr (s : State) (i : Instr) : (s.post i).mtxErr = s.mtxErr := rfl
@[simp] theorem State.post_bstore (s : State) (i : Instr) : (s.post i).bstore = s.bstore := rfl
@[simp] theorem State.post_cohorts (s : State) (i : Instr) : (s.post i).cohorts = s.cohorts := rfl
@[simp] theorem State.post_barriers (s : State) (i : Instr) : (s.post i).barriers = s.barriers := rfl
@[simp] theorem State.post_rounds (s : State) (i : Instr) : (s.post i).rounds = s.rounds := rfl
@[simp] theorem State.post_shadowWaits (s : State) (i : Instr) : (s.post i).shadowWaits = s.shadowWaits := rfl
@[simp] theorem State.post_unpublished (s : State) (i : Instr) : (s.post i).unpublished = s.unpublished := rfl
@[simp] theorem State.post_tickets (s : State) (i : Instr) : (s.post i).tickets = s.tickets := rfl
@[simp] theorem State.post_inbox (s : State) (i : Instr) : (s.post i).inbox = s.inbox := rfl
@[simp] theorem State.post_agenda (s : State) (i : Instr) : (s.post i).agenda = s.agenda ++ [i] := rfl
@[simp] theorem State.post_out (s : State) (i : Instr) : (s.post i).out = s.out := rfl
@[simp] theorem State.post_cur (s : State) (i : Instr) : (s.post i).cur = s.cur := rfl
@[simp] theorem State.post_turnRegs (s : State) (i : Instr) : (s.post i).turnRegs = s.turnRegs := rfl
@[simp] theorem State.post_last (s : State) (i : Instr) : (s.post i).last = s.last := rfl
@[simp] theorem State.post_tick (s : State) (i : Instr) : (s.post i).tick = s.tick := rfl
@[simp] theorem State.post_nextId (s : State) (i : Instr) : (s.post i).nextId = s.nextId := rfl

/-! ### send -/

@[simp] theorem State.send_power (s : State) (m : OutMsg) : (s.send m).power = s.power := rfl
@[simp] theorem State.send_flash (s : State) (m : OutMsg) : (s.send m).flash = s.flash := rfl
@[simp] theorem State.send_plat (s : State) (m : OutMsg) : (s.send m).plat = s.plat := rfl
@[simp] theorem State.send_node (s : State) (m : OutMsg) : (s.send m).node = s.node := rfl
@[simp] theorem State.send_cycle (s : State) (m : OutMsg) : (s.send m).cycle = s.cycle := rfl
@[simp] theorem State.send_latencyCycle (s : State) (m : OutMsg) : (s.send m).latencyCycle = s.latencyCycle := rfl
@[simp] theorem State.send_timeNs (s : State) (m : OutMsg) : (s.send m).timeNs = s.timeNs := rfl
@[simp] theorem State.send_mem (s : State) (m : OutMsg) : (s.send m).mem = s.mem := rfl
@[simp] theorem State.send_lineMeta (s : State) (m : OutMsg) : (s.send m).lineMeta = s.lineMeta := rfl
@[simp] theorem State.send_alloc (s : State) (m : OutMsg) : (s.send m).alloc = s.alloc := rfl
@[simp] theorem State.send_devOld (s : State) (m : OutMsg) : (s.send m).devOld = s.devOld := rfl
@[simp] theorem State.send_stale (s : State) (m : OutMsg) : (s.send m).stale = s.stale := rfl
@[simp] theorem State.send_cache (s : State) (m : OutMsg) : (s.send m).cache = s.cache := rfl
@[simp] theorem State.send_writebacks (s : State) (m : OutMsg) : (s.send m).writebacks = s.writebacks := rfl
@[simp] theorem State.send_cacheWait (s : State) (m : OutMsg) : (s.send m).cacheWait = s.cacheWait := rfl
@[simp] theorem State.send_l2 (s : State) (m : OutMsg) : (s.send m).l2 = s.l2 := rfl
@[simp] theorem State.send_dir (s : State) (m : OutMsg) : (s.send m).dir = s.dir := rfl
@[simp] theorem State.send_homeQ (s : State) (m : OutMsg) : (s.send m).homeQ = s.homeQ := rfl
@[simp] theorem State.send_l0 (s : State) (m : OutMsg) : (s.send m).l0 = s.l0 := rfl
@[simp] theorem State.send_icache (s : State) (m : OutMsg) : (s.send m).icache = s.icache := rfl
@[simp] theorem State.send_cohDira (s : State) (m : OutMsg) : (s.send m).cohDira = s.cohDira := rfl
@[simp] theorem State.send_cohDire (s : State) (m : OutMsg) : (s.send m).cohDire = s.cohDire := rfl
@[simp] theorem State.send_cross (s : State) (m : OutMsg) : (s.send m).cross = s.cross := rfl
@[simp] theorem State.send_overflow (s : State) (m : OutMsg) : (s.send m).overflow = s.overflow := rfl
@[simp] theorem State.send_place (s : State) (m : OutMsg) : (s.send m).place = s.place := rfl
@[simp] theorem State.send_ownTable (s : State) (m : OutMsg) : (s.send m).ownTable = s.ownTable := rfl
@[simp] theorem State.send_plcArg (s : State) (m : OutMsg) : (s.send m).plcArg = s.plcArg := rfl
@[simp] theorem State.send_plcStatus (s : State) (m : OutMsg) : (s.send m).plcStatus = s.plcStatus := rfl
@[simp] theorem State.send_plcFrame (s : State) (m : OutMsg) : (s.send m).plcFrame = s.plcFrame := rfl
@[simp] theorem State.send_migCtl (s : State) (m : OutMsg) : (s.send m).migCtl = s.migCtl := rfl
@[simp] theorem State.send_migAborted (s : State) (m : OutMsg) : (s.send m).migAborted = s.migAborted := rfl
@[simp] theorem State.send_migDone (s : State) (m : OutMsg) : (s.send m).migDone = s.migDone := rfl
@[simp] theorem State.send_guests (s : State) (m : OutMsg) : (s.send m).guests = s.guests := rfl
@[simp] theorem State.send_tlb (s : State) (m : OutMsg) : (s.send m).tlb = s.tlb := rfl
@[simp] theorem State.send_shootdowns (s : State) (m : OutMsg) : (s.send m).shootdowns = s.shootdowns := rfl
@[simp] theorem State.send_ports (s : State) (m : OutMsg) : (s.send m).ports = s.ports := rfl
@[simp] theorem State.send_nodes (s : State) (m : OutMsg) : (s.send m).nodes = s.nodes := rfl
@[simp] theorem State.send_fabric (s : State) (m : OutMsg) : (s.send m).fabric = s.fabric := rfl
@[simp] theorem State.send_fabricIn (s : State) (m : OutMsg) : (s.send m).fabricIn = s.fabricIn := rfl
@[simp] theorem State.send_hostIn (s : State) (m : OutMsg) : (s.send m).hostIn = s.hostIn := rfl
@[simp] theorem State.send_sessions (s : State) (m : OutMsg) : (s.send m).sessions = s.sessions := rfl
@[simp] theorem State.send_lnkNsel (s : State) (m : OutMsg) : (s.send m).lnkNsel = s.lnkNsel := rfl
@[simp] theorem State.send_lnkSsel (s : State) (m : OutMsg) : (s.send m).lnkSsel = s.lnkSsel := rfl
@[simp] theorem State.send_fabricWaits (s : State) (m : OutMsg) : (s.send m).fabricWaits = s.fabricWaits := rfl
@[simp] theorem State.send_collMsgs (s : State) (m : OutMsg) : (s.send m).collMsgs = s.collMsgs := rfl
@[simp] theorem State.send_keptDones (s : State) (m : OutMsg) : (s.send m).keptDones = s.keptDones := rfl
@[simp] theorem State.send_ctxs (s : State) (m : OutMsg) : (s.send m).ctxs = s.ctxs := rfl
@[simp] theorem State.send_launches (s : State) (m : OutMsg) : (s.send m).launches = s.launches := rfl
@[simp] theorem State.send_dieLists (s : State) (m : OutMsg) : (s.send m).dieLists = s.dieLists := rfl
@[simp] theorem State.send_lastServed (s : State) (m : OutMsg) : (s.send m).lastServed = s.lastServed := rfl
@[simp] theorem State.send_blocks (s : State) (m : OutMsg) : (s.send m).blocks = s.blocks := rfl
@[simp] theorem State.send_waves (s : State) (m : OutMsg) : (s.send m).waves = s.waves := rfl
@[simp] theorem State.send_lastSlot (s : State) (m : OutMsg) : (s.send m).lastSlot = s.lastSlot := rfl
@[simp] theorem State.send_fills (s : State) (m : OutMsg) : (s.send m).fills = s.fills := rfl
@[simp] theorem State.send_ops (s : State) (m : OutMsg) : (s.send m).ops = s.ops := rfl
@[simp] theorem State.send_stash (s : State) (m : OutMsg) : (s.send m).stash = s.stash := rfl
@[simp] theorem State.send_acc (s : State) (m : OutMsg) : (s.send m).acc = s.acc := rfl
@[simp] theorem State.send_accPoison (s : State) (m : OutMsg) : (s.send m).accPoison = s.accPoison := rfl
@[simp] theorem State.send_accParity (s : State) (m : OutMsg) : (s.send m).accParity = s.accParity := rfl
@[simp] theorem State.send_banks (s : State) (m : OutMsg) : (s.send m).banks = s.banks := rfl
@[simp] theorem State.send_mtxErr (s : State) (m : OutMsg) : (s.send m).mtxErr = s.mtxErr := rfl
@[simp] theorem State.send_bstore (s : State) (m : OutMsg) : (s.send m).bstore = s.bstore := rfl
@[simp] theorem State.send_cohorts (s : State) (m : OutMsg) : (s.send m).cohorts = s.cohorts := rfl
@[simp] theorem State.send_barriers (s : State) (m : OutMsg) : (s.send m).barriers = s.barriers := rfl
@[simp] theorem State.send_rounds (s : State) (m : OutMsg) : (s.send m).rounds = s.rounds := rfl
@[simp] theorem State.send_shadowWaits (s : State) (m : OutMsg) : (s.send m).shadowWaits = s.shadowWaits := rfl
@[simp] theorem State.send_unpublished (s : State) (m : OutMsg) : (s.send m).unpublished = s.unpublished := rfl
@[simp] theorem State.send_tickets (s : State) (m : OutMsg) : (s.send m).tickets = s.tickets := rfl
@[simp] theorem State.send_inbox (s : State) (m : OutMsg) : (s.send m).inbox = s.inbox := rfl
@[simp] theorem State.send_agenda (s : State) (m : OutMsg) : (s.send m).agenda = s.agenda := rfl
@[simp] theorem State.send_out (s : State) (m : OutMsg) : (s.send m).out = s.out ++ [m] := rfl
@[simp] theorem State.send_cur (s : State) (m : OutMsg) : (s.send m).cur = s.cur := rfl
@[simp] theorem State.send_turnRegs (s : State) (m : OutMsg) : (s.send m).turnRegs = s.turnRegs := rfl
@[simp] theorem State.send_last (s : State) (m : OutMsg) : (s.send m).last = s.last := rfl
@[simp] theorem State.send_tick (s : State) (m : OutMsg) : (s.send m).tick = s.tick := rfl
@[simp] theorem State.send_nextId (s : State) (m : OutMsg) : (s.send m).nextId = s.nextId := rfl

/-! ### store -/

@[simp] theorem State.store_power (s : State) (k : Nat) (bs : List Byte) : (s.store k bs).power = s.power := rfl
@[simp] theorem State.store_flash (s : State) (k : Nat) (bs : List Byte) : (s.store k bs).flash = s.flash := rfl
@[simp] theorem State.store_plat (s : State) (k : Nat) (bs : List Byte) : (s.store k bs).plat = s.plat := rfl
@[simp] theorem State.store_node (s : State) (k : Nat) (bs : List Byte) : (s.store k bs).node = s.node := rfl
@[simp] theorem State.store_cycle (s : State) (k : Nat) (bs : List Byte) : (s.store k bs).cycle = s.cycle := rfl
@[simp] theorem State.store_latencyCycle (s : State) (k : Nat) (bs : List Byte) : (s.store k bs).latencyCycle = s.latencyCycle := rfl
@[simp] theorem State.store_timeNs (s : State) (k : Nat) (bs : List Byte) : (s.store k bs).timeNs = s.timeNs := rfl
@[simp] theorem State.store_mem (s : State) (k : Nat) (bs : List Byte) : (s.store k bs).mem = Cells.setRun Memory.default s.mem k bs := rfl
@[simp] theorem State.store_lineMeta (s : State) (k : Nat) (bs : List Byte) : (s.store k bs).lineMeta = s.lineMeta := rfl
@[simp] theorem State.store_alloc (s : State) (k : Nat) (bs : List Byte) : (s.store k bs).alloc = s.alloc := rfl
@[simp] theorem State.store_devOld (s : State) (k : Nat) (bs : List Byte) : (s.store k bs).devOld = s.devOld := rfl
@[simp] theorem State.store_stale (s : State) (k : Nat) (bs : List Byte) : (s.store k bs).stale = s.stale := rfl
@[simp] theorem State.store_cache (s : State) (k : Nat) (bs : List Byte) : (s.store k bs).cache = s.cache := rfl
@[simp] theorem State.store_writebacks (s : State) (k : Nat) (bs : List Byte) : (s.store k bs).writebacks = s.writebacks := rfl
@[simp] theorem State.store_cacheWait (s : State) (k : Nat) (bs : List Byte) : (s.store k bs).cacheWait = s.cacheWait := rfl
@[simp] theorem State.store_l2 (s : State) (k : Nat) (bs : List Byte) : (s.store k bs).l2 = s.l2 := rfl
@[simp] theorem State.store_dir (s : State) (k : Nat) (bs : List Byte) : (s.store k bs).dir = s.dir := rfl
@[simp] theorem State.store_homeQ (s : State) (k : Nat) (bs : List Byte) : (s.store k bs).homeQ = s.homeQ := rfl
@[simp] theorem State.store_l0 (s : State) (k : Nat) (bs : List Byte) : (s.store k bs).l0 = s.l0 := rfl
@[simp] theorem State.store_icache (s : State) (k : Nat) (bs : List Byte) : (s.store k bs).icache = s.icache := rfl
@[simp] theorem State.store_cohDira (s : State) (k : Nat) (bs : List Byte) : (s.store k bs).cohDira = s.cohDira := rfl
@[simp] theorem State.store_cohDire (s : State) (k : Nat) (bs : List Byte) : (s.store k bs).cohDire = s.cohDire := rfl
@[simp] theorem State.store_cross (s : State) (k : Nat) (bs : List Byte) : (s.store k bs).cross = s.cross := rfl
@[simp] theorem State.store_overflow (s : State) (k : Nat) (bs : List Byte) : (s.store k bs).overflow = s.overflow := rfl
@[simp] theorem State.store_place (s : State) (k : Nat) (bs : List Byte) : (s.store k bs).place = s.place := rfl
@[simp] theorem State.store_ownTable (s : State) (k : Nat) (bs : List Byte) : (s.store k bs).ownTable = s.ownTable := rfl
@[simp] theorem State.store_plcArg (s : State) (k : Nat) (bs : List Byte) : (s.store k bs).plcArg = s.plcArg := rfl
@[simp] theorem State.store_plcStatus (s : State) (k : Nat) (bs : List Byte) : (s.store k bs).plcStatus = s.plcStatus := rfl
@[simp] theorem State.store_plcFrame (s : State) (k : Nat) (bs : List Byte) : (s.store k bs).plcFrame = s.plcFrame := rfl
@[simp] theorem State.store_migCtl (s : State) (k : Nat) (bs : List Byte) : (s.store k bs).migCtl = s.migCtl := rfl
@[simp] theorem State.store_migAborted (s : State) (k : Nat) (bs : List Byte) : (s.store k bs).migAborted = s.migAborted := rfl
@[simp] theorem State.store_migDone (s : State) (k : Nat) (bs : List Byte) : (s.store k bs).migDone = s.migDone := rfl
@[simp] theorem State.store_guests (s : State) (k : Nat) (bs : List Byte) : (s.store k bs).guests = s.guests := rfl
@[simp] theorem State.store_tlb (s : State) (k : Nat) (bs : List Byte) : (s.store k bs).tlb = s.tlb := rfl
@[simp] theorem State.store_shootdowns (s : State) (k : Nat) (bs : List Byte) : (s.store k bs).shootdowns = s.shootdowns := rfl
@[simp] theorem State.store_ports (s : State) (k : Nat) (bs : List Byte) : (s.store k bs).ports = s.ports := rfl
@[simp] theorem State.store_nodes (s : State) (k : Nat) (bs : List Byte) : (s.store k bs).nodes = s.nodes := rfl
@[simp] theorem State.store_fabric (s : State) (k : Nat) (bs : List Byte) : (s.store k bs).fabric = s.fabric := rfl
@[simp] theorem State.store_fabricIn (s : State) (k : Nat) (bs : List Byte) : (s.store k bs).fabricIn = s.fabricIn := rfl
@[simp] theorem State.store_hostIn (s : State) (k : Nat) (bs : List Byte) : (s.store k bs).hostIn = s.hostIn := rfl
@[simp] theorem State.store_sessions (s : State) (k : Nat) (bs : List Byte) : (s.store k bs).sessions = s.sessions := rfl
@[simp] theorem State.store_lnkNsel (s : State) (k : Nat) (bs : List Byte) : (s.store k bs).lnkNsel = s.lnkNsel := rfl
@[simp] theorem State.store_lnkSsel (s : State) (k : Nat) (bs : List Byte) : (s.store k bs).lnkSsel = s.lnkSsel := rfl
@[simp] theorem State.store_fabricWaits (s : State) (k : Nat) (bs : List Byte) : (s.store k bs).fabricWaits = s.fabricWaits := rfl
@[simp] theorem State.store_collMsgs (s : State) (k : Nat) (bs : List Byte) : (s.store k bs).collMsgs = s.collMsgs := rfl
@[simp] theorem State.store_keptDones (s : State) (k : Nat) (bs : List Byte) : (s.store k bs).keptDones = s.keptDones := rfl
@[simp] theorem State.store_ctxs (s : State) (k : Nat) (bs : List Byte) : (s.store k bs).ctxs = s.ctxs := rfl
@[simp] theorem State.store_launches (s : State) (k : Nat) (bs : List Byte) : (s.store k bs).launches = s.launches := rfl
@[simp] theorem State.store_dieLists (s : State) (k : Nat) (bs : List Byte) : (s.store k bs).dieLists = s.dieLists := rfl
@[simp] theorem State.store_lastServed (s : State) (k : Nat) (bs : List Byte) : (s.store k bs).lastServed = s.lastServed := rfl
@[simp] theorem State.store_blocks (s : State) (k : Nat) (bs : List Byte) : (s.store k bs).blocks = s.blocks := rfl
@[simp] theorem State.store_waves (s : State) (k : Nat) (bs : List Byte) : (s.store k bs).waves = s.waves := rfl
@[simp] theorem State.store_lastSlot (s : State) (k : Nat) (bs : List Byte) : (s.store k bs).lastSlot = s.lastSlot := rfl
@[simp] theorem State.store_fills (s : State) (k : Nat) (bs : List Byte) : (s.store k bs).fills = s.fills := rfl
@[simp] theorem State.store_ops (s : State) (k : Nat) (bs : List Byte) : (s.store k bs).ops = s.ops := rfl
@[simp] theorem State.store_stash (s : State) (k : Nat) (bs : List Byte) : (s.store k bs).stash = s.stash := rfl
@[simp] theorem State.store_acc (s : State) (k : Nat) (bs : List Byte) : (s.store k bs).acc = s.acc := rfl
@[simp] theorem State.store_accPoison (s : State) (k : Nat) (bs : List Byte) : (s.store k bs).accPoison = s.accPoison := rfl
@[simp] theorem State.store_accParity (s : State) (k : Nat) (bs : List Byte) : (s.store k bs).accParity = s.accParity := rfl
@[simp] theorem State.store_banks (s : State) (k : Nat) (bs : List Byte) : (s.store k bs).banks = s.banks := rfl
@[simp] theorem State.store_mtxErr (s : State) (k : Nat) (bs : List Byte) : (s.store k bs).mtxErr = s.mtxErr := rfl
@[simp] theorem State.store_bstore (s : State) (k : Nat) (bs : List Byte) : (s.store k bs).bstore = s.bstore := rfl
@[simp] theorem State.store_cohorts (s : State) (k : Nat) (bs : List Byte) : (s.store k bs).cohorts = s.cohorts := rfl
@[simp] theorem State.store_barriers (s : State) (k : Nat) (bs : List Byte) : (s.store k bs).barriers = s.barriers := rfl
@[simp] theorem State.store_rounds (s : State) (k : Nat) (bs : List Byte) : (s.store k bs).rounds = s.rounds := rfl
@[simp] theorem State.store_shadowWaits (s : State) (k : Nat) (bs : List Byte) : (s.store k bs).shadowWaits = s.shadowWaits := rfl
@[simp] theorem State.store_unpublished (s : State) (k : Nat) (bs : List Byte) : (s.store k bs).unpublished = s.unpublished := rfl
@[simp] theorem State.store_tickets (s : State) (k : Nat) (bs : List Byte) : (s.store k bs).tickets = s.tickets := rfl
@[simp] theorem State.store_inbox (s : State) (k : Nat) (bs : List Byte) : (s.store k bs).inbox = s.inbox := rfl
@[simp] theorem State.store_agenda (s : State) (k : Nat) (bs : List Byte) : (s.store k bs).agenda = s.agenda := rfl
@[simp] theorem State.store_out (s : State) (k : Nat) (bs : List Byte) : (s.store k bs).out = s.out := rfl
@[simp] theorem State.store_cur (s : State) (k : Nat) (bs : List Byte) : (s.store k bs).cur = s.cur := rfl
@[simp] theorem State.store_turnRegs (s : State) (k : Nat) (bs : List Byte) : (s.store k bs).turnRegs = s.turnRegs := rfl
@[simp] theorem State.store_last (s : State) (k : Nat) (bs : List Byte) : (s.store k bs).last = s.last := rfl
@[simp] theorem State.store_tick (s : State) (k : Nat) (bs : List Byte) : (s.store k bs).tick = s.tick := rfl
@[simp] theorem State.store_nextId (s : State) (k : Nat) (bs : List Byte) : (s.store k bs).nextId = s.nextId := rfl

/-! ### The wave and the context of a changed state -/

theorem State.find_modWave_self (s : State) (k : Nat) (f : Wave → Wave) :
    Cells.find (s.modWave k f).waves k = (Cells.find s.waves k).map f := Cells.find_modify_self _ _ _

theorem State.find_modWave_ne (s : State) {k j : Nat} (f : Wave → Wave) (h : j ≠ k) :
    Cells.find (s.modWave k f).waves j = Cells.find s.waves j := Cells.find_modify_ne _ _ h

theorem State.waveAt_of_find {s : State} {k : Nat} {w : Wave} (h : Cells.find s.waves k = some w) : s.waveAt k = w := by
  simp [State.waveAt, h]

theorem State.waveAt_modWave_self {s : State} {k : Nat} {w : Wave} (f : Wave → Wave)
    (h : Cells.find s.waves k = some w) : (s.modWave k f).waveAt k = f w := by
  simp only [State.waveAt, State.find_modWave_self, h]; rfl

theorem State.waveAt_modWave_ne (s : State) {k j : Nat} (f : Wave → Wave) (h : j ≠ k) :
    (s.modWave k f).waveAt j = s.waveAt j := by
  simp only [State.waveAt, State.find_modWave_ne s f h]

@[simp] theorem State.ctxAt_modCtx_self (s : State) (c : Nat) (f : Context → Context) :
    (s.modCtx c f).ctxAt c = f (s.ctxAt c) := Cells.get_set_self _ _ _ _

theorem State.ctxAt_modCtx_ne (s : State) {c d : Nat} (f : Context → Context) (h : d ≠ c) :
    (s.modCtx c f).ctxAt d = s.ctxAt d := Cells.get_set_ne _ _ _ h

@[simp] theorem State.ctxAt_modWave (s : State) (k : Nat) (f : Wave → Wave) (c : Nat) :
    (s.modWave k f).ctxAt c = s.ctxAt c := rfl

@[simp] theorem State.waveAt_modCtx (s : State) (c : Nat) (f : Context → Context) (k : Nat) :
    (s.modCtx c f).waveAt k = s.waveAt k := rfl

end Sys2Proof.Machine
end

