-- ==== Sys2Proof/Laws/Lanes.lean ====
section
/-! SUPPORT. What a word does whose effect is a value in each result lane, or a predicate in each active lane: the laws of
`runLanes` and `runPreds`, said once for every instruction of these shapes. -/

namespace Sys2Proof.Machine

open Sys2Proof

/-! ### Lanes -/

theorem mem_laneList {m : Word} {l : Nat} : l ∈ laneList m ↔ l < 32 ∧ m.getLsbD l = true := by
  simp [laneList, List.mem_filter, List.mem_range]

theorem laneList_nodup (m : Word) : (laneList m).Nodup := List.nodup_range.filter _

theorem lowestLane_lt {m : Word} : lowestLane m < 32 := by
  unfold lowestLane
  cases h : laneList m with
  | nil => simp
  | cons a t =>
    have : a ∈ laneList m := by rw [h]; exact List.mem_cons_self
    exact (mem_laneList.mp this).1

/-! ### One wave -/

/-- A change of one wave alone. -/
theorem State.onlyWave_modWave (s : State) (k : Nat) (f : Wave → Wave) : (s.modWave k f).OnlyWave s k :=
  ⟨rfl, fun _ h => State.find_modWave_ne s f h⟩

theorem State.OnlyWave.trans {a b c : State} {k : Nat} (h : c.OnlyWave b k) (g : b.OnlyWave a k) : c.OnlyWave a k := by
  refine ⟨?_, fun j hj => (h.2 j hj).trans (g.2 j hj)⟩
  have h1 := h.1
  have g1 := g.1
  rw [← g1, ← h1]

/-- A word that issues has its wave. -/
theorem envOf_wave {s : State} {f : FWord} {e : Env} (h : s.envOf f = some e) :
    (∃ w, Cells.find s.waves e.key = some w) ∧ e.f = f := by
  unfold State.envOf at h
  cases hc : s.cur with
  | none => simp [hc] at h
  | some i =>
    simp only [hc] at h
    cases hw : Cells.find s.waves i.wave with
    | none => simp [hw] at h
    | some w =>
      simp only [hw, Option.some.injEq] at h
      subst h
      exact ⟨⟨w, hw⟩, rfl⟩

/-- What `runWord` answers for a word that issues. -/
theorem runWord_issues {p : OpSpec} {f : FWord} {s : State} {e : Env} (h : Issues p f s e) (body : Env → State → State) :
    runWord p f s body = .next (body e s) := by
  have ha := h.active
  simp only [runWord, runWordWith, h.env, h.legal, h.full, if_neg ha]

theorem runPlain_issues {p : OpSpec} {f : FWord} {s : State} {e : Env} (h : Issues p f s e) (body : Env → State → State) :
    runPlain p f s body = .next ((body e s).advance e) := runWord_issues h _

/-- A word that issues has one of the types its encoding rules give. -/
theorem Issues.typing {p : OpSpec} {f : FWord} {s : State} {e : Env} {ok : List Nat} (hi : Issues p f s e)
    (h : p.typing = .codes ok) : f.tcode ∈ ok := by
  have hl := hi.legal
  unfold OpSpec.trap at hl
  split at hl
  · simp at hl
  · split at hl
    · simp at hl
    · split at hl
      · simp at hl
      · rename_i hn
        unfold OpSpec.illegalTrap at hn
        simp only [h] at hn
        simp at hn
        exact hn.1.1.2

/-- A word that issues breaches none of its further encoding rules. -/
theorem Issues.sound {p : OpSpec} {f : FWord} {s : State} {e : Env} (hi : Issues p f s e) :
    p.reserved = false ∧ p.illegal = false := by
  have hl := hi.legal
  unfold OpSpec.trap at hl
  split at hl
  · simp at hl
  · split at hl
    · simp at hl
    · rename_i hr
      split at hl
      · simp at hl
      · rename_i hn
        unfold OpSpec.illegalTrap at hn
        unfold OpSpec.reservedTrap at hr
        simp at hn hr
        exact ⟨hr.2, hn.2⟩

/-! ### Writing a destination -/

/-- A wave whose lanes have been written one after another. -/
def Wave.putLanes (w : Wave) (ty : Nat) (f : Field) (val : Nat → Nat) (ls : List Nat) : Wave :=
  ls.foldl (fun u l => u.putDest ty f l (val l)) w

theorem State.foldl_write (s : State) (e : Env) (ty : Nat) (val : Nat → Nat) (ls : List Nat) :
    let t := ls.foldl (fun t l => t.write e ty e.f.fd l (val l)) s
    t.OnlyWave s e.key ∧ ∀ w, Cells.find s.waves e.key = some w →
      Cells.find t.waves e.key = some (w.putLanes ty e.f.fd val ls) := by
  induction ls generalizing s with
  | nil => exact ⟨⟨rfl, fun _ _ => rfl⟩, fun w h => h⟩
  | cons l ls ih =>
    have := ih (s.write e ty e.f.fd l (val l))
    refine ⟨this.1.trans (State.onlyWave_modWave s e.key _), fun w h => ?_⟩
    have h2 := this.2 (w.putDest ty e.f.fd l (val l)) (by simp [State.write, h])
    exact h2

/-- Only registers change when a destination is written. -/
theorem Wave.putDest_other (w : Wave) (ty : Nat) (f : Field) (l x : Nat) :
    w.putDest ty f l x = { w with regs := (w.putDest ty f l x).regs } := by
  unfold Wave.putDest
  split
  · split <;> rfl
  · rfl
  · rfl
  · rfl

theorem Wave.putLanes_other (w : Wave) (ty : Nat) (f : Field) (val : Nat → Nat) (ls : List Nat) :
    w.putLanes ty f val ls = { w with regs := (w.putLanes ty f val ls).regs } := by
  induction ls generalizing w with
  | nil => rfl
  | cons l ls ih =>
    have h := ih (w.putDest ty f l (val l))
    have g := Wave.putDest_other w ty f l (val l)
    show (w.putDest ty f l (val l)).putLanes ty f val ls = { w with regs := ((w.putDest ty f l (val l)).putLanes ty f val ls).regs }
    rw [h, g]

/-- v registers that a written lane does not name keep their value. -/
theorem Wave.vGet_putDest_ne (w : Wave) (ty : Nat) (f : Field) (l x n m : Nat) (hm : m < 32) (hl : l < 32)
    (h : ¬ (m = l ∧ ∃ d, srcOf f = .v d ∧ (n = d ∨ (typeWidth ty = 64 ∧ n = d + 1)))) :
    (w.putDest ty f l x).regs.vGet n m = w.regs.vGet n m := by
  unfold Wave.putDest
  cases hs : srcOf f with
  | v d =>
    simp only
    have key : ∀ a, (n ≠ a ∨ m ≠ l) → n * 32 + m ≠ a * 32 + l := by
      intro a h1 h2; omega
    by_cases h64 : typeWidth ty = 64
    · rw [if_pos h64]
      have h1 : n ≠ d ∨ m ≠ l := by
        by_cases hml : m = l
        · left; intro hnd; exact h ⟨hml, d, hs, .inl hnd⟩
        · exact .inr hml
      have h2 : n ≠ d + 1 ∨ m ≠ l := by
        by_cases hml : m = l
        · left; intro hnd; exact h ⟨hml, d, hs, .inr ⟨h64, hnd⟩⟩
        · exact .inr hml
      simp only [Wave.setV, RegFile.vGet]
      rw [Cells.get_set_ne _ _ _ (key _ h2), Cells.get_set_ne _ _ _ (key _ h1)]
    · rw [if_neg h64]
      have h1 : n ≠ d ∨ m ≠ l := by
        by_cases hml : m = l
        · left; intro hnd; exact h ⟨hml, d, hs, .inl hnd⟩
        · exact .inr hml
      simp only [Wave.setV, RegFile.vGet]
      rw [Cells.get_set_ne _ _ _ (key _ h1)]
  | s d => rfl
  | special d => rfl
  | const d => rfl
  | lit d => rfl

theorem Wave.putLanes_latency (w : Wave) (ty : Nat) (f : Field) (val : Nat → Nat) (ls : List Nat) :
    (w.putLanes ty f val ls).latency = w.latency ∧ (w.putLanes ty f val ls).trapMode = w.trapMode := by
  rw [Wave.putLanes_other]; exact ⟨rfl, rfl⟩

theorem Wave.vGet_putDest_self (w : Wave) (ty : Nat) (f : Field) (l x d : Nat) (h : srcOf f = .v d) :
    if typeWidth ty = 64 then
      (w.putDest ty f l x).regs.vGet d l = BitVec.ofNat 32 x ∧
        (w.putDest ty f l x).regs.vGet (d + 1) l = BitVec.ofNat 32 (x / 2 ^ 32)
    else (w.putDest ty f l x).regs.vGet d l = extend32 ty x := by
  unfold Wave.putDest
  rw [h]
  simp only
  split
  · refine ⟨?_, ?_⟩
    · simp only [Wave.setV, RegFile.vGet]
      rw [Cells.get_set_ne _ _ _ (by omega), Cells.get_set_self]
    · simp [Wave.setV, RegFile.vGet]
  · simp [Wave.setV, RegFile.vGet]

/-- Registers of other lanes are left alone by a list of lane writes. -/
theorem Wave.vGet_putLanes_ne (w : Wave) (ty : Nat) (f : Field) (val : Nat → Nat) (ls : List Nat) (n m : Nat) (hm : m < 32)
    (hls : ∀ l ∈ ls, l < 32) (h : ¬ (m ∈ ls ∧ ∃ d, srcOf f = .v d ∧ (n = d ∨ (typeWidth ty = 64 ∧ n = d + 1)))) :
    (w.putLanes ty f val ls).regs.vGet n m = w.regs.vGet n m := by
  induction ls generalizing w with
  | nil => rfl
  | cons l ls ih =>
    show ((w.putDest ty f l (val l)).putLanes ty f val ls).regs.vGet n m = _
    rw [ih _ (fun a ha => hls a (List.mem_cons_of_mem _ ha)) (fun g => h ⟨List.mem_cons_of_mem _ g.1, g.2⟩)]
    exact Wave.vGet_putDest_ne w ty f l (val l) n m hm (hls l List.mem_cons_self)
      (fun g => h ⟨by rw [g.1]; exact List.mem_cons_self, g.2⟩)

/-- Each lane written once holds its value. -/
theorem Wave.vGet_putLanes_self (w : Wave) (ty : Nat) (f : Field) (val : Nat → Nat) (ls : List Nat) (d : Nat)
    (h : srcOf f = .v d) (hls : ∀ l ∈ ls, l < 32) (hn : ls.Nodup) (l : Nat) (hl : l ∈ ls) :
    if typeWidth ty = 64 then
      (w.putLanes ty f val ls).regs.vGet d l = BitVec.ofNat 32 (val l) ∧
        (w.putLanes ty f val ls).regs.vGet (d + 1) l = BitVec.ofNat 32 (val l / 2 ^ 32)
    else (w.putLanes ty f val ls).regs.vGet d l = extend32 ty (val l) := by
  induction ls generalizing w with
  | nil => simp at hl
  | cons a ls ih =>
    have hn' := List.nodup_cons.mp hn
    show if _ then ((w.putDest ty f a (val a)).putLanes ty f val ls).regs.vGet d l = _ ∧ _ else _
    by_cases ha : l = a
    · subst ha
      have keep := fun n => Wave.vGet_putLanes_ne (w.putDest ty f l (val l)) ty f val ls n l (hls l hl)
        (fun b hb => hls b (List.mem_cons_of_mem _ hb)) (fun g => hn'.1 g.1)
      have := Wave.vGet_putDest_self w ty f l (val l) d h
      split
      · rename_i h64
        rw [if_pos h64] at this
        exact ⟨(keep d).trans this.1, (keep (d + 1)).trans this.2⟩
      · rename_i h64
        rw [if_neg h64] at this
        exact (keep d).trans this
    · exact ih _ (fun b hb => hls b (List.mem_cons_of_mem _ hb)) hn'.2
        ((List.mem_cons.mp hl).resolve_left ha)

/-! ### The advance -/

theorem Wave.setPcs_pcOf_out (w : Wave) (ls : List Nat) (f : Nat → DWord) (l : Nat) (h : l ∉ ls) :
    (w.setPcs ls f).pcOf l = w.pcOf l := by
  unfold Wave.setPcs Wave.pcOf
  simp only
  generalize w.pcs = m
  induction ls generalizing m with
  | nil => rfl
  | cons a ls ih =>
    simp only [List.mem_cons, not_or] at h
    rw [List.foldl_cons, ih h.2, Cells.get_set_ne _ _ _ h.1]

theorem Wave.setPcs_pcOf_in (w : Wave) (ls : List Nat) (x : DWord) (l : Nat) (h : l ∈ ls) :
    (w.setPcs ls (fun _ => x)).pcOf l = x := by
  unfold Wave.setPcs Wave.pcOf
  simp only
  generalize w.pcs = m
  induction ls generalizing m with
  | nil => simp at h
  | cons a ls ih =>
    rw [List.foldl_cons]
    by_cases hl : l ∈ ls
    · exact ih hl _
    · have ha : l = a := (List.mem_cons.mp h).resolve_right hl
      subst ha
      have := Wave.setPcs_pcOf_out { w with pcs := Cells.set 0 m l x } ls (fun _ => x) l hl
      unfold Wave.setPcs Wave.pcOf at this
      simp only at this
      rw [this, Cells.get_set_self]

/-- The waits of a wave name every lane that waits. -/
theorem Wave.mem_waiting (w : Wave) (l : Nat) (x : LaneWait) (hx : x ∈ w.waits) (h : x.lanes.getLsbD l = true) :
    w.waiting.getLsbD l = true := by
  have mono : ∀ (xs : List LaneWait) (m : Word), m.getLsbD l = true →
      (xs.foldl (fun m x => m ||| x.lanes) m).getLsbD l = true := by
    intro xs
    induction xs with
    | nil => exact fun m h => h
    | cons y ys ih => intro m hm; exact ih _ (by simp [hm])
  have key : ∀ (xs : List LaneWait) (m : Word), x ∈ xs → (xs.foldl (fun m x => m ||| x.lanes) m).getLsbD l = true := by
    intro xs
    induction xs with
    | nil => intro m hm; simp at hm
    | cons y ys ih =>
      intro m hm
      rcases List.mem_cons.mp hm with rfl | hm
      · exact mono ys _ (by simp [h])
      · exact ih _ hm
  exact key w.waits 0 hx

/-- What is looked at again at a mask leaves everything but waits and the pcs of waiting lanes alone. -/
theorem Wave.settleMasks_other (w : Wave) :
    w.settleMasks = { w with pcs := w.settleMasks.pcs, waits := w.settleMasks.waits } := by
  unfold Wave.settleMasks
  simp only
  generalize hf : (fun (x : LaneWait) => _) = free
  have key : ∀ (xs : List LaneWait) (g : Wave → LaneWait → Wave)
      (hg : ∀ u x, g u x = { u with pcs := (g u x).pcs }) (u : Wave),
      xs.foldl g u = { u with pcs := (xs.foldl g u).pcs } := by
    intro xs g hg
    induction xs with
    | nil => intro u; rfl
    | cons x xs ih =>
      intro u
      rw [List.foldl_cons, ih (g u x), hg u x]
  rw [key w.waits _ (fun u x => rfl) w]

theorem Wave.settleMasks_pcOf (w : Wave) (l : Nat) (h : w.waiting.getLsbD l = false) :
    w.settleMasks.pcOf l = w.pcOf l := by
  have keep : ∀ x ∈ w.waits, x.lanes.getLsbD l = false := by
    intro x hx
    cases hb : x.lanes.getLsbD l with
    | false => rfl
    | true => rw [Wave.mem_waiting w l x hx hb] at h; exact h
  have key : ∀ (free : LaneWait → Word) (hfree : ∀ x, x.lanes.getLsbD l = false → (free x).getLsbD l = false)
      (xs : List LaneWait) (hxs : ∀ x ∈ xs, x.lanes.getLsbD l = false) (u : Wave),
      (xs.foldl (fun u x => u.setPcs (laneList (free x)) (fun _ => x.pc + BitVec.ofNat 64 x.size)) u).pcOf l = u.pcOf l := by
    intro free hfree xs
    induction xs with
    | nil => intro _ u; rfl
    | cons x xs ih =>
      intro hxs u
      rw [List.foldl_cons, ih (fun y hy => hxs y (List.mem_cons_of_mem _ hy))]
      apply Wave.setPcs_pcOf_out
      intro hm
      have := (mem_laneList.mp hm).2
      rw [hfree x (hxs x List.mem_cons_self)] at this
      exact absurd this (by decide)
  unfold Wave.settleMasks
  simp only
  apply key _ _ w.waits keep w
  intro x hx
  split
  · split
    · exact hx
    · simp [hx]
  · simp

/-- What the advance of a group makes of its wave. -/
def Wave.advanced (w : Wave) (e : Env) : Wave :=
  let v := w.setPcs (laneList (e.lanes &&& ~~~ w.waiting)) (fun _ => e.pc + BitVec.ofNat 64 e.size)
  { v with starve := (laneList e.lanes).foldl (fun m l => Cells.del m l) v.starve, blocked := none }.settleMasks

theorem State.advance_eq (s : State) (e : Env) :
    s.advance e = ({ s with last := .issued } : State).modWave e.key (fun w => w.advanced e) := rfl

theorem Wave.advanced_other (w : Wave) (e : Env) :
    w.advanced e = { w with pcs := (w.advanced e).pcs, starve := (w.advanced e).starve, blocked := none,
                            waits := (w.advanced e).waits } := by
  unfold Wave.advanced
  simp only
  rw [Wave.settleMasks_other]
  rfl

theorem Wave.advanced_pcOf (w : Wave) (e : Env) (l : Nat) (hl : l ∈ laneList (e.lanes &&& ~~~ w.waiting)) :
    (w.advanced e).pcOf l = e.pc + BitVec.ofNat 64 e.size := by
  unfold Wave.advanced
  simp only
  rw [Wave.settleMasks_pcOf]
  · exact Wave.setPcs_pcOf_in w _ _ l hl
  · have := (mem_laneList.mp hl).2
    simp only [BitVec.getLsbD_and, BitVec.getLsbD_not, Bool.and_eq_true, Bool.not_eq_true'] at this
    exact this.2.2

/-- The advance of the issuing group. -/
theorem State.advance_wave (s : State) (e : Env) (w : Wave) (h : Cells.find s.waves e.key = some w) :
    ∃ u, Cells.find (s.advance e).waves e.key = some u ∧
      u = { w with pcs := u.pcs, starve := u.starve, blocked := u.blocked, waits := u.waits } ∧
      ∀ l ∈ laneList (e.lanes &&& ~~~ w.waiting), u.pcOf l = e.pc + BitVec.ofNat 64 e.size := by
  refine ⟨w.advanced e, ?_, ?_, fun l hl => Wave.advanced_pcOf w e l hl⟩
  · rw [State.advance_eq]
    simp [State.modWave, h]
  · rw [Wave.advanced_other]

theorem State.advance_onlyWave (s : State) (e : Env) : (s.advance e).OnlyWave s e.key :=
  ⟨rfl, fun _ h => State.find_modWave_ne _ _ h⟩

/-! ### Words that compute a value, or a predicate, per lane -/

theorem State.waveAt_find {s : State} {k : Nat} {w : Wave} (h : Cells.find s.waves k = some w) : s.waveAt k = w := by
  simp [State.waveAt, h]

/-- A wave in which a predicate has been written in some lanes. -/
def Wave.putPreds (w : Wave) (n : Nat) (val : Nat → Bool) (ls : List Nat) : Wave :=
  ls.foldl (fun u l => u.setP n l (val l)) w

theorem State.foldl_setPred (s : State) (e : Env) (n : Nat) (val : Nat → Bool) (ls : List Nat) :
    let t := ls.foldl (fun t l => t.setPred e n l (val l)) s
    t.OnlyWave s e.key ∧ ∀ w, Cells.find s.waves e.key = some w → Cells.find t.waves e.key = some (w.putPreds n val ls) := by
  induction ls generalizing s with
  | nil => exact ⟨⟨rfl, fun _ _ => rfl⟩, fun w h => h⟩
  | cons l ls ih =>
    have := ih (s.setPred e n l (val l))
    refine ⟨this.1.trans (State.onlyWave_modWave s e.key _), fun w h => ?_⟩
    exact this.2 (w.setP n l (val l)) (by simp [State.setPred, h])

theorem Wave.setP_other (w : Wave) (n l : Nat) (b : Bool) :
    w.setP n l b = { w with regs := { w.regs with p := (w.setP n l b).regs.p } } := by
  unfold Wave.setP
  split <;> rfl

theorem Wave.putPreds_other (w : Wave) (n : Nat) (val : Nat → Bool) (ls : List Nat) :
    w.putPreds n val ls = { w with regs := { w.regs with p := (w.putPreds n val ls).regs.p } } := by
  induction ls generalizing w with
  | nil => rfl
  | cons l ls ih =>
    have h := ih (w.setP n l (val l))
    have g := Wave.setP_other w n l (val l)
    show (w.setP n l (val l)).putPreds n val ls = { w with regs := { w.regs with p := ((w.setP n l (val l)).putPreds n val ls).regs.p } }
    rw [h, g]

theorem Wave.putPreds_get_out (w : Wave) (n : Nat) (val : Nat → Bool) (ls : List Nat) (i : Nat)
    (h : ∀ l ∈ ls, i ≠ pIndex w.trapMode n * 32 + l) :
    Cells.get false (w.putPreds n val ls).regs.p i = Cells.get false w.regs.p i := by
  induction ls generalizing w with
  | nil => rfl
  | cons l ls ih =>
    show Cells.get false ((w.setP n l (val l)).putPreds n val ls).regs.p i = _
    have ht : (w.setP n l (val l)).trapMode = w.trapMode := by rw [Wave.setP_other]
    rw [ih _ (fun a ha => by rw [ht]; exact h a (List.mem_cons_of_mem _ ha))]
    unfold Wave.setP
    split
    · rfl
    · simp only
      rw [Cells.get_set_ne _ _ _ (h l List.mem_cons_self)]

theorem Wave.putPreds_get_in (w : Wave) (n : Nat) (val : Nat → Bool) (ls : List Nat) (l : Nat) (hn : n ≠ 0)
    (hd : ls.Nodup) (hl : l ∈ ls) :
    Cells.get false (w.putPreds n val ls).regs.p (pIndex w.trapMode n * 32 + l) = val l := by
  induction ls generalizing w with
  | nil => simp at hl
  | cons a ls ih =>
    have hd' := List.nodup_cons.mp hd
    have ht : (w.setP n a (val a)).trapMode = w.trapMode := by rw [Wave.setP_other]
    show Cells.get false ((w.setP n a (val a)).putPreds n val ls).regs.p _ = _
    by_cases ha : l = a
    · subst ha
      rw [Wave.putPreds_get_out]
      · simp [Wave.setP, hn]
      · intro b hb hEq
        rw [ht] at hEq
        have : b = l := by omega
        exact hd'.1 (this ▸ hb)
    · have := ih (w.setP n a (val a)) hd'.2 ((List.mem_cons.mp hl).resolve_left ha)
      rw [ht] at this
      exact this

/-- The law of a body that writes a value of a type in every result lane and predicates in the active lanes. -/
theorem onlyDest_advance {s t : State} {e : Env} {ty : Nat} {ps : List Nat} {w v : Wave} (val : Nat → Nat)
    (hw : Cells.find s.waves e.key = some w) (hout : t.OnlyWave s e.key) (hv : Cells.find t.waves e.key = some v)
    (hother : v = { w with regs := { (w.putLanes ty e.f.fd val e.resultLanes).regs with p := v.regs.p } })
    (hp : ∀ i, (∀ l ∈ laneList e.act, ∀ n ∈ ps, i ≠ pIndex w.trapMode n * 32 + l) →
      Cells.get false v.regs.p i = Cells.get false w.regs.p i) :
    (∀ l ∈ e.resultLanes, (t.advance e).ResultIs e ty l (val l)) ∧ (t.advance e).OnlyDest s e ty ps := by
  obtain ⟨u, hu, hsame, hpc⟩ := State.advance_wave t e v hv
  have hs := State.waveAt_find hw
  have ht := State.waveAt_find hu
  have hregs : u.regs = { (w.putLanes ty e.f.fd val e.resultLanes).regs with p := v.regs.p } := by
    rw [hsame]; simp only; rw [hother]
  have hlt : ∀ l ∈ e.resultLanes, l < 32 := by
    intro l hl
    unfold Env.resultLanes at hl
    split at hl
    · exact (mem_laneList.mp hl).1
    · rw [List.mem_singleton.mp hl]; exact lowestLane_lt
  refine ⟨?_, ?_⟩
  · intro l hl
    unfold State.ResultIs
    rw [ht]
    simp only
    have hlat : u.latency = w.latency ∧ u.trapMode = w.trapMode := by rw [hsame]; simp only; rw [hother]; exact ⟨rfl, rfl⟩
    cases hd : srcOf e.f.fd with
    | v d =>
      simp only [hregs]
      apply Wave.vGet_putLanes_self w _ _ _ _ d hd hlt _ l hl
      unfold Env.resultLanes
      rw [hd]
      exact laneList_nodup _
    | s d =>
      have hl' : e.resultLanes = [l] := by
        unfold Env.resultLanes at hl ⊢
        rw [hd] at hl ⊢
        rw [List.mem_singleton.mp hl]
      simp only [hregs, hl', hlat.2]
      simp [Wave.putLanes, Wave.putDest, hd, Wave.setS, Wave.setSAt, RegFile.sGet]
    | special d =>
      have hl' : e.resultLanes = [l] := by
        unfold Env.resultLanes at hl ⊢
        rw [hd] at hl ⊢
        rw [List.mem_singleton.mp hl]
      simp only [hregs, hl', hlat.1]
      simp [Wave.putLanes, Wave.putDest, hd, Wave.setM, RegFile.mGet]
    | const d => trivial
    | lit d => trivial
  · refine ⟨(State.advance_onlyWave _ e).trans hout, ?_, ?_, ?_, ?_, ?_, ?_⟩
    · rw [hs, ht]
      unfold Wave.SameBut
      rw [hsame]
      simp only
      rw [hother]
    · intro n l hl hnw
      rw [hs, ht, hregs]
      apply Wave.vGet_putLanes_ne w _ _ _ _ n l hl hlt
      intro hg
      apply hnw
      obtain ⟨hmem, d, hd, hn⟩ := hg
      refine ⟨?_, d, hd, hn⟩
      unfold Env.resultLanes at hmem
      rw [hd] at hmem
      exact hmem
    · intro i hi'
      rw [hs, ht, hregs]
      have : ∀ (ls : List Nat) (a : Wave), a.trapMode = w.trapMode →
          Cells.get 0 (a.putLanes ty e.f.fd val ls).regs.s i = Cells.get 0 a.regs.s i := by
        intro ls
        induction ls with
        | nil => intro a _; rfl
        | cons l ls ih =>
          intro a ha
          show Cells.get 0 ((a.putDest ty e.f.fd l _).putLanes ty e.f.fd val ls).regs.s i = _
          rw [ih _ (by rw [Wave.putDest_other]; exact ha)]
          unfold Wave.putDest
          cases hd : srcOf e.f.fd with
          | v d => simp only; split <;> rfl
          | s d =>
            simp only [Wave.setS, Wave.setSAt]
            rw [Cells.get_set_ne]
            have := hi' d hd
            rw [hs] at this
            rw [ha]
            exact this
          | special d => rfl
          | const d => rfl
          | lit d => rfl
      exact this _ w rfl
    · intro i hi'
      rw [hs, ht, hregs]
      rw [hs] at hi'
      exact hp i hi'
    · intro k hk
      rw [hs, ht, hregs]
      have : ∀ (ls : List Nat) (a : Wave),
          (a.putLanes ty e.f.fd val ls).regs.mGet k = a.regs.mGet k := by
        intro ls
        induction ls with
        | nil => intro a; rfl
        | cons l ls ih =>
          intro a
          show ((a.putDest ty e.f.fd l _).putLanes ty e.f.fd val ls).regs.mGet k = _
          rw [ih]
          unfold Wave.putDest
          cases hd : srcOf e.f.fd with
          | v d => simp only; split <;> rfl
          | s d => rfl
          | special d =>
            simp only [Wave.setM, RegFile.mGet]
            rw [Cells.get_set_ne]
            exact hk d hd
          | const d => rfl
          | lit d => rfl
      exact this _ w
    · intro l hl
      rw [ht]
      rw [hs] at hl
      apply hpc
      have : v.waiting = w.waiting := by rw [hother]; rfl
      rw [this]
      exact hl

theorem Wave.putLanes_p (w : Wave) (ty : Nat) (f : Field) (val : Nat → Nat) (ls : List Nat) :
    (w.putLanes ty f val ls).regs.p = w.regs.p := by
  induction ls generalizing w with
  | nil => rfl
  | cons l ls ih =>
    show ((w.putDest ty f l (val l)).putLanes ty f val ls).regs.p = _
    rw [ih]
    unfold Wave.putDest
    split
    · split <;> rfl
    all_goals rfl

theorem State.writeLanes_find {s : State} {e : Env} {w : Wave} (ty : Nat) (val : Nat → Nat)
    (h : Cells.find s.waves e.key = some w) :
    (s.writeLanes e ty val).OnlyWave s e.key ∧
      Cells.find (s.writeLanes e ty val).waves e.key = some (w.putLanes ty e.f.fd val e.resultLanes) :=
  ⟨(State.foldl_write s e ty val e.resultLanes).1, (State.foldl_write s e ty val e.resultLanes).2 w h⟩

/-- A body that writes a value of a type in every result lane. -/
theorem writes_advance {s : State} {e : Env} {w : Wave} (ty : Nat) (val : Nat → Nat)
    (hw : Cells.find s.waves e.key = some w) : ((s.writeLanes e ty val).advance e).Writes s e ty val := by
  have h := State.writeLanes_find ty val hw
  refine onlyDest_advance val hw h.1 h.2 ?_ ?_
  · rw [Wave.putLanes_other]
  · intro i _
    rw [Wave.putLanes_p]

/-- The law of `runLanes`: a word that issues computes its value in every result lane and changes nothing else. -/
theorem computes_runLanes {p : FWord → OpSpec} {i : FWord → Instr} {ty : FWord → Nat}
    {val : FWord → State → Env → Nat → Nat} (h : ∀ f s, exec (i f) s = runLanes (p f) f s (ty f) (val f)) :
    Computes p i ty val := by
  intro f s e hi _
  obtain ⟨w, hw⟩ := (envOf_wave hi.env).1
  exact ⟨_, by rw [h, runLanes, runPlain_issues hi], writes_advance (ty f) (val f s e) hw⟩

/-- As `computes_runLanes`, where the value is said in other words. -/
theorem computes_of_eq {p : FWord → OpSpec} {i : FWord → Instr} {ty : FWord → Nat}
    {val val' : FWord → State → Env → Nat → Nat} (h : ∀ f s, exec (i f) s = runLanes (p f) f s (ty f) (val' f))
    (hv : ∀ f s e l, Issues (p f) f s e → val f s e l = val' f s e l) : Computes p i ty val := by
  intro f s e hi _
  have : val f s e = val' f s e := by funext l; exact hv f s e l hi
  rw [this]
  exact computes_runLanes h f s e hi trivial

/-- The law of `runPreds`: a word that issues computes its predicate in every active lane and changes nothing else. -/
theorem decides_runPreds {p : FWord → OpSpec} {i : FWord → Instr} {val : FWord → State → Env → Nat → Bool}
    (h : ∀ f s, exec (i f) s = runPreds (p f) f s (val f)) : Decides p i val := by
  intro f s e hi
  obtain ⟨w, hw⟩ := (envOf_wave hi.env).1
  have hfold := State.foldl_setPred s e f.fd.toNat (val f s e) (laneList e.act)
  obtain ⟨u, hu, hsame, hpc⟩ := State.advance_wave _ e _ (hfold.2 w hw)
  have hs := State.waveAt_find hw
  have ht := State.waveAt_find hu
  have hother := Wave.putPreds_other w f.fd.toNat (val f s e) (laneList e.act)
  have hregs : u.regs = (w.putPreds f.fd.toNat (val f s e) (laneList e.act)).regs := by rw [hsame]
  refine ⟨_, by rw [h, runPreds, runPlain_issues hi], ?_, ?_, ?_, ?_, ?_, ?_, ?_, ?_⟩
  · intro l hl i hi0
    have : i = 0 := by omega
    subst this
    rw [Nat.add_zero, hs, ht, hregs]
    unfold RegFile.pGet
    by_cases hn : f.fd.toNat = 0
    · simp [hn]
    · rw [Wave.putPreds_get_in w _ _ _ l hn (laneList_nodup _) hl]
  · exact (State.advance_onlyWave _ e).trans hfold.1
  · rw [hs, ht]
    unfold Wave.SameBut
    rw [hsame, hother]
  · rw [hs, ht, hregs, hother]
  · rw [hs, ht, hregs, hother]
  · rw [hs, ht, hregs, hother]
  · intro i hi'
    rw [hs, ht, hregs]
    apply Wave.putPreds_get_out
    intro l hl
    have := hi' l hl 0 (by omega)
    rw [hs] at this
    exact this
  · intro l hl
    rw [ht]
    rw [hs] at hl
    apply hpc
    have : (w.putPreds f.fd.toNat (val f s e) (laneList e.act)).waiting = w.waiting := by rw [hother]; rfl
    rw [this]
    exact hl

/-- As `decides_runPreds`, where the value is said in other words. -/
theorem decides_of_eq {p : FWord → OpSpec} {i : FWord → Instr} {val val' : FWord → State → Env → Nat → Bool}
    (h : ∀ f s, exec (i f) s = runPreds (p f) f s (val' f))
    (hv : ∀ f s e l, Issues (p f) f s e → val f s e l = val' f s e l) : Decides p i val := by
  intro f s e hi
  have : val f s e = val' f s e := by funext l; exact hv f s e l hi
  simp only [this]
  exact decides_runPreds h f s e hi

end Sys2Proof.Machine
end

