-- ==== Sys2Proof/Laws/Boundary.lean ====
section
/-! SUPPORT. What a region boundary does when nothing stands against the instruction, and what it does when something does. -/

namespace Sys2Proof.Machine

open Sys2Proof

theorem openBoundary_none {s s1 : State} {e : Env} (h : s.Opens e s1) (check : State → Check) (act : State → State)
    (hc : check s1 = .ok) : s.atBoundary e check act = (act s1).closed e := by
  unfold State.atBoundary
  simp [h.owned, h.opens, hc, State.closed]

theorem runWordWith_body {p : OpSpec} {empty : Env → State → Check} {f : FWord} {s : State} {e : Env}
    (he : s.envOf f = some e) (hl : p.trap (s.encEnv e.key) f = none) (ha : e.act ≠ 0) (hf : empty e s = .ok)
    (body : Env → State → State) : runWordWith p empty f s body = .next (body e s) := by
  have ha' : ¬ e.act = 0 := ha
  unfold runWordWith
  simp only [he, hl, ha', hf, ↓reduceIte]

/-- A boundary word that nothing stands against completes with its effect. -/
theorem runWord_boundary {p : OpSpec} {f : FWord} {s s1 : State} {e : Env} (h : Issues p f s e) (ho : s.Opens e s1)
    (check : Env → State → State → Check) (act : Env → State → State → State) (hc : check e s s1 = .ok) :
    runWord p f s (fun e t => t.atBoundary e (check e t) (act e t)) = .next ((act e s s1).closed e) := by
  rw [runWord_issues h, openBoundary_none ho _ _ hc]

theorem onBlock_some {s : State} {e : Env} {b : Nat} {blk : Block} (h : s.issuerBlock = some (b, blk))
    (k : Nat → Block → State) : onBlock e s k = k b blk := by
  simp [onBlock, h]

end Sys2Proof.Machine
end

