-- ==== Sys2Proof/Laws/Memory.lean ====
section
/-! SUPPORT. Memory: what a store leaves at every address, and that every operation over memory keeps its canonical form. -/

namespace Sys2Proof.Machine

open Sys2Proof

variable {α : Type}

/-! ### Lists of cells -/

theorem Cells.rising_filter_from (p : Nat × α → Bool) (m : Cells α) (lo : Nat) (h : Cells.risingFrom (some lo) m = true) :
    Cells.risingFrom (some lo) (m.filter p) = true := by
  induction m generalizing lo with
  | nil => rfl
  | cons x m ih =>
    obtain ⟨k, v⟩ := x
    simp only [Cells.risingFrom, Bool.and_eq_true, decide_eq_true_eq] at h
    by_cases hp : p (k, v) = true
    · simp [hp, Cells.risingFrom, h.1, ih k h.2]
    · simp [hp, Cells.risingFrom_weaken k lo _ (by omega) (ih k h.2)]

/-- Leaving entries out keeps the canonical form. -/
theorem Cells.wf_filter [DecidableEq α] (d : α) (p : Nat × α → Bool) (m : Cells α) (h : Cells.wf d m = true) :
    Cells.wf d (m.filter p) = true := by
  simp only [Cells.wf, Bool.and_eq_true] at *
  refine ⟨?_, List.all_eq_true.mpr (fun x hx => List.all_eq_true.mp h.2 x (List.mem_filter.mp hx).1)⟩
  cases m with
  | nil => rfl
  | cons x m =>
    obtain ⟨k, v⟩ := x
    have hm : Cells.risingFrom (some k) m = true := h.1
    by_cases hp : p (k, v) = true
    · simpa [hp, Cells.risingFrom] using Cells.rising_filter_from p m k hm
    · simpa [hp] using Cells.risingFrom_none k _ (Cells.rising_filter_from p m k hm)

/-! ### What a store leaves -/

/-- A store leaves every byte outside its run. -/
theorem store_get_out (s : State) (k : Nat) (bs : List Byte) (a : Nat) (h : a < k ∨ k + bs.length ≤ a) :
    Cells.get Memory.default (s.store k bs).mem a = Cells.get Memory.default s.mem a :=
  Cells.get_setRun_out _ bs s.mem k a h

/-- A store leaves its bytes in its run. -/
theorem store_get_in (s : State) (k : Nat) (bs : List Byte) (i : Nat) (h : i < bs.length) :
    Cells.get Memory.default (s.store k bs).mem (k + i) = bs[i] :=
  Cells.get_setRun_in _ bs s.mem k i h

/-! ### What does not touch memory -/

@[simp] theorem modMeta_mem (s : State) (pa : Nat) (f : LineMeta → LineMeta) : (s.modMeta pa f).mem = s.mem := by
  unfold State.modMeta
  split <;> rfl

@[simp] theorem setShutter_mem (s : State) (c i : Nat) (sh : Shutter) : (s.setShutter c i sh).mem = s.mem := rfl

@[simp] theorem setShut_mem (s : State) (fs : List Nat) (b : Bool) : (s.setShut fs b).mem = s.mem := rfl

@[simp] theorem freeEpochs_mem (s : State) (c : Nat) (es : List Nat) : (s.freeEpochs c es).mem = s.mem := rfl

@[simp] theorem countDevice_mem (s : State) (line : Nat) (r : Bool) : (s.countDevice line r).mem = s.mem := rfl

theorem foldl_mem {β : Type} (f : State → β → State) (hf : ∀ s x, (f s x).mem = s.mem) (xs : List β) (s : State) :
    (xs.foldl f s).mem = s.mem := by
  induction xs generalizing s with
  | nil => rfl
  | cons x xs ih => rw [List.foldl_cons, ih, hf]

@[simp] theorem l2Flush_mem (s : State) (p : Nat → Bool) : (s.l2Flush p).mem = s.mem :=
  foldl_mem _ (fun t x => by dsimp only; split <;> simp) _ _

@[simp] theorem l2Enter_mem (s : State) (line : Nat) (d : Bool) : (s.l2Enter line d).mem = s.mem := by
  unfold State.l2Enter
  dsimp only
  split
  · rfl
  · split <;> simp

@[simp] theorem countAccess_mem (s : State) (pa : Nat) (r : Bool) : (s.countAccess pa r).mem = s.mem := by
  unfold State.countAccess
  dsimp only
  split
  · simp
  · split
    · rfl
    · cases r <;> simp

@[simp] theorem dropTileLine_mem (s : State) (pa : Nat) (b : Option (Nat × Nat)) : (s.dropTileLine pa b).mem = s.mem := rfl

@[simp] theorem noteSignals_mem (s : State) (pa : Nat) : (s.noteSignals pa).mem = s.mem := rfl

@[simp] theorem send_mem (s : State) (m : OutMsg) : (s.send m).mem = s.mem := rfl

@[simp] theorem publish_mem (s : State) (p : Publish) : (s.publish p).mem = s.mem := by
  cases p with
  | done c q d irq => cases irq <;> rfl
  | _ => rfl

@[simp] theorem settleShutter_mem (s : State) (c i : Nat) : (s.settleShutter c i).mem = s.mem := by
  unfold State.settleShutter
  split
  · rfl
  · simp only []
    split
    · rw [setShutter_mem, freeEpochs_mem]
    · split
      · rw [setShutter_mem, setShut_mem, freeEpochs_mem, setShutter_mem, freeEpochs_mem]
      · rw [setShutter_mem, freeEpochs_mem, setShutter_mem, freeEpochs_mem]

@[simp] theorem takeShadows_mem (s : State) (pa : Nat) : (s.takeShadows pa).mem = s.mem := by
  unfold State.takeShadows
  split
  · rfl
  · dsimp only
    split <;> simp

@[simp] theorem homeWrite_mem (s : State) (pa : Nat) : (s.homeWrite pa).mem = s.mem := by
  unfold State.homeWrite
  split <;> simp

@[simp] theorem homeRead_mem (s : State) (pa : Nat) : (s.homeRead pa).mem = s.mem := by
  unfold State.homeRead
  split <;> simp

/-! ### What keeps the canonical form -/

/-- The canonical form is one of the memory alone. -/
theorem memOk_congr {s t : State} (h : t.mem = s.mem) (hs : s.MemOk) : t.MemOk := by
  unfold State.MemOk at *
  rw [h]
  exact hs

theorem memOk_reset : State.reset.MemOk := rfl

theorem memOk_store {s : State} (h : s.MemOk) (k : Nat) (bs : List Byte) : (s.store k bs).MemOk :=
  Cells.wf_setRun _ bs s.mem k h

theorem memOk_restoreLine {s : State} (h : s.MemOk) (pa : Nat) : (s.restoreLine pa).MemOk := by
  unfold State.restoreLine
  split
  · split
    · exact h
    · rename_i k _ _ _ x _
      refine memOk_congr (s := s.store k x.bytes) ?_ (memOk_store h _ _)
      simp [State.store]
  · exact h

theorem memOk_performWrite {s : State} (h : s.MemOk) (pa : Nat) (bs : List Byte) (but : Option (Nat × Nat)) :
    (s.performWrite pa bs but).MemOk := by
  unfold State.performWrite
  split
  · exact h
  · dsimp only
    split
    · split
      · exact memOk_congr (noteSignals_mem _ _) (memOk_store (memOk_congr (by simp) h) _ _)
      · exact memOk_congr (by simp) h
    · exact memOk_congr (noteSignals_mem _ _) (memOk_store (memOk_congr (by simp) h) _ _)

theorem memOk_tryWrite {s t : State} (h : s.MemOk) {pa : Nat} {bs : List Byte} (ht : s.tryWrite pa bs = some t) : t.MemOk := by
  unfold State.tryWrite at ht
  dsimp only at ht
  split at ht
  · cases ht
    exact memOk_performWrite (memOk_restoreLine h pa) pa bs none
  · split at ht
    · cases ht
      exact memOk_performWrite (memOk_congr (by simp) (memOk_restoreLine h pa)) pa bs none
    · cases ht

theorem memOk_waveWrite {s t : State} (h : s.MemOk) {pa : Nat} {bs : List Byte} {but : Option (Nat × Nat)}
    (ht : s.waveWrite pa bs but = .ok t) : t.MemOk := by
  unfold State.waveWrite at ht
  dsimp only at ht
  split at ht
  · cases ht
    exact memOk_performWrite (memOk_restoreLine h pa) pa bs but
  · split at ht
    · cases ht
      exact memOk_performWrite (memOk_congr (by simp) (memOk_restoreLine h pa)) pa bs but
    · cases ht

/-- What a fold of operations that keep the form leaves. -/
theorem memOk_foldl {β : Type} (f : State → β → State) (hf : ∀ s x, s.MemOk → (f s x).MemOk) (xs : List β) {s : State}
    (h : s.MemOk) : (xs.foldl f s).MemOk := by
  induction xs generalizing s with
  | nil => exact h
  | cons x xs ih => exact ih (hf s x h)

theorem memOk_deviceWrite {s : State} (h : s.MemOk) (pa : Nat) (bs : List Byte) (p : Publish) : (s.deviceWrite pa bs p).MemOk := by
  have h1 := memOk_foldl (fun (t : State) (x : Nat × List Byte) => match t.tryWrite x.1 x.2 with
    | some u => u.homeWrite x.1
    | none => { t with shadowWaits := t.shadowWaits ++
        [⟨((Cells.find t.place (x.1 / 65536)).map (·.ctx)).getD 0, x.1, x.2, some p⟩] }) (fun t x ht => by
      split
      · rename_i u hu
        exact memOk_congr (homeWrite_mem u x.1) (memOk_tryWrite ht hu)
      · exact memOk_congr rfl ht) (splitLines (bs.length + 1) pa bs) h
  unfold State.deviceWrite
  dsimp only
  split
  · exact memOk_congr rfl h1
  · exact memOk_congr (publish_mem _ _) h1

theorem memOk_writeRecord {s : State} (h : s.MemOk) (c : Nat) (r : Record) : (s.writeRecord c r).MemOk :=
  memOk_deviceWrite h _ _ _

theorem memOk_queueRecord {s : State} (h : s.MemOk) (c : Nat) (r : Record) : (s.queueRecord c r).MemOk := by
  unfold State.queueRecord
  dsimp only
  split
  · exact memOk_congr rfl h
  · exact memOk_writeRecord h c r

theorem memOk_noteStarved {s : State} (h : s.MemOk) (pa : Nat) : (s.noteStarved pa).MemOk := by
  unfold State.noteStarved
  split
  · exact h
  · dsimp only
    split
    · exact h
    · exact memOk_queueRecord (memOk_congr (by simp) h) _ _

theorem memOk_deferWrite {s : State} (h : s.MemOk) (pa : Nat) (bs : List Byte) : (s.deferWrite pa bs).MemOk := by
  unfold State.deferWrite
  split
  · exact h
  · rename_i c _ _ _
    exact memOk_noteStarved (s := { s with shadowWaits := s.shadowWaits ++ [{ ctx := c, pa := pa, bytes := bs }] }) (memOk_congr (s := s) rfl h) pa

theorem memOk_engineWrite {s : State} (h : s.MemOk) (pa : Nat) (bs : List Byte) : (s.engineWrite pa bs).MemOk := by
  refine memOk_foldl _ (fun t x ht => ?_) _ h
  obtain ⟨a, xs⟩ := x
  dsimp only
  split
  · rename_i u hu
    exact memOk_congr (homeWrite_mem u a) (memOk_tryWrite ht hu)
  · exact memOk_deferWrite (memOk_restoreLine ht _) _ _

theorem memOk_engineRead {s : State} (h : s.MemOk) (pa len : Nat) : (s.engineRead pa len).2.MemOk :=
  memOk_foldl _ (fun t a ht => memOk_congr (homeRead_mem (t.restoreLine a) a) (memOk_restoreLine ht a)) _ h

/-- What the package keeps without power keeps the form (22_platform.md R455). -/
theorem memOk_powerOff {s : State} (h : s.MemOk) : s.powerOff.MemOk := Cells.wf_filter _ _ _ h

end Sys2Proof.Machine
end

