-- ==== Sys2Proof/Laws/PerInstr.lean ====
section
/-! SUPPORT. The opcode map is read as it is written (03_encoding.md R75): for every constructor of Instr, the opcode and the
fields that the encoder gives a well-formed instruction lead the decoder back to it. -/

open Sys2Proof

/-- Where the encoder gives a well-formed instruction an opcode and fields, the opcode map answers that instruction. -/
def Sys2Proof.Laws.OpcodeMap.Statement (i : Instr) : Prop :=
  ∀ op f, opcodeOf i = some (op, f) → i.wf = true → ofOpcode op.toNat f = some i

/-- A row of the map that no Q bit splits. -/
theorem Sys2Proof.Laws.opcodeMap_row {i : Instr} {op : BitVec 9} {f : FWord} (h : opcodeOf i = some (op, f))
    (hr : ofOpcode op.toNat f = some i) : Sys2Proof.Laws.OpcodeMap.Statement i := by
  intro op' f' h' _
  rw [h] at h'
  cases h'
  exact hr

/-- An instruction or event without an opcode of its own. -/
theorem Sys2Proof.Laws.opcodeMap_none {i : Instr} (h : opcodeOf i = none) : Sys2Proof.Laws.OpcodeMap.Statement i := by
  intro op' f' h' _
  rw [h] at h'
  cases h'

theorem Sys2Proof.Laws.OpcodeMap.add (f : FWord) : Sys2Proof.Laws.OpcodeMap.Statement (.add f) :=
  Sys2Proof.Laws.opcodeMap_row rfl rfl
theorem Sys2Proof.Laws.OpcodeMap.sub (f : FWord) : Sys2Proof.Laws.OpcodeMap.Statement (.sub f) :=
  Sys2Proof.Laws.opcodeMap_row rfl rfl
theorem Sys2Proof.Laws.OpcodeMap.mul (f : FWord) : Sys2Proof.Laws.OpcodeMap.Statement (.mul f) :=
  Sys2Proof.Laws.opcodeMap_row rfl rfl
theorem Sys2Proof.Laws.OpcodeMap.mulhi (f : FWord) : Sys2Proof.Laws.OpcodeMap.Statement (.mulhi f) :=
  Sys2Proof.Laws.opcodeMap_row rfl rfl
theorem Sys2Proof.Laws.OpcodeMap.mad (f : FWord) : Sys2Proof.Laws.OpcodeMap.Statement (.mad f) :=
  Sys2Proof.Laws.opcodeMap_row rfl rfl
theorem Sys2Proof.Laws.OpcodeMap.madhi (f : FWord) : Sys2Proof.Laws.OpcodeMap.Statement (.madhi f) :=
  Sys2Proof.Laws.opcodeMap_row rfl rfl
theorem Sys2Proof.Laws.OpcodeMap.div (f : FWord) : Sys2Proof.Laws.OpcodeMap.Statement (.div f) :=
  Sys2Proof.Laws.opcodeMap_row rfl rfl
theorem Sys2Proof.Laws.OpcodeMap.rem (f : FWord) : Sys2Proof.Laws.OpcodeMap.Statement (.rem f) :=
  Sys2Proof.Laws.opcodeMap_row rfl rfl
theorem Sys2Proof.Laws.OpcodeMap.min (f : FWord) : Sys2Proof.Laws.OpcodeMap.Statement (.min f) :=
  Sys2Proof.Laws.opcodeMap_row rfl rfl
theorem Sys2Proof.Laws.OpcodeMap.max (f : FWord) : Sys2Proof.Laws.OpcodeMap.Statement (.max f) :=
  Sys2Proof.Laws.opcodeMap_row rfl rfl
theorem Sys2Proof.Laws.OpcodeMap.abs (f : FWord) : Sys2Proof.Laws.OpcodeMap.Statement (.abs f) :=
  Sys2Proof.Laws.opcodeMap_row rfl rfl
theorem Sys2Proof.Laws.OpcodeMap.neg (f : FWord) : Sys2Proof.Laws.OpcodeMap.Statement (.neg f) :=
  Sys2Proof.Laws.opcodeMap_row rfl rfl
theorem Sys2Proof.Laws.OpcodeMap.addc (f : FWord) : Sys2Proof.Laws.OpcodeMap.Statement (.addc f) :=
  Sys2Proof.Laws.opcodeMap_row rfl rfl
theorem Sys2Proof.Laws.OpcodeMap.subb (f : FWord) : Sys2Proof.Laws.OpcodeMap.Statement (.subb f) :=
  Sys2Proof.Laws.opcodeMap_row rfl rfl
theorem Sys2Proof.Laws.OpcodeMap.lea (f : FWord) : Sys2Proof.Laws.OpcodeMap.Statement (.lea f) :=
  Sys2Proof.Laws.opcodeMap_row rfl rfl
theorem Sys2Proof.Laws.OpcodeMap.and (f : FWord) : Sys2Proof.Laws.OpcodeMap.Statement (.and f) :=
  Sys2Proof.Laws.opcodeMap_row rfl rfl
theorem Sys2Proof.Laws.OpcodeMap.or (f : FWord) : Sys2Proof.Laws.OpcodeMap.Statement (.or f) :=
  Sys2Proof.Laws.opcodeMap_row rfl rfl
theorem Sys2Proof.Laws.OpcodeMap.xor (f : FWord) : Sys2Proof.Laws.OpcodeMap.Statement (.xor f) :=
  Sys2Proof.Laws.opcodeMap_row rfl rfl
theorem Sys2Proof.Laws.OpcodeMap.andn (f : FWord) : Sys2Proof.Laws.OpcodeMap.Statement (.andn f) :=
  Sys2Proof.Laws.opcodeMap_row rfl rfl
theorem Sys2Proof.Laws.OpcodeMap.not (f : FWord) : Sys2Proof.Laws.OpcodeMap.Statement (.not f) :=
  Sys2Proof.Laws.opcodeMap_row rfl rfl
theorem Sys2Proof.Laws.OpcodeMap.shl (f : FWord) : Sys2Proof.Laws.OpcodeMap.Statement (.shl f) :=
  Sys2Proof.Laws.opcodeMap_row rfl rfl
theorem Sys2Proof.Laws.OpcodeMap.shr (f : FWord) : Sys2Proof.Laws.OpcodeMap.Statement (.shr f) :=
  Sys2Proof.Laws.opcodeMap_row rfl rfl
theorem Sys2Proof.Laws.OpcodeMap.sar (f : FWord) : Sys2Proof.Laws.OpcodeMap.Statement (.sar f) :=
  Sys2Proof.Laws.opcodeMap_row rfl rfl
theorem Sys2Proof.Laws.OpcodeMap.rot (f : FWord) : Sys2Proof.Laws.OpcodeMap.Statement (.rot f) :=
  Sys2Proof.Laws.opcodeMap_row rfl rfl
theorem Sys2Proof.Laws.OpcodeMap.bfe (f : FWord) : Sys2Proof.Laws.OpcodeMap.Statement (.bfe f) :=
  Sys2Proof.Laws.opcodeMap_row rfl rfl
theorem Sys2Proof.Laws.OpcodeMap.bfi (f : FWord) : Sys2Proof.Laws.OpcodeMap.Statement (.bfi f) :=
  Sys2Proof.Laws.opcodeMap_row rfl rfl
theorem Sys2Proof.Laws.OpcodeMap.popc (f : FWord) : Sys2Proof.Laws.OpcodeMap.Statement (.popc f) :=
  Sys2Proof.Laws.opcodeMap_row rfl rfl
theorem Sys2Proof.Laws.OpcodeMap.clz (f : FWord) : Sys2Proof.Laws.OpcodeMap.Statement (.clz f) :=
  Sys2Proof.Laws.opcodeMap_row rfl rfl
theorem Sys2Proof.Laws.OpcodeMap.ctz (f : FWord) : Sys2Proof.Laws.OpcodeMap.Statement (.ctz f) :=
  Sys2Proof.Laws.opcodeMap_row rfl rfl
theorem Sys2Proof.Laws.OpcodeMap.brev (f : FWord) : Sys2Proof.Laws.OpcodeMap.Statement (.brev f) :=
  Sys2Proof.Laws.opcodeMap_row rfl rfl
theorem Sys2Proof.Laws.OpcodeMap.prmt (f : FWord) : Sys2Proof.Laws.OpcodeMap.Statement (.prmt f) :=
  Sys2Proof.Laws.opcodeMap_row rfl rfl
theorem Sys2Proof.Laws.OpcodeMap.sel (f : FWord) : Sys2Proof.Laws.OpcodeMap.Statement (.sel f) :=
  Sys2Proof.Laws.opcodeMap_row rfl rfl
theorem Sys2Proof.Laws.OpcodeMap.cmp (f : FWord) : Sys2Proof.Laws.OpcodeMap.Statement (.cmp f) :=
  Sys2Proof.Laws.opcodeMap_row rfl rfl
theorem Sys2Proof.Laws.OpcodeMap.mov (f : FWord) : Sys2Proof.Laws.OpcodeMap.Statement (.mov f) :=
  Sys2Proof.Laws.opcodeMap_row rfl rfl
theorem Sys2Proof.Laws.OpcodeMap.cvt (f : FWord) : Sys2Proof.Laws.OpcodeMap.Statement (.cvt f) :=
  Sys2Proof.Laws.opcodeMap_row rfl rfl
theorem Sys2Proof.Laws.OpcodeMap.fadd (f : FWord) : Sys2Proof.Laws.OpcodeMap.Statement (.fadd f) :=
  Sys2Proof.Laws.opcodeMap_row rfl rfl
theorem Sys2Proof.Laws.OpcodeMap.fsub (f : FWord) : Sys2Proof.Laws.OpcodeMap.Statement (.fsub f) :=
  Sys2Proof.Laws.opcodeMap_row rfl rfl
theorem Sys2Proof.Laws.OpcodeMap.fmul (f : FWord) : Sys2Proof.Laws.OpcodeMap.Statement (.fmul f) :=
  Sys2Proof.Laws.opcodeMap_row rfl rfl
theorem Sys2Proof.Laws.OpcodeMap.fma (f : FWord) : Sys2Proof.Laws.OpcodeMap.Statement (.fma f) :=
  Sys2Proof.Laws.opcodeMap_row rfl rfl
theorem Sys2Proof.Laws.OpcodeMap.fmin (f : FWord) : Sys2Proof.Laws.OpcodeMap.Statement (.fmin f) :=
  Sys2Proof.Laws.opcodeMap_row rfl rfl
theorem Sys2Proof.Laws.OpcodeMap.fmax (f : FWord) : Sys2Proof.Laws.OpcodeMap.Statement (.fmax f) :=
  Sys2Proof.Laws.opcodeMap_row rfl rfl
theorem Sys2Proof.Laws.OpcodeMap.fcmp (f : FWord) : Sys2Proof.Laws.OpcodeMap.Statement (.fcmp f) :=
  Sys2Proof.Laws.opcodeMap_row rfl rfl
theorem Sys2Proof.Laws.OpcodeMap.fcls (f : FWord) : Sys2Proof.Laws.OpcodeMap.Statement (.fcls f) :=
  Sys2Proof.Laws.opcodeMap_row rfl rfl
theorem Sys2Proof.Laws.OpcodeMap.frcp (f : FWord) : Sys2Proof.Laws.OpcodeMap.Statement (.frcp f) :=
  Sys2Proof.Laws.opcodeMap_row rfl rfl
theorem Sys2Proof.Laws.OpcodeMap.frsq (f : FWord) : Sys2Proof.Laws.OpcodeMap.Statement (.frsq f) :=
  Sys2Proof.Laws.opcodeMap_row rfl rfl
theorem Sys2Proof.Laws.OpcodeMap.fsqrt (f : FWord) : Sys2Proof.Laws.OpcodeMap.Statement (.fsqrt f) :=
  Sys2Proof.Laws.opcodeMap_row rfl rfl
theorem Sys2Proof.Laws.OpcodeMap.fexp2 (f : FWord) : Sys2Proof.Laws.OpcodeMap.Statement (.fexp2 f) :=
  Sys2Proof.Laws.opcodeMap_row rfl rfl
theorem Sys2Proof.Laws.OpcodeMap.flog2 (f : FWord) : Sys2Proof.Laws.OpcodeMap.Statement (.flog2 f) :=
  Sys2Proof.Laws.opcodeMap_row rfl rfl
theorem Sys2Proof.Laws.OpcodeMap.fsin (f : FWord) : Sys2Proof.Laws.OpcodeMap.Statement (.fsin f) :=
  Sys2Proof.Laws.opcodeMap_row rfl rfl
theorem Sys2Proof.Laws.OpcodeMap.fcos (f : FWord) : Sys2Proof.Laws.OpcodeMap.Statement (.fcos f) :=
  Sys2Proof.Laws.opcodeMap_row rfl rfl
theorem Sys2Proof.Laws.OpcodeMap.ftanh (f : FWord) : Sys2Proof.Laws.OpcodeMap.Statement (.ftanh f) :=
  Sys2Proof.Laws.opcodeMap_row rfl rfl
theorem Sys2Proof.Laws.OpcodeMap.frnd (f : FWord) : Sys2Proof.Laws.OpcodeMap.Statement (.frnd f) :=
  Sys2Proof.Laws.opcodeMap_row rfl rfl
theorem Sys2Proof.Laws.OpcodeMap.fscl (f : FWord) : Sys2Proof.Laws.OpcodeMap.Statement (.fscl f) :=
  Sys2Proof.Laws.opcodeMap_row rfl rfl
theorem Sys2Proof.Laws.OpcodeMap.fcvt (f : FWord) : Sys2Proof.Laws.OpcodeMap.Statement (.fcvt f) :=
  Sys2Proof.Laws.opcodeMap_row rfl rfl
theorem Sys2Proof.Laws.OpcodeMap.dot2 (f : FWord) : Sys2Proof.Laws.OpcodeMap.Statement (.dot2 f) :=
  Sys2Proof.Laws.opcodeMap_row rfl rfl
theorem Sys2Proof.Laws.OpcodeMap.dot4 (f : FWord) : Sys2Proof.Laws.OpcodeMap.Statement (.dot4 f) :=
  Sys2Proof.Laws.opcodeMap_row rfl rfl
theorem Sys2Proof.Laws.OpcodeMap.pfma (f : FWord) : Sys2Proof.Laws.OpcodeMap.Statement (.pfma f) :=
  Sys2Proof.Laws.opcodeMap_row rfl rfl
theorem Sys2Proof.Laws.OpcodeMap.padd (f : FWord) : Sys2Proof.Laws.OpcodeMap.Statement (.padd f) :=
  Sys2Proof.Laws.opcodeMap_row rfl rfl
theorem Sys2Proof.Laws.OpcodeMap.pmul (f : FWord) : Sys2Proof.Laws.OpcodeMap.Statement (.pmul f) :=
  Sys2Proof.Laws.opcodeMap_row rfl rfl
theorem Sys2Proof.Laws.OpcodeMap.pmax (f : FWord) : Sys2Proof.Laws.OpcodeMap.Statement (.pmax f) :=
  Sys2Proof.Laws.opcodeMap_row rfl rfl
theorem Sys2Proof.Laws.OpcodeMap.pand (f : FWord) : Sys2Proof.Laws.OpcodeMap.Statement (.pand f) :=
  Sys2Proof.Laws.opcodeMap_row rfl rfl
theorem Sys2Proof.Laws.OpcodeMap.por (f : FWord) : Sys2Proof.Laws.OpcodeMap.Statement (.por f) :=
  Sys2Proof.Laws.opcodeMap_row rfl rfl
theorem Sys2Proof.Laws.OpcodeMap.pxor (f : FWord) : Sys2Proof.Laws.OpcodeMap.Statement (.pxor f) :=
  Sys2Proof.Laws.opcodeMap_row rfl rfl
theorem Sys2Proof.Laws.OpcodeMap.pnot (f : FWord) : Sys2Proof.Laws.OpcodeMap.Statement (.pnot f) :=
  Sys2Proof.Laws.opcodeMap_row rfl rfl
theorem Sys2Proof.Laws.OpcodeMap.pmov (f : FWord) : Sys2Proof.Laws.OpcodeMap.Statement (.pmov f) :=
  Sys2Proof.Laws.opcodeMap_row rfl rfl
theorem Sys2Proof.Laws.OpcodeMap.pset (f : FWord) : Sys2Proof.Laws.OpcodeMap.Statement (.pset f) :=
  Sys2Proof.Laws.opcodeMap_row rfl rfl
theorem Sys2Proof.Laws.OpcodeMap.pget (f : FWord) : Sys2Proof.Laws.OpcodeMap.Statement (.pget f) :=
  Sys2Proof.Laws.opcodeMap_row rfl rfl
theorem Sys2Proof.Laws.OpcodeMap.ballot (f : FWord) : Sys2Proof.Laws.OpcodeMap.Statement (.ballot f) :=
  Sys2Proof.Laws.opcodeMap_row rfl rfl
theorem Sys2Proof.Laws.OpcodeMap.vany (f : FWord) : Sys2Proof.Laws.OpcodeMap.Statement (.vany f) :=
  Sys2Proof.Laws.opcodeMap_row rfl rfl
theorem Sys2Proof.Laws.OpcodeMap.vall (f : FWord) : Sys2Proof.Laws.OpcodeMap.Statement (.vall f) :=
  Sys2Proof.Laws.opcodeMap_row rfl rfl
theorem Sys2Proof.Laws.OpcodeMap.shfl (f : FWord) : Sys2Proof.Laws.OpcodeMap.Statement (.shfl f) :=
  Sys2Proof.Laws.opcodeMap_row rfl rfl
theorem Sys2Proof.Laws.OpcodeMap.redux (f : FWord) : Sys2Proof.Laws.OpcodeMap.Statement (.redux f) :=
  Sys2Proof.Laws.opcodeMap_row rfl rfl
theorem Sys2Proof.Laws.OpcodeMap.scan (f : FWord) : Sys2Proof.Laws.OpcodeMap.Statement (.scan f) :=
  Sys2Proof.Laws.opcodeMap_row rfl rfl
theorem Sys2Proof.Laws.OpcodeMap.matchLanes (f : FWord) : Sys2Proof.Laws.OpcodeMap.Statement (.matchLanes f) :=
  Sys2Proof.Laws.opcodeMap_row rfl rfl
theorem Sys2Proof.Laws.OpcodeMap.elect (f : FWord) : Sys2Proof.Laws.OpcodeMap.Statement (.elect f) :=
  Sys2Proof.Laws.opcodeMap_row rfl rfl
theorem Sys2Proof.Laws.OpcodeMap.bcast (f : FWord) : Sys2Proof.Laws.OpcodeMap.Statement (.bcast f) :=
  Sys2Proof.Laws.opcodeMap_row rfl rfl
theorem Sys2Proof.Laws.OpcodeMap.dWord (d : DualWord) : Sys2Proof.Laws.OpcodeMap.Statement (.dWord d) :=
  Sys2Proof.Laws.opcodeMap_none rfl
theorem Sys2Proof.Laws.OpcodeMap.bra (f : FWord) : Sys2Proof.Laws.OpcodeMap.Statement (.bra f) :=
  Sys2Proof.Laws.opcodeMap_row rfl rfl
theorem Sys2Proof.Laws.OpcodeMap.brx (f : FWord) : Sys2Proof.Laws.OpcodeMap.Statement (.brx f) :=
  Sys2Proof.Laws.opcodeMap_row rfl rfl
theorem Sys2Proof.Laws.OpcodeMap.call (f : FWord) : Sys2Proof.Laws.OpcodeMap.Statement (.call f) :=
  Sys2Proof.Laws.opcodeMap_row rfl rfl
theorem Sys2Proof.Laws.OpcodeMap.ret (f : FWord) : Sys2Proof.Laws.OpcodeMap.Statement (.ret f) :=
  Sys2Proof.Laws.opcodeMap_row rfl rfl
theorem Sys2Proof.Laws.OpcodeMap.exit (f : FWord) : Sys2Proof.Laws.OpcodeMap.Statement (.exit f) :=
  Sys2Proof.Laws.opcodeMap_row rfl rfl
theorem Sys2Proof.Laws.OpcodeMap.region (f : FWord) : Sys2Proof.Laws.OpcodeMap.Statement (.region f) :=
  Sys2Proof.Laws.opcodeMap_row rfl rfl
theorem Sys2Proof.Laws.OpcodeMap.yield (f : FWord) : Sys2Proof.Laws.OpcodeMap.Statement (.yield f) :=
  Sys2Proof.Laws.opcodeMap_row rfl rfl
theorem Sys2Proof.Laws.OpcodeMap.bkpt (f : FWord) : Sys2Proof.Laws.OpcodeMap.Statement (.bkpt f) :=
  Sys2Proof.Laws.opcodeMap_row rfl rfl
theorem Sys2Proof.Laws.OpcodeMap.join (f : FWord) : Sys2Proof.Laws.OpcodeMap.Statement (.join f) :=
  Sys2Proof.Laws.opcodeMap_row rfl rfl
theorem Sys2Proof.Laws.OpcodeMap.leave (f : FWord) : Sys2Proof.Laws.OpcodeMap.Statement (.leave f) :=
  Sys2Proof.Laws.opcodeMap_row rfl rfl
theorem Sys2Proof.Laws.OpcodeMap.waitm (f : FWord) : Sys2Proof.Laws.OpcodeMap.Statement (.waitm f) :=
  Sys2Proof.Laws.opcodeMap_row rfl rfl
theorem Sys2Proof.Laws.OpcodeMap.mset (f : FWord) : Sys2Proof.Laws.OpcodeMap.Statement (.mset f) :=
  Sys2Proof.Laws.opcodeMap_row rfl rfl
theorem Sys2Proof.Laws.OpcodeMap.mop (f : FWord) : Sys2Proof.Laws.OpcodeMap.Statement (.mop f) :=
  Sys2Proof.Laws.opcodeMap_row rfl rfl
theorem Sys2Proof.Laws.OpcodeMap.nop (f : FWord) : Sys2Proof.Laws.OpcodeMap.Statement (.nop f) :=
  Sys2Proof.Laws.opcodeMap_row rfl rfl
theorem Sys2Proof.Laws.OpcodeMap.ld (f : FWord) : Sys2Proof.Laws.OpcodeMap.Statement (.ld f) :=
  Sys2Proof.Laws.opcodeMap_row rfl rfl
theorem Sys2Proof.Laws.OpcodeMap.st (f : FWord) : Sys2Proof.Laws.OpcodeMap.Statement (.st f) :=
  Sys2Proof.Laws.opcodeMap_row rfl rfl
theorem Sys2Proof.Laws.OpcodeMap.ldx (f : FWord) : Sys2Proof.Laws.OpcodeMap.Statement (.ldx f) :=
  Sys2Proof.Laws.opcodeMap_row rfl rfl
theorem Sys2Proof.Laws.OpcodeMap.stx (f : FWord) : Sys2Proof.Laws.OpcodeMap.Statement (.stx f) :=
  Sys2Proof.Laws.opcodeMap_row rfl rfl
theorem Sys2Proof.Laws.OpcodeMap.pref (f : FWord) : Sys2Proof.Laws.OpcodeMap.Statement (.pref f) :=
  Sys2Proof.Laws.opcodeMap_row rfl rfl
theorem Sys2Proof.Laws.OpcodeMap.cinv (f : FWord) : Sys2Proof.Laws.OpcodeMap.Statement (.cinv f) :=
  Sys2Proof.Laws.opcodeMap_row rfl rfl
theorem Sys2Proof.Laws.OpcodeMap.cwb (f : FWord) : Sys2Proof.Laws.OpcodeMap.Statement (.cwb f) :=
  Sys2Proof.Laws.opcodeMap_row rfl rfl
theorem Sys2Proof.Laws.OpcodeMap.stmap (f : FWord) : Sys2Proof.Laws.OpcodeMap.Statement (.stmap f) :=
  Sys2Proof.Laws.opcodeMap_row rfl rfl
theorem Sys2Proof.Laws.OpcodeMap.stunmap (f : FWord) : Sys2Proof.Laws.OpcodeMap.Statement (.stunmap f) :=
  Sys2Proof.Laws.opcodeMap_row rfl rfl
theorem Sys2Proof.Laws.OpcodeMap.stflush (f : FWord) : Sys2Proof.Laws.OpcodeMap.Statement (.stflush f) :=
  Sys2Proof.Laws.opcodeMap_row rfl rfl
theorem Sys2Proof.Laws.OpcodeMap.kvld (f : FWord) : Sys2Proof.Laws.OpcodeMap.Statement (.kvld f) :=
  Sys2Proof.Laws.opcodeMap_row rfl rfl
theorem Sys2Proof.Laws.OpcodeMap.atom (f : FWord) : Sys2Proof.Laws.OpcodeMap.Statement (.atom f) :=
  Sys2Proof.Laws.opcodeMap_row rfl rfl
theorem Sys2Proof.Laws.OpcodeMap.atomSc (f : FWord) : Sys2Proof.Laws.OpcodeMap.Statement (.atomSc f) :=
  Sys2Proof.Laws.opcodeMap_row rfl rfl
theorem Sys2Proof.Laws.OpcodeMap.red (f : FWord) : Sys2Proof.Laws.OpcodeMap.Statement (.red f) :=
  Sys2Proof.Laws.opcodeMap_row rfl rfl
theorem Sys2Proof.Laws.OpcodeMap.fence (f : FWord) : Sys2Proof.Laws.OpcodeMap.Statement (.fence f) :=
  Sys2Proof.Laws.opcodeMap_row rfl rfl
theorem Sys2Proof.Laws.OpcodeMap.waitc (f : FWord) : Sys2Proof.Laws.OpcodeMap.Statement (.waitc f) :=
  Sys2Proof.Laws.opcodeMap_row rfl rfl
theorem Sys2Proof.Laws.OpcodeMap.cpy (f : FWord) : Sys2Proof.Laws.OpcodeMap.Statement (.cpy f) :=
  Sys2Proof.Laws.opcodeMap_row rfl rfl
theorem Sys2Proof.Laws.OpcodeMap.cpyt (f : FWord) : Sys2Proof.Laws.OpcodeMap.Statement (.cpyt f) :=
  Sys2Proof.Laws.opcodeMap_row rfl rfl
theorem Sys2Proof.Laws.OpcodeMap.gath (f : FWord) : Sys2Proof.Laws.OpcodeMap.Statement (.gath f) :=
  Sys2Proof.Laws.opcodeMap_row rfl rfl
theorem Sys2Proof.Laws.OpcodeMap.tmset (f : FWord) : Sys2Proof.Laws.OpcodeMap.Statement (.tmset f) :=
  Sys2Proof.Laws.opcodeMap_row rfl rfl
theorem Sys2Proof.Laws.OpcodeMap.hacq (f : FWord) : Sys2Proof.Laws.OpcodeMap.Statement (.hacq f) :=
  Sys2Proof.Laws.opcodeMap_row rfl rfl
theorem Sys2Proof.Laws.OpcodeMap.hwait (f : FWord) : Sys2Proof.Laws.OpcodeMap.Statement (.hwait f) :=
  Sys2Proof.Laws.opcodeMap_row rfl rfl
theorem Sys2Proof.Laws.OpcodeMap.hrel (f : FWord) : Sys2Proof.Laws.OpcodeMap.Statement (.hrel f) :=
  Sys2Proof.Laws.opcodeMap_row rfl rfl
theorem Sys2Proof.Laws.OpcodeMap.tagq (f : FWord) : Sys2Proof.Laws.OpcodeMap.Statement (.tagq f) :=
  Sys2Proof.Laws.opcodeMap_row rfl rfl
theorem Sys2Proof.Laws.OpcodeMap.mxa (f : FWord) : Sys2Proof.Laws.OpcodeMap.Statement (.mxa f) :=
  Sys2Proof.Laws.opcodeMap_row rfl rfl
theorem Sys2Proof.Laws.OpcodeMap.mxap (f : FWord) : Sys2Proof.Laws.OpcodeMap.Statement (.mxap f) :=
  Sys2Proof.Laws.opcodeMap_row rfl rfl
theorem Sys2Proof.Laws.OpcodeMap.accal (f : FWord) : Sys2Proof.Laws.OpcodeMap.Statement (.accal f) :=
  Sys2Proof.Laws.opcodeMap_row rfl rfl
theorem Sys2Proof.Laws.OpcodeMap.accfr (f : FWord) : Sys2Proof.Laws.OpcodeMap.Statement (.accfr f) :=
  Sys2Proof.Laws.opcodeMap_row rfl rfl
theorem Sys2Proof.Laws.OpcodeMap.acczr (f : FWord) : Sys2Proof.Laws.OpcodeMap.Statement (.acczr f) :=
  Sys2Proof.Laws.opcodeMap_row rfl rfl
theorem Sys2Proof.Laws.OpcodeMap.accdr (f : FWord) : Sys2Proof.Laws.OpcodeMap.Statement (.accdr f) :=
  Sys2Proof.Laws.opcodeMap_row rfl rfl
theorem Sys2Proof.Laws.OpcodeMap.accrd (f : FWord) : Sys2Proof.Laws.OpcodeMap.Statement (.accrd f) :=
  Sys2Proof.Laws.opcodeMap_row rfl rfl
theorem Sys2Proof.Laws.OpcodeMap.accwr (f : FWord) : Sys2Proof.Laws.OpcodeMap.Statement (.accwr f) :=
  Sys2Proof.Laws.opcodeMap_row rfl rfl
theorem Sys2Proof.Laws.OpcodeMap.qmc (f : FWord) : Sys2Proof.Laws.OpcodeMap.Statement (.qmc f) :=
  Sys2Proof.Laws.opcodeMap_row rfl rfl
theorem Sys2Proof.Laws.OpcodeMap.smx (f : FWord) : Sys2Proof.Laws.OpcodeMap.Statement (.smx f) :=
  Sys2Proof.Laws.opcodeMap_row rfl rfl
theorem Sys2Proof.Laws.OpcodeMap.cred (f : FWord) : Sys2Proof.Laws.OpcodeMap.Statement (.cred f) :=
  Sys2Proof.Laws.opcodeMap_row rfl rfl
theorem Sys2Proof.Laws.OpcodeMap.amask (f : FWord) : Sys2Proof.Laws.OpcodeMap.Statement (.amask f) :=
  Sys2Proof.Laws.opcodeMap_row rfl rfl
theorem Sys2Proof.Laws.OpcodeMap.cjoin (f : FWord) : Sys2Proof.Laws.OpcodeMap.Statement (.cjoin f) :=
  Sys2Proof.Laws.opcodeMap_row rfl rfl
theorem Sys2Proof.Laws.OpcodeMap.cleave (f : FWord) : Sys2Proof.Laws.OpcodeMap.Statement (.cleave f) :=
  Sys2Proof.Laws.opcodeMap_row rfl rfl
theorem Sys2Proof.Laws.OpcodeMap.cqry (f : FWord) : Sys2Proof.Laws.OpcodeMap.Statement (.cqry f) :=
  Sys2Proof.Laws.opcodeMap_row rfl rfl
theorem Sys2Proof.Laws.OpcodeMap.bmakeNew (f : FWord) : Sys2Proof.Laws.OpcodeMap.Statement (.bmakeNew f) := by
  intro op' f' h hw
  cases h
  have hb : (!bitOf f.fc.toNat 0) = true := hw
  show some (if bitOf f.fc.toNat 0 then Instr.bmakeDrop f else .bmakeNew f) = _
  simp_all
theorem Sys2Proof.Laws.OpcodeMap.bmakeDrop (f : FWord) : Sys2Proof.Laws.OpcodeMap.Statement (.bmakeDrop f) := by
  intro op' f' h hw
  cases h
  have hb : bitOf f.fc.toNat 0 = true := hw
  show some (if bitOf f.fc.toNat 0 then Instr.bmakeDrop f else .bmakeNew f) = _
  simp_all
theorem Sys2Proof.Laws.OpcodeMap.barr (f : FWord) : Sys2Proof.Laws.OpcodeMap.Statement (.barr f) :=
  Sys2Proof.Laws.opcodeMap_row rfl rfl
theorem Sys2Proof.Laws.OpcodeMap.bwait (f : FWord) : Sys2Proof.Laws.OpcodeMap.Statement (.bwait f) :=
  Sys2Proof.Laws.opcodeMap_row rfl rfl
theorem Sys2Proof.Laws.OpcodeMap.barw (f : FWord) : Sys2Proof.Laws.OpcodeMap.Statement (.barw f) :=
  Sys2Proof.Laws.opcodeMap_row rfl rfl
theorem Sys2Proof.Laws.OpcodeMap.sstep (f : FWord) : Sys2Proof.Laws.OpcodeMap.Statement (.sstep f) :=
  Sys2Proof.Laws.opcodeMap_row rfl rfl
theorem Sys2Proof.Laws.OpcodeMap.launch (f : FWord) : Sys2Proof.Laws.OpcodeMap.Statement (.launch f) :=
  Sys2Proof.Laws.opcodeMap_row rfl rfl
theorem Sys2Proof.Laws.OpcodeMap.joink (f : FWord) : Sys2Proof.Laws.OpcodeMap.Statement (.joink f) :=
  Sys2Proof.Laws.opcodeMap_row rfl rfl
theorem Sys2Proof.Laws.OpcodeMap.kqQuery (f : FWord) : Sys2Proof.Laws.OpcodeMap.Statement (.kqQuery f) := by
  intro op' f' h hw
  cases h
  have hb : (!bitOf f.fc.toNat 0) = true := hw
  show some (if bitOf f.fc.toNat 0 then Instr.kqKill f else .kqQuery f) = _
  simp_all
theorem Sys2Proof.Laws.OpcodeMap.kqKill (f : FWord) : Sys2Proof.Laws.OpcodeMap.Statement (.kqKill f) := by
  intro op' f' h hw
  cases h
  have hb : bitOf f.fc.toNat 0 = true := hw
  show some (if bitOf f.fc.toNat 0 then Instr.kqKill f else .kqQuery f) = _
  simp_all
theorem Sys2Proof.Laws.OpcodeMap.balloc (f : FWord) : Sys2Proof.Laws.OpcodeMap.Statement (.balloc f) :=
  Sys2Proof.Laws.opcodeMap_row rfl rfl
theorem Sys2Proof.Laws.OpcodeMap.bfree (f : FWord) : Sys2Proof.Laws.OpcodeMap.Statement (.bfree f) :=
  Sys2Proof.Laws.opcodeMap_row rfl rfl
theorem Sys2Proof.Laws.OpcodeMap.seqnew (f : FWord) : Sys2Proof.Laws.OpcodeMap.Statement (.seqnew f) :=
  Sys2Proof.Laws.opcodeMap_row rfl rfl
theorem Sys2Proof.Laws.OpcodeMap.seqdrop (f : FWord) : Sys2Proof.Laws.OpcodeMap.Statement (.seqdrop f) :=
  Sys2Proof.Laws.opcodeMap_row rfl rfl
theorem Sys2Proof.Laws.OpcodeMap.seqfork (f : FWord) : Sys2Proof.Laws.OpcodeMap.Statement (.seqfork f) :=
  Sys2Proof.Laws.opcodeMap_row rfl rfl
theorem Sys2Proof.Laws.OpcodeMap.kvapp (f : FWord) : Sys2Proof.Laws.OpcodeMap.Statement (.kvapp f) :=
  Sys2Proof.Laws.opcodeMap_row rfl rfl
theorem Sys2Proof.Laws.OpcodeMap.kvpub (f : FWord) : Sys2Proof.Laws.OpcodeMap.Statement (.kvpub f) :=
  Sys2Proof.Laws.opcodeMap_row rfl rfl
theorem Sys2Proof.Laws.OpcodeMap.seqlen (f : FWord) : Sys2Proof.Laws.OpcodeMap.Statement (.seqlen f) :=
  Sys2Proof.Laws.opcodeMap_row rfl rfl
theorem Sys2Proof.Laws.OpcodeMap.poolq (f : FWord) : Sys2Proof.Laws.OpcodeMap.Statement (.poolq f) :=
  Sys2Proof.Laws.opcodeMap_row rfl rfl
theorem Sys2Proof.Laws.OpcodeMap.snapNew (f : FWord) : Sys2Proof.Laws.OpcodeMap.Statement (.snapNew f) := by
  intro op' f' h hw
  cases h
  have hb : (!bitOf f.fc.toNat 0) = true := hw
  show some (if bitOf f.fc.toNat 0 then Instr.snapNest f else .snapNew f) = _
  simp_all
theorem Sys2Proof.Laws.OpcodeMap.snapNest (f : FWord) : Sys2Proof.Laws.OpcodeMap.Statement (.snapNest f) := by
  intro op' f' h hw
  cases h
  have hb : bitOf f.fc.toNat 0 = true := hw
  show some (if bitOf f.fc.toNat 0 then Instr.snapNest f else .snapNew f) = _
  simp_all
theorem Sys2Proof.Laws.OpcodeMap.sacc (f : FWord) : Sys2Proof.Laws.OpcodeMap.Statement (.sacc f) :=
  Sys2Proof.Laws.opcodeMap_row rfl rfl
theorem Sys2Proof.Laws.OpcodeMap.srej (f : FWord) : Sys2Proof.Laws.OpcodeMap.Statement (.srej f) :=
  Sys2Proof.Laws.opcodeMap_row rfl rfl
theorem Sys2Proof.Laws.OpcodeMap.sqry (f : FWord) : Sys2Proof.Laws.OpcodeMap.Statement (.sqry f) :=
  Sys2Proof.Laws.opcodeMap_row rfl rfl
theorem Sys2Proof.Laws.OpcodeMap.sgrow (f : FWord) : Sys2Proof.Laws.OpcodeMap.Statement (.sgrow f) := by
  intro op' f' h hw
  cases h
  have hb : (!bitOf f.fc.toNat 0) = true := hw
  show some (if bitOf f.fc.toNat 0 then Instr.sgrowTrim f else .sgrow f) = _
  simp_all
theorem Sys2Proof.Laws.OpcodeMap.sgrowTrim (f : FWord) : Sys2Proof.Laws.OpcodeMap.Statement (.sgrowTrim f) := by
  intro op' f' h hw
  cases h
  have hb : bitOf f.fc.toNat 0 = true := hw
  show some (if bitOf f.fc.toNat 0 then Instr.sgrowTrim f else .sgrow f) = _
  simp_all
theorem Sys2Proof.Laws.OpcodeMap.pin (f : FWord) : Sys2Proof.Laws.OpcodeMap.Statement (.pin f) :=
  Sys2Proof.Laws.opcodeMap_row rfl rfl
theorem Sys2Proof.Laws.OpcodeMap.unpin (f : FWord) : Sys2Proof.Laws.OpcodeMap.Statement (.unpin f) :=
  Sys2Proof.Laws.opcodeMap_row rfl rfl
theorem Sys2Proof.Laws.OpcodeMap.hint (f : FWord) : Sys2Proof.Laws.OpcodeMap.Statement (.hint f) :=
  Sys2Proof.Laws.opcodeMap_row rfl rfl
theorem Sys2Proof.Laws.OpcodeMap.pgqry (f : FWord) : Sys2Proof.Laws.OpcodeMap.Statement (.pgqry f) :=
  Sys2Proof.Laws.opcodeMap_row rfl rfl
theorem Sys2Proof.Laws.OpcodeMap.pgown (f : FWord) : Sys2Proof.Laws.OpcodeMap.Statement (.pgown f) :=
  Sys2Proof.Laws.opcodeMap_row rfl rfl
theorem Sys2Proof.Laws.OpcodeMap.recode (f : FWord) : Sys2Proof.Laws.OpcodeMap.Statement (.recode f) :=
  Sys2Proof.Laws.opcodeMap_row rfl rfl
theorem Sys2Proof.Laws.OpcodeMap.trap (f : FWord) : Sys2Proof.Laws.OpcodeMap.Statement (.trap f) :=
  Sys2Proof.Laws.opcodeMap_row rfl rfl
theorem Sys2Proof.Laws.OpcodeMap.tret (f : FWord) : Sys2Proof.Laws.OpcodeMap.Statement (.tret f) :=
  Sys2Proof.Laws.opcodeMap_row rfl rfl
theorem Sys2Proof.Laws.OpcodeMap.sysr (f : FWord) : Sys2Proof.Laws.OpcodeMap.Statement (.sysr f) :=
  Sys2Proof.Laws.opcodeMap_row rfl rfl
theorem Sys2Proof.Laws.OpcodeMap.sysw (f : FWord) : Sys2Proof.Laws.OpcodeMap.Statement (.sysw f) :=
  Sys2Proof.Laws.opcodeMap_row rfl rfl
theorem Sys2Proof.Laws.OpcodeMap.haltStop (f : FWord) : Sys2Proof.Laws.OpcodeMap.Statement (.haltStop f) := by
  intro op' f' h hw
  cases h
  have hb : (!bitOf f.fc.toNat 0) = true := hw
  show some (if bitOf f.fc.toNat 0 then Instr.haltGo f else .haltStop f) = _
  simp_all
theorem Sys2Proof.Laws.OpcodeMap.haltGo (f : FWord) : Sys2Proof.Laws.OpcodeMap.Statement (.haltGo f) := by
  intro op' f' h hw
  cases h
  have hb : bitOf f.fc.toNat 0 = true := hw
  show some (if bitOf f.fc.toNat 0 then Instr.haltGo f else .haltStop f) = _
  simp_all
theorem Sys2Proof.Laws.OpcodeMap.tlbinv (f : FWord) : Sys2Proof.Laws.OpcodeMap.Statement (.tlbinv f) :=
  Sys2Proof.Laws.opcodeMap_row rfl rfl
theorem Sys2Proof.Laws.OpcodeMap.icinv (f : FWord) : Sys2Proof.Laws.OpcodeMap.Statement (.icinv f) :=
  Sys2Proof.Laws.opcodeMap_row rfl rfl
theorem Sys2Proof.Laws.OpcodeMap.sig (f : FWord) : Sys2Proof.Laws.OpcodeMap.Statement (.sig f) :=
  Sys2Proof.Laws.opcodeMap_row rfl rfl
theorem Sys2Proof.Laws.OpcodeMap.waitsig (f : FWord) : Sys2Proof.Laws.OpcodeMap.Statement (.waitsig f) :=
  Sys2Proof.Laws.opcodeMap_row rfl rfl
theorem Sys2Proof.Laws.OpcodeMap.qpush (f : FWord) : Sys2Proof.Laws.OpcodeMap.Statement (.qpush f) :=
  Sys2Proof.Laws.opcodeMap_row rfl rfl
theorem Sys2Proof.Laws.OpcodeMap.put (f : FWord) : Sys2Proof.Laws.OpcodeMap.Statement (.put f) :=
  Sys2Proof.Laws.opcodeMap_row rfl rfl
theorem Sys2Proof.Laws.OpcodeMap.get (f : FWord) : Sys2Proof.Laws.OpcodeMap.Statement (.get f) :=
  Sys2Proof.Laws.opcodeMap_row rfl rfl
theorem Sys2Proof.Laws.OpcodeMap.coll (f : FWord) : Sys2Proof.Laws.OpcodeMap.Statement (.coll f) :=
  Sys2Proof.Laws.opcodeMap_row rfl rfl
theorem Sys2Proof.Laws.OpcodeMap.linkq (f : FWord) : Sys2Proof.Laws.OpcodeMap.Statement (.linkq f) :=
  Sys2Proof.Laws.opcodeMap_row rfl rfl
theorem Sys2Proof.Laws.OpcodeMap.unassignedOpcode (w : DWord) (ext : Option DWord) : Sys2Proof.Laws.OpcodeMap.Statement (.unassignedOpcode w ext) :=
  Sys2Proof.Laws.opcodeMap_none rfl
theorem Sys2Proof.Laws.OpcodeMap.registerFill (fill : Nat) : Sys2Proof.Laws.OpcodeMap.Statement (.registerFill fill) :=
  Sys2Proof.Laws.opcodeMap_none rfl
theorem Sys2Proof.Laws.OpcodeMap.engineOpRetire (op : Nat) : Sys2Proof.Laws.OpcodeMap.Statement (.engineOpRetire op) :=
  Sys2Proof.Laws.opcodeMap_none rfl
theorem Sys2Proof.Laws.OpcodeMap.waveEnterActive (core : Nat) (pane : Nat) : Sys2Proof.Laws.OpcodeMap.Statement (.waveEnterActive core pane) :=
  Sys2Proof.Laws.opcodeMap_none rfl
theorem Sys2Proof.Laws.OpcodeMap.dispatchChoose : Sys2Proof.Laws.OpcodeMap.Statement .dispatchChoose :=
  Sys2Proof.Laws.opcodeMap_none rfl
theorem Sys2Proof.Laws.OpcodeMap.blockPlace (die : Nat) : Sys2Proof.Laws.OpcodeMap.Statement (.blockPlace die) :=
  Sys2Proof.Laws.opcodeMap_none rfl
theorem Sys2Proof.Laws.OpcodeMap.prologue (block : Nat) : Sys2Proof.Laws.OpcodeMap.Statement (.prologue block) :=
  Sys2Proof.Laws.opcodeMap_none rfl
theorem Sys2Proof.Laws.OpcodeMap.preemptComplete (ctx : Nat) : Sys2Proof.Laws.OpcodeMap.Statement (.preemptComplete ctx) :=
  Sys2Proof.Laws.opcodeMap_none rfl
theorem Sys2Proof.Laws.OpcodeMap.destroyComplete (ctx : Nat) : Sys2Proof.Laws.OpcodeMap.Statement (.destroyComplete ctx) :=
  Sys2Proof.Laws.opcodeMap_none rfl
theorem Sys2Proof.Laws.OpcodeMap.entryAccept (ctx : Nat) (queue : Nat) : Sys2Proof.Laws.OpcodeMap.Statement (.entryAccept ctx queue) :=
  Sys2Proof.Laws.opcodeMap_none rfl
theorem Sys2Proof.Laws.OpcodeMap.entryLaunch (ctx : Nat) (queue : Nat) (hseq : Nat) : Sys2Proof.Laws.OpcodeMap.Statement (.entryLaunch ctx queue hseq) :=
  Sys2Proof.Laws.opcodeMap_none rfl
theorem Sys2Proof.Laws.OpcodeMap.entrySignal (ctx : Nat) (queue : Nat) (hseq : Nat) : Sys2Proof.Laws.OpcodeMap.Statement (.entrySignal ctx queue hseq) :=
  Sys2Proof.Laws.opcodeMap_none rfl
theorem Sys2Proof.Laws.OpcodeMap.entryWait (ctx : Nat) (queue : Nat) (hseq : Nat) : Sys2Proof.Laws.OpcodeMap.Statement (.entryWait ctx queue hseq) :=
  Sys2Proof.Laws.opcodeMap_none rfl
theorem Sys2Proof.Laws.OpcodeMap.entryNop (ctx : Nat) (queue : Nat) (hseq : Nat) : Sys2Proof.Laws.OpcodeMap.Statement (.entryNop ctx queue hseq) :=
  Sys2Proof.Laws.opcodeMap_none rfl
theorem Sys2Proof.Laws.OpcodeMap.map (frame : Nat) (ctx : Nat) (tier : Nat) (shared : Bool) (dframe : Nat) : Sys2Proof.Laws.OpcodeMap.Statement (.map frame ctx tier shared dframe) :=
  Sys2Proof.Laws.opcodeMap_none rfl
theorem Sys2Proof.Laws.OpcodeMap.unmap (frame : Nat) : Sys2Proof.Laws.OpcodeMap.Statement (.unmap frame) :=
  Sys2Proof.Laws.opcodeMap_none rfl
theorem Sys2Proof.Laws.OpcodeMap.move (frame : Nat) (tier : Nat) : Sys2Proof.Laws.OpcodeMap.Statement (.move frame tier) :=
  Sys2Proof.Laws.opcodeMap_none rfl
theorem Sys2Proof.Laws.OpcodeMap.take (frame : Nat) : Sys2Proof.Laws.OpcodeMap.Statement (.take frame) :=
  Sys2Proof.Laws.opcodeMap_none rfl
theorem Sys2Proof.Laws.OpcodeMap.migrationLineCopy (frame : Nat) : Sys2Proof.Laws.OpcodeMap.Statement (.migrationLineCopy frame) :=
  Sys2Proof.Laws.opcodeMap_none rfl
theorem Sys2Proof.Laws.OpcodeMap.migrationCommit (frame : Nat) : Sys2Proof.Laws.OpcodeMap.Statement (.migrationCommit frame) :=
  Sys2Proof.Laws.opcodeMap_none rfl
theorem Sys2Proof.Laws.OpcodeMap.migrationRetire (frame : Nat) : Sys2Proof.Laws.OpcodeMap.Statement (.migrationRetire frame) :=
  Sys2Proof.Laws.opcodeMap_none rfl
theorem Sys2Proof.Laws.OpcodeMap.migrationAbort (frame : Nat) : Sys2Proof.Laws.OpcodeMap.Statement (.migrationAbort frame) :=
  Sys2Proof.Laws.opcodeMap_none rfl
theorem Sys2Proof.Laws.OpcodeMap.ownershipRelease (frame : Nat) : Sys2Proof.Laws.OpcodeMap.Statement (.ownershipRelease frame) :=
  Sys2Proof.Laws.opcodeMap_none rfl
theorem Sys2Proof.Laws.OpcodeMap.handoverComplete (frame : Nat) : Sys2Proof.Laws.OpcodeMap.Statement (.handoverComplete frame) :=
  Sys2Proof.Laws.opcodeMap_none rfl
theorem Sys2Proof.Laws.OpcodeMap.gets (agent : Nat) (line : Nat) : Sys2Proof.Laws.OpcodeMap.Statement (.gets agent line) :=
  Sys2Proof.Laws.opcodeMap_none rfl
theorem Sys2Proof.Laws.OpcodeMap.getx (agent : Nat) (line : Nat) : Sys2Proof.Laws.OpcodeMap.Statement (.getx agent line) :=
  Sys2Proof.Laws.opcodeMap_none rfl
theorem Sys2Proof.Laws.OpcodeMap.upg (agent : Nat) (line : Nat) : Sys2Proof.Laws.OpcodeMap.Statement (.upg agent line) :=
  Sys2Proof.Laws.opcodeMap_none rfl
theorem Sys2Proof.Laws.OpcodeMap.puts (agent : Nat) (line : Nat) : Sys2Proof.Laws.OpcodeMap.Statement (.puts agent line) :=
  Sys2Proof.Laws.opcodeMap_none rfl
theorem Sys2Proof.Laws.OpcodeMap.putx (agent : Nat) (msg : LineMsg) : Sys2Proof.Laws.OpcodeMap.Statement (.putx agent msg) :=
  Sys2Proof.Laws.opcodeMap_none rfl
theorem Sys2Proof.Laws.OpcodeMap.wbk (agent : Nat) (msg : LineMsg) : Sys2Proof.Laws.OpcodeMap.Statement (.wbk agent msg) :=
  Sys2Proof.Laws.opcodeMap_none rfl
theorem Sys2Proof.Laws.OpcodeMap.iack (agent : Nat) (line : Nat) : Sys2Proof.Laws.OpcodeMap.Statement (.iack agent line) :=
  Sys2Proof.Laws.opcodeMap_none rfl
theorem Sys2Proof.Laws.OpcodeMap.rdat (agent : Nat) (msg : LineMsg) : Sys2Proof.Laws.OpcodeMap.Statement (.rdat agent msg) :=
  Sys2Proof.Laws.opcodeMap_none rfl
theorem Sys2Proof.Laws.OpcodeMap.rack (agent : Nat) (line : Nat) : Sys2Proof.Laws.OpcodeMap.Statement (.rack agent line) :=
  Sys2Proof.Laws.opcodeMap_none rfl
theorem Sys2Proof.Laws.OpcodeMap.dats (agent : Nat) (msg : LineMsg) : Sys2Proof.Laws.OpcodeMap.Statement (.dats agent msg) :=
  Sys2Proof.Laws.opcodeMap_none rfl
theorem Sys2Proof.Laws.OpcodeMap.datx (agent : Nat) (msg : LineMsg) : Sys2Proof.Laws.OpcodeMap.Statement (.datx agent msg) :=
  Sys2Proof.Laws.opcodeMap_none rfl
theorem Sys2Proof.Laws.OpcodeMap.grnt (agent : Nat) (line : Nat) : Sys2Proof.Laws.OpcodeMap.Statement (.grnt agent line) :=
  Sys2Proof.Laws.opcodeMap_none rfl
theorem Sys2Proof.Laws.OpcodeMap.inv (agent : Nat) (line : Nat) : Sys2Proof.Laws.OpcodeMap.Statement (.inv agent line) :=
  Sys2Proof.Laws.opcodeMap_none rfl
theorem Sys2Proof.Laws.OpcodeMap.rcls (agent : Nat) (line : Nat) : Sys2Proof.Laws.OpcodeMap.Statement (.rcls agent line) :=
  Sys2Proof.Laws.opcodeMap_none rfl
theorem Sys2Proof.Laws.OpcodeMap.rclx (agent : Nat) (line : Nat) : Sys2Proof.Laws.OpcodeMap.Statement (.rclx agent line) :=
  Sys2Proof.Laws.opcodeMap_none rfl
theorem Sys2Proof.Laws.OpcodeMap.ackp (agent : Nat) (line : Nat) : Sys2Proof.Laws.OpcodeMap.Statement (.ackp agent line) :=
  Sys2Proof.Laws.opcodeMap_none rfl
theorem Sys2Proof.Laws.OpcodeMap.noncachingRequest (req : ByteAccess) : Sys2Proof.Laws.OpcodeMap.Statement (.noncachingRequest req) :=
  Sys2Proof.Laws.opcodeMap_none rfl
theorem Sys2Proof.Laws.OpcodeMap.shutterUpdate (agent : Nat) (ctx : Nat) (shutter : Nat) : Sys2Proof.Laws.OpcodeMap.Statement (.shutterUpdate agent ctx shutter) :=
  Sys2Proof.Laws.opcodeMap_none rfl
theorem Sys2Proof.Laws.OpcodeMap.copyTileWrite (op : Nat) : Sys2Proof.Laws.OpcodeMap.Statement (.copyTileWrite op) :=
  Sys2Proof.Laws.opcodeMap_none rfl
theorem Sys2Proof.Laws.OpcodeMap.mtxOperation (core : Nat) (op : Nat) : Sys2Proof.Laws.OpcodeMap.Statement (.mtxOperation core op) :=
  Sys2Proof.Laws.opcodeMap_none rfl
theorem Sys2Proof.Laws.OpcodeMap.credRoundComplete (cluster : Nat) (round : Nat) : Sys2Proof.Laws.OpcodeMap.Statement (.credRoundComplete cluster round) :=
  Sys2Proof.Laws.opcodeMap_none rfl
theorem Sys2Proof.Laws.OpcodeMap.shutterRestore (ctx : Nat) (shutter : Nat) : Sys2Proof.Laws.OpcodeMap.Statement (.shutterRestore ctx shutter) :=
  Sys2Proof.Laws.opcodeMap_none rfl
theorem Sys2Proof.Laws.OpcodeMap.shutterScrub (ctx : Nat) (shutter : Nat) : Sys2Proof.Laws.OpcodeMap.Statement (.shutterScrub ctx shutter) :=
  Sys2Proof.Laws.opcodeMap_none rfl
theorem Sys2Proof.Laws.OpcodeMap.shadowWaitProceed (ctx : Nat) : Sys2Proof.Laws.OpcodeMap.Statement (.shadowWaitProceed ctx) :=
  Sys2Proof.Laws.opcodeMap_none rfl
theorem Sys2Proof.Laws.OpcodeMap.powerUp : Sys2Proof.Laws.OpcodeMap.Statement .powerUp :=
  Sys2Proof.Laws.opcodeMap_none rfl
theorem Sys2Proof.Laws.OpcodeMap.regionStallAbort (core : Nat) : Sys2Proof.Laws.OpcodeMap.Statement (.regionStallAbort core) :=
  Sys2Proof.Laws.opcodeMap_none rfl
theorem Sys2Proof.Laws.OpcodeMap.freePlaceReport (die : Nat) : Sys2Proof.Laws.OpcodeMap.Statement (.freePlaceReport die) :=
  Sys2Proof.Laws.opcodeMap_none rfl
theorem Sys2Proof.Laws.OpcodeMap.bind (ctx : Nat) : Sys2Proof.Laws.OpcodeMap.Statement (.bind ctx) :=
  Sys2Proof.Laws.opcodeMap_none rfl
theorem Sys2Proof.Laws.OpcodeMap.arm (ctx : Nat) : Sys2Proof.Laws.OpcodeMap.Statement (.arm ctx) :=
  Sys2Proof.Laws.opcodeMap_none rfl
theorem Sys2Proof.Laws.OpcodeMap.run (ctx : Nat) : Sys2Proof.Laws.OpcodeMap.Statement (.run ctx) :=
  Sys2Proof.Laws.opcodeMap_none rfl
theorem Sys2Proof.Laws.OpcodeMap.preempt (ctx : Nat) : Sys2Proof.Laws.OpcodeMap.Statement (.preempt ctx) :=
  Sys2Proof.Laws.opcodeMap_none rfl
theorem Sys2Proof.Laws.OpcodeMap.destroy (ctx : Nat) : Sys2Proof.Laws.OpcodeMap.Statement (.destroy ctx) :=
  Sys2Proof.Laws.opcodeMap_none rfl
theorem Sys2Proof.Laws.OpcodeMap.resume (ctx : Nat) (agent : Nat) (slot : Nat) : Sys2Proof.Laws.OpcodeMap.Statement (.resume ctx agent slot) :=
  Sys2Proof.Laws.opcodeMap_none rfl
theorem Sys2Proof.Laws.OpcodeMap.fail (ctx : Nat) (agent : Nat) (slot : Nat) : Sys2Proof.Laws.OpcodeMap.Statement (.fail ctx agent slot) :=
  Sys2Proof.Laws.opcodeMap_none rfl
theorem Sys2Proof.Laws.OpcodeMap.sliceExpiry (ctx : Nat) : Sys2Proof.Laws.OpcodeMap.Statement (.sliceExpiry ctx) :=
  Sys2Proof.Laws.opcodeMap_none rfl
theorem Sys2Proof.Laws.OpcodeMap.ctxRectWrite (ctx : Nat) (value : DWord) : Sys2Proof.Laws.OpcodeMap.Statement (.ctxRectWrite ctx value) :=
  Sys2Proof.Laws.opcodeMap_none rfl
theorem Sys2Proof.Laws.OpcodeMap.ctxFqPtrWrite (ctx : Nat) (value : DWord) : Sys2Proof.Laws.OpcodeMap.Statement (.ctxFqPtrWrite ctx value) :=
  Sys2Proof.Laws.opcodeMap_none rfl
theorem Sys2Proof.Laws.OpcodeMap.ctxDbgDataAccess (ctx : Nat) (write : Option DWord) : Sys2Proof.Laws.OpcodeMap.Statement (.ctxDbgDataAccess ctx write) :=
  Sys2Proof.Laws.opcodeMap_none rfl
theorem Sys2Proof.Laws.OpcodeMap.krnLimitWrite (ctx : Nat) (value : DWord) : Sys2Proof.Laws.OpcodeMap.Statement (.krnLimitWrite ctx value) :=
  Sys2Proof.Laws.opcodeMap_none rfl
theorem Sys2Proof.Laws.OpcodeMap.cohDiraWrite (value : DWord) : Sys2Proof.Laws.OpcodeMap.Statement (.cohDiraWrite value) :=
  Sys2Proof.Laws.opcodeMap_none rfl
theorem Sys2Proof.Laws.OpcodeMap.mtxErrRead (core : Nat) : Sys2Proof.Laws.OpcodeMap.Statement (.mtxErrRead core) :=
  Sys2Proof.Laws.opcodeMap_none rfl
theorem Sys2Proof.Laws.OpcodeMap.memErrRead : Sys2Proof.Laws.OpcodeMap.Statement .memErrRead :=
  Sys2Proof.Laws.opcodeMap_none rfl
theorem Sys2Proof.Laws.OpcodeMap.sysregWrite (ctx : Nat) (num : Nat) (value : DWord) : Sys2Proof.Laws.OpcodeMap.Statement (.sysregWrite ctx num value) :=
  Sys2Proof.Laws.opcodeMap_none rfl
theorem Sys2Proof.Laws.OpcodeMap.queueEnable (ctx : Nat) (queue : Nat) : Sys2Proof.Laws.OpcodeMap.Statement (.queueEnable ctx queue) :=
  Sys2Proof.Laws.opcodeMap_none rfl
theorem Sys2Proof.Laws.OpcodeMap.queuePause (ctx : Nat) (queue : Nat) : Sys2Proof.Laws.OpcodeMap.Statement (.queuePause ctx queue) :=
  Sys2Proof.Laws.opcodeMap_none rfl
theorem Sys2Proof.Laws.OpcodeMap.queueResume (ctx : Nat) (queue : Nat) : Sys2Proof.Laws.OpcodeMap.Statement (.queueResume ctx queue) :=
  Sys2Proof.Laws.opcodeMap_none rfl
theorem Sys2Proof.Laws.OpcodeMap.queueDisable (ctx : Nat) (queue : Nat) : Sys2Proof.Laws.OpcodeMap.Statement (.queueDisable ctx queue) :=
  Sys2Proof.Laws.opcodeMap_none rfl
theorem Sys2Proof.Laws.OpcodeMap.queueClear (ctx : Nat) (queue : Nat) : Sys2Proof.Laws.OpcodeMap.Statement (.queueClear ctx queue) :=
  Sys2Proof.Laws.opcodeMap_none rfl
theorem Sys2Proof.Laws.OpcodeMap.queueDoorbellWrite (ctx : Nat) (queue : Nat) (value : DWord) : Sys2Proof.Laws.OpcodeMap.Statement (.queueDoorbellWrite ctx queue value) :=
  Sys2Proof.Laws.opcodeMap_none rfl
theorem Sys2Proof.Laws.OpcodeMap.queueCplConsWrite (ctx : Nat) (queue : Nat) (value : DWord) : Sys2Proof.Laws.OpcodeMap.Statement (.queueCplConsWrite ctx queue value) :=
  Sys2Proof.Laws.opcodeMap_none rfl
theorem Sys2Proof.Laws.OpcodeMap.ssArm (ctx : Nat) (group : Nat) : Sys2Proof.Laws.OpcodeMap.Statement (.ssArm ctx group) :=
  Sys2Proof.Laws.opcodeMap_none rfl
theorem Sys2Proof.Laws.OpcodeMap.ssReset (ctx : Nat) (group : Nat) : Sys2Proof.Laws.OpcodeMap.Statement (.ssReset ctx group) :=
  Sys2Proof.Laws.opcodeMap_none rfl
theorem Sys2Proof.Laws.OpcodeMap.ssDone (node : Nat) (tag : Nat) (stepNo : Nat) : Sys2Proof.Laws.OpcodeMap.Statement (.ssDone node tag stepNo) :=
  Sys2Proof.Laws.opcodeMap_none rfl
theorem Sys2Proof.Laws.OpcodeMap.ssTimeout (ctx : Nat) (group : Nat) : Sys2Proof.Laws.OpcodeMap.Statement (.ssTimeout ctx group) :=
  Sys2Proof.Laws.opcodeMap_none rfl
theorem Sys2Proof.Laws.OpcodeMap.watchdogExpiry (ctx : Nat) : Sys2Proof.Laws.OpcodeMap.Statement (.watchdogExpiry ctx) :=
  Sys2Proof.Laws.opcodeMap_none rfl
theorem Sys2Proof.Laws.OpcodeMap.placementTick : Sys2Proof.Laws.OpcodeMap.Statement .placementTick :=
  Sys2Proof.Laws.opcodeMap_none rfl
theorem Sys2Proof.Laws.OpcodeMap.recall (dframe : Nat) (node : Nat) : Sys2Proof.Laws.OpcodeMap.Statement (.recall dframe node) :=
  Sys2Proof.Laws.opcodeMap_none rfl
theorem Sys2Proof.Laws.OpcodeMap.ownTimeout (frame : Nat) : Sys2Proof.Laws.OpcodeMap.Statement (.ownTimeout frame) :=
  Sys2Proof.Laws.opcodeMap_none rfl
theorem Sys2Proof.Laws.OpcodeMap.shootdownRequest (req : ShootReq) : Sys2Proof.Laws.OpcodeMap.Statement (.shootdownRequest req) :=
  Sys2Proof.Laws.opcodeMap_none rfl
theorem Sys2Proof.Laws.OpcodeMap.shootdownAck (serial : Nat) (child : Nat) (count : Nat) (fenced : List Nat) : Sys2Proof.Laws.OpcodeMap.Statement (.shootdownAck serial child count fenced) :=
  Sys2Proof.Laws.opcodeMap_none rfl
theorem Sys2Proof.Laws.OpcodeMap.shootdownChildTimeout (serial : Nat) (child : Nat) : Sys2Proof.Laws.OpcodeMap.Statement (.shootdownChildTimeout serial child) :=
  Sys2Proof.Laws.opcodeMap_none rfl
theorem Sys2Proof.Laws.OpcodeMap.fencedNodeNotice (node : Nat) : Sys2Proof.Laws.OpcodeMap.Statement (.fencedNodeNotice node) :=
  Sys2Proof.Laws.opcodeMap_none rfl
theorem Sys2Proof.Laws.OpcodeMap.poolCreate (ctx : Nat) (pool : Nat) : Sys2Proof.Laws.OpcodeMap.Statement (.poolCreate ctx pool) :=
  Sys2Proof.Laws.opcodeMap_none rfl
theorem Sys2Proof.Laws.OpcodeMap.poolReset (ctx : Nat) (pool : Nat) : Sys2Proof.Laws.OpcodeMap.Statement (.poolReset ctx pool) :=
  Sys2Proof.Laws.opcodeMap_none rfl
theorem Sys2Proof.Laws.OpcodeMap.flitReceive (port : Nat) (crcOk : Bool) (intact : Bool) (flit : FlitRest) : Sys2Proof.Laws.OpcodeMap.Statement (.flitReceive port crcOk intact flit) :=
  Sys2Proof.Laws.opcodeMap_none rfl
theorem Sys2Proof.Laws.OpcodeMap.portLock (port : Nat) : Sys2Proof.Laws.OpcodeMap.Statement (.portLock port) :=
  Sys2Proof.Laws.opcodeMap_none rfl
theorem Sys2Proof.Laws.OpcodeMap.portTrainingDone (port : Nat) : Sys2Proof.Laws.OpcodeMap.Statement (.portTrainingDone port) :=
  Sys2Proof.Laws.opcodeMap_none rfl
theorem Sys2Proof.Laws.OpcodeMap.portTrainingTimeout (port : Nat) : Sys2Proof.Laws.OpcodeMap.Statement (.portTrainingTimeout port) :=
  Sys2Proof.Laws.opcodeMap_none rfl
theorem Sys2Proof.Laws.OpcodeMap.portLossOfLock (port : Nat) : Sys2Proof.Laws.OpcodeMap.Statement (.portLossOfLock port) :=
  Sys2Proof.Laws.opcodeMap_none rfl
theorem Sys2Proof.Laws.OpcodeMap.portRetrainDone (port : Nat) : Sys2Proof.Laws.OpcodeMap.Statement (.portRetrainDone port) :=
  Sys2Proof.Laws.opcodeMap_none rfl
theorem Sys2Proof.Laws.OpcodeMap.portRetrainTimeout (port : Nat) : Sys2Proof.Laws.OpcodeMap.Statement (.portRetrainTimeout port) :=
  Sys2Proof.Laws.opcodeMap_none rfl
theorem Sys2Proof.Laws.OpcodeMap.nodeHandshakeDone (node : Nat) : Sys2Proof.Laws.OpcodeMap.Statement (.nodeHandshakeDone node) :=
  Sys2Proof.Laws.opcodeMap_none rfl
theorem Sys2Proof.Laws.OpcodeMap.nodeTrainingTimeout (node : Nat) : Sys2Proof.Laws.OpcodeMap.Statement (.nodeTrainingTimeout node) :=
  Sys2Proof.Laws.opcodeMap_none rfl
theorem Sys2Proof.Laws.OpcodeMap.nodeRetrainTimeout (node : Nat) : Sys2Proof.Laws.OpcodeMap.Statement (.nodeRetrainTimeout node) :=
  Sys2Proof.Laws.opcodeMap_none rfl
theorem Sys2Proof.Laws.OpcodeMap.fabricAccess (req : FabricReq) : Sys2Proof.Laws.OpcodeMap.Statement (.fabricAccess req) :=
  Sys2Proof.Laws.opcodeMap_none rfl
theorem Sys2Proof.Laws.OpcodeMap.fabricAck (node : Nat) (seq : Nat) (refused : List Nat) : Sys2Proof.Laws.OpcodeMap.Statement (.fabricAck node seq refused) :=
  Sys2Proof.Laws.opcodeMap_none rfl
theorem Sys2Proof.Laws.OpcodeMap.fabricReply (request : Nat) (reply : FabricReply) : Sys2Proof.Laws.OpcodeMap.Statement (.fabricReply request reply) :=
  Sys2Proof.Laws.opcodeMap_none rfl
theorem Sys2Proof.Laws.OpcodeMap.fenceBoundExpiry (wave : Nat) : Sys2Proof.Laws.OpcodeMap.Statement (.fenceBoundExpiry wave) :=
  Sys2Proof.Laws.opcodeMap_none rfl
theorem Sys2Proof.Laws.OpcodeMap.collMessage (msg : CollMsg) : Sys2Proof.Laws.OpcodeMap.Statement (.collMessage msg) :=
  Sys2Proof.Laws.opcodeMap_none rfl
theorem Sys2Proof.Laws.OpcodeMap.lnkUnfence (node : Nat) : Sys2Proof.Laws.OpcodeMap.Statement (.lnkUnfence node) :=
  Sys2Proof.Laws.opcodeMap_none rfl
theorem Sys2Proof.Laws.OpcodeMap.lnkDown (node : Nat) : Sys2Proof.Laws.OpcodeMap.Statement (.lnkDown node) :=
  Sys2Proof.Laws.opcodeMap_none rfl
theorem Sys2Proof.Laws.OpcodeMap.lnkFence (node : Nat) : Sys2Proof.Laws.OpcodeMap.Statement (.lnkFence node) :=
  Sys2Proof.Laws.opcodeMap_none rfl
theorem Sys2Proof.Laws.OpcodeMap.sessionOpen (slot : Nat) : Sys2Proof.Laws.OpcodeMap.Statement (.sessionOpen slot) :=
  Sys2Proof.Laws.opcodeMap_none rfl
theorem Sys2Proof.Laws.OpcodeMap.sessionLock (slot : Nat) : Sys2Proof.Laws.OpcodeMap.Statement (.sessionLock slot) :=
  Sys2Proof.Laws.opcodeMap_none rfl
theorem Sys2Proof.Laws.OpcodeMap.sessionUnlock (slot : Nat) : Sys2Proof.Laws.OpcodeMap.Statement (.sessionUnlock slot) :=
  Sys2Proof.Laws.opcodeMap_none rfl
theorem Sys2Proof.Laws.OpcodeMap.sessionClose (slot : Nat) : Sys2Proof.Laws.OpcodeMap.Statement (.sessionClose slot) :=
  Sys2Proof.Laws.opcodeMap_none rfl
theorem Sys2Proof.Laws.OpcodeMap.keyupd (slot : Nat) : Sys2Proof.Laws.OpcodeMap.Statement (.keyupd slot) :=
  Sys2Proof.Laws.opcodeMap_none rfl
theorem Sys2Proof.Laws.OpcodeMap.spdmMessage (slot : Nat) (msg : SpdmMsg) : Sys2Proof.Laws.OpcodeMap.Statement (.spdmMessage slot msg) :=
  Sys2Proof.Laws.opcodeMap_none rfl
theorem Sys2Proof.Laws.OpcodeMap.getMeasurements (index : Nat) : Sys2Proof.Laws.OpcodeMap.Statement (.getMeasurements index) :=
  Sys2Proof.Laws.opcodeMap_none rfl
theorem Sys2Proof.Laws.OpcodeMap.hostAccess (req : HostReq) : Sys2Proof.Laws.OpcodeMap.Statement (.hostAccess req) :=
  Sys2Proof.Laws.opcodeMap_none rfl
theorem Sys2Proof.Laws.OpcodeMap.hbmReply (dframe : Nat) (line : Nat) (err : EccResult) : Sys2Proof.Laws.OpcodeMap.Statement (.hbmReply dframe line err) :=
  Sys2Proof.Laws.opcodeMap_none rfl
theorem Sys2Proof.Laws.OpcodeMap.mapout (stack : Nat) (layer : Nat) : Sys2Proof.Laws.OpcodeMap.Statement (.mapout stack layer) :=
  Sys2Proof.Laws.opcodeMap_none rfl
theorem Sys2Proof.Laws.OpcodeMap.wake : Sys2Proof.Laws.OpcodeMap.Statement .wake :=
  Sys2Proof.Laws.opcodeMap_none rfl
theorem Sys2Proof.Laws.OpcodeMap.standby : Sys2Proof.Laws.OpcodeMap.Statement .standby :=
  Sys2Proof.Laws.opcodeMap_none rfl
theorem Sys2Proof.Laws.OpcodeMap.thermalTrip : Sys2Proof.Laws.OpcodeMap.Statement .thermalTrip :=
  Sys2Proof.Laws.opcodeMap_none rfl
theorem Sys2Proof.Laws.OpcodeMap.clockTick (m : Readings) : Sys2Proof.Laws.OpcodeMap.Statement (.clockTick m) :=
  Sys2Proof.Laws.opcodeMap_none rfl
theorem Sys2Proof.Laws.OpcodeMap.collTimeout (ctx : Nat) (group : Nat) : Sys2Proof.Laws.OpcodeMap.Statement (.collTimeout ctx group) :=
  Sys2Proof.Laws.opcodeMap_none rfl
theorem Sys2Proof.Laws.OpcodeMap.lpddrReply (dframe : Nat) (line : Nat) (err : EccResult) : Sys2Proof.Laws.OpcodeMap.Statement (.lpddrReply dframe line err) :=
  Sys2Proof.Laws.opcodeMap_none rfl
theorem Sys2Proof.Laws.OpcodeMap.cxlMemResponse (dframe : Nat) (line : Nat) (err : EccResult) : Sys2Proof.Laws.OpcodeMap.Statement (.cxlMemResponse dframe line err) :=
  Sys2Proof.Laws.opcodeMap_none rfl
end

