-- ==== Sys2Proof/Tests/Slice0.lean ====
section
/-! SUPPORT. Tests: ill-formed terms that the check of well-formedness refuses, words of every family that decode, small
steps with results from the spec, and states and operands that meet the premises of the statements. -/

namespace Sys2Proof.Tests

set_option Elab.async false

open Sys2Proof Sys2Proof.Machine

/-- A word of form F without fields. -/
def tF : FWord :=
  { g := 0, gn := false, fd := 0, fa := 0, fb := 0, fc := 0, ec := false, eb := false, ea := false, ty := 0, md := 0
    ext := none }

/-- A word of three or four v operands. -/
def tV (ty : BitVec 4) (fc : Field := 0) : FWord := { tF with fd := 4, fa := 2, fb := 3, fc := fc, ty := ty }

/-- A wave with two live lanes, v2 = 7 and 0xFFFFFFFF, v3 = 3 and 2, s4 = 0x1000, s5 = 0x200, p3 true in lane 0. -/
def tWave : Wave :=
  { core := 0, slot := 0, ctx := 1, block := some 5, nv := 64, pcs := [(0, 0x800), (1, 0x800)]
    regs := { v := [(64, 7), (65, 0xFFFFFFFF), (96, 3), (97, 2)], s := [(4, 0x1000), (5, 0x200)], p := [(96, true)]
              m := [(0, 3), (1, 1)] } }

/-- A context with the heap window 0 to 1 MiB on package address 0. -/
def tCtx : Context := { st := .running, heapLimit := 0x100000 }

/-- A block with two handles and eight tiles. -/
def tBlock : Block :=
  { ctx := 1, launch := 6, index := 0, core := 0, stashBase := 0, stashTiles := 8, handleCount := 2, producer := 0
    slots := [0] }

/-- The wave in issue at 0x800, in a package with the frame 0 backed. -/
def tS : State :=
  { State.reset with
    power := .running, ctxs := [(1, tCtx)], waves := [(0, tWave)], blocks := [(5, tBlock)], nextId := 100
    place := [(0, { ctx := 1, tier := 1, dframe := 0 })], alloc := [(2 ^ 30, 1)]
    cur := some { wave := 0, pc := 0x800, lanes := 3 } }

/-- Its group with a word. -/
def tE (f : FWord) (s : State := tS) : Env :=
  (s.envOf f).getD { key := 0, pc := 0, size := 8, lanes := 0, act := 0, f := f }

/-- A word issues, as a computation. -/
def issuesB (p : OpSpec) (f : FWord) (s : State := tS) : Bool :=
  (s.envOf f).isSome && (p.trap (s.encEnv (tE f s).key) f).isNone && decide ((tE f s).act ≠ 0) &&
  decide (s.emptyCheck p (tE f s) = .ok)

theorem issues_of {p : OpSpec} {f : FWord} {s : State} (h : issuesB p f s = true) : Issues p f s (tE f s) := by
  simp only [issuesB, Bool.and_eq_true, decide_eq_true_eq, Option.isNone_iff_eq_none] at h
  obtain ⟨⟨⟨h1, h2⟩, h3⟩, h4⟩ := h
  refine ⟨?_, h2, h3, h4⟩
  unfold tE
  cases hh : s.envOf f with
  | none => simp [hh] at h1
  | some e => rfl

/-- Where no frame is SHUT, no address lies under a shutter. -/
theorem noShutter {s : State} (h : s.place.all (fun x => !x.2.shut) = true) : ∀ pa, s.shutterOf pa = none := by
  have mem : ∀ (m : Cells Placement) n v, Cells.find m n = some v → (n, v) ∈ m := by
    intro m
    induction m with
    | nil => intro n v hv; exact absurd hv (by simp [Cells.find])
    | cons x m ih =>
      obtain ⟨a, b⟩ := x
      intro n v hv
      simp only [Cells.find] at hv
      split at hv
      · simp_all
      · exact List.mem_cons_of_mem _ (ih n v hv)
  intro pa
  unfold State.shutterOf
  cases hp : Cells.find s.place (pa / 65536) with
  | none => rfl
  | some v =>
    have := List.all_eq_true.mp h _ (mem _ _ _ hp)
    simp_all

/-- Then no walk reads a line under one. -/
theorem walkClear {s : State} (h : s.place.all (fun x => !x.2.shut) = true) (k va : Nat) : s.WalkClear k va :=
  fun _ _ => noShutter h _

/-- A computation succeeds. -/
def okE {ε α : Type} : Except ε α → Bool
  | .ok _ => true
  | .error _ => false

theorem ok_of {ε α : Type} {x : Except ε α} (h : okE x = true) : ∃ u, x = .ok u := by
  cases x with
  | error _ => simp [okE] at h
  | ok u => exact ⟨u, rfl⟩

/-- The words of a list issue in a state. -/
def tAll (s : State) (l : List (OpSpec × FWord)) : Bool := l.all (fun x => issuesB x.1 x.2 s)

theorem issues_all {s : State} {l : List (OpSpec × FWord)} (h : tAll s l = true) :
    ∀ x ∈ l, Issues x.1 x.2 s (tE x.2 s) :=
  fun x hx => issues_of (List.all_eq_true.mp h x hx)

/-! ### Premises: compute instructions -/

/-- Words of two, three and one v operand, and of the forms of class 001. -/
def t1 (ty : BitVec 4) (fc : Field := 0) : FWord := { tV ty fc with fb := 0 }
def tG (md : BitVec 2) (ty : BitVec 4 := 0) (fc : Field := 0) : FWord := { tV ty fc with md := md }
def tG1 (md : BitVec 2) (ty : BitVec 4 := 0) (fc : Field := 0) : FWord := { t1 ty fc with md := md }

theorem test_premises_IntegerArithmetic : ∀ x ∈
    [(intSpec2 (tV 2) typesIN 0 1, tV 2), (intSpec3 (tV 2 5) typesIN 1, tV 2 5), (intSpec1 (t1 2) typesI 1, t1 2),
     (intSpec2 (tV 6) typesIN 0 0, tV 6), (intSpec3 (tV 6 5) typesIN 0, tV 6 5)], Issues x.1 x.2 tS (tE x.2) :=
  issues_all (by decide +kernel)

/-- A nonzero divisor in every active lane; and a zero divisor, lane 0 the lowest. -/
theorem test_premises_DivideAndRemainder :
    (Issues (intSpec2 (tV 2) typesIN 0 1) (tV 2) tS (tE (tV 2)) ∧ ∀ l ∈ laneList (tE (tV 2)).act, natB (tV 2) tS (tE (tV 2)) l ≠ 0) ∧
    (let f : FWord := { tV 2 with fb := 0x140 }
     Issues (intSpec2 f typesIN 0 1) f tS (tE f) ∧ bitOf f.mod 0 = false ∧ 0 ∈ laneList (tE f).act ∧ natB f tS (tE f) 0 = 0) :=
  ⟨⟨issues_of (by decide +kernel), by decide +kernel⟩, issues_of (by decide +kernel), by decide +kernel⟩

/-- The carry predicate at p3, at its boundary p0, and with an s destination. -/
theorem test_premises_CarryAndBorrow : ∀ x ∈
    [(carrySpec (tV 6 3), tV 6 3), (carrySpec (tV 6), tV 6),
     (carrySpec { tV 6 3 with fd := 0x104, fa := 0x104, fb := 0x105 }, { tV 6 3 with fd := 0x104, fa := 0x104, fb := 0x105 })],
    Issues x.1 x.2 tS (tE x.2) := issues_all (by decide +kernel)

theorem test_premises_LogicAndBitFields : (∀ x ∈
    [(leaSpec (tV 6), tV 6), (intSpec2 (tV 10) typesB 0 0, tV 10), (intSpec1 (t1 10) typesB 0, t1 10),
     (intSpecShift (tV 10) typesB 0, tV 10), (intSpecShift (tV 2) typesI 0, tV 2), (intSpecShift (tV 10) typesB 1, tV 10),
     (intSpecShift (tV 2) [2, 6, 3, 7] 0, tV 2), (bfiSpec (tV 10 5), tV 10 5), (countSpec (t1 10), t1 10),
     (intSpec3 (tV 10 5) [10] 0, tV 10 5)], Issues x.1 x.2 tS (tE x.2)) ∧ 2 ∈ [2, 6, 3, 7] ∧ 31 < typeWidth 2 :=
  ⟨issues_all (by decide +kernel), by decide⟩

theorem test_premises_SelectMoveConvert : ∀ x ∈
    [(selSpec (tV 10 3), tV 10 3), (intSpec1 (t1 10) (List.range 16) 0, t1 10), (cmpSpec (tV 2 2), tV 2 2),
     (intCvtSpec (t1 2 0x68), t1 2 0x68)], Issues x.1 x.2 tS (tE x.2) := issues_all (by decide +kernel)

theorem test_premises_FloatArithmetic : ∀ x ∈
    [(fpSpec2 (tG 1) typesF true 0, tG 1), (fpSpec3 (tG 1 0 5) typesF, tG 1 0 5), (fpSpec1 (tG1 1) typesF true, tG1 1),
     (fsclSpec (tG 1), tG 1), (fpSpec2 (tG 1) typesF false 1, tG 1)], Issues x.1 x.2 tS (tE x.2) :=
  issues_all (by decide +kernel)

/-- A draw at its bound, a NaN source, and a NaN result. -/
theorem test_premises_RoundingAndNans : 65535 < 65536 ∧ fmtF32 ∈ [fmtF64, fmtF32, fmtF16, fmtBf16] ∧
    fmtF32.isNanCode 0x7FC00001 = true ∧ fmtF32.isNanCode (fAdd fmtF32 false .rne 0x7F800000 0xFF800000) = true := by
  decide +kernel

theorem test_premises_FloatCompareAndConvert : (∀ x ∈
    [(fcmpSpec (tG 1), tG 1), (fclsSpec (tG1 1 0 5), tG1 1 0 5), (cvtSpec (tG1 1 0 14), tG1 1 0 14), (cvtSpec (tG1 2 8 13), tG1 2 8 13)],
    Issues x.1 x.2 tS (tE x.2)) ∧ (tG1 1 0 14).rnd ≠ 4 ∧ (tG1 2 8 13).rnd = 4 :=
  ⟨issues_all (by decide +kernel), by decide⟩

theorem test_premises_FloatApproximations : ∀ x ∈
    [(fpSpec1 (tG1 1) [13, 14, 15] false, tG1 1), (fpSpec1 (tG1 3) [13, 14, 15] false, tG1 3)], Issues x.1 x.2 tS (tE x.2) :=
  issues_all (by decide +kernel)

theorem test_premises_PackedAndDot : (∀ x ∈
    [(fpSpec2 (tG 1 1) typesPacked true 0, tG 1 1), (fpSpec2 (tG 0 1) typesPacked false 1, tG 0 1),
     (fpSpec3 (tG 0 1 5) typesPacked, tG 0 1 5), (dotSpec (tG 0 1 5) typesPacked, tG 0 1 5), (dotSpec (tG 2 1 5) [24], tG 2 1 5)],
    Issues x.1 x.2 tS (tE x.2)) ∧
    (∀ x ∈ [FVal.fin true 1 1 0, .fin false 1 3 5], ∃ n a d b, x = FVal.fin n a d b ∧ 0 < d) ∧
    (∃ b, FVal.nan b ∈ [FVal.nan true, .fin false 1 3 5]) ∧ 1 < [FVal.nan true, .fin false 1 3 5].length := by
  refine ⟨issues_all (by decide +kernel), ?_, ⟨true, List.mem_cons_self⟩, by decide⟩
  intro x hx
  simp only [List.mem_cons, List.not_mem_nil, or_false] at hx
  rcases hx with rfl | rfl
  · exact ⟨true, 1, 1, 0, rfl, by decide⟩
  · exact ⟨false, 1, 3, 5, rfl, by decide⟩

/-- Predicate words, with a range of all 32 predicates that reaches p95 among them. -/
def tP : FWord := { tF with fd := 7, fa := 3, fb := 0 }
def tRange : FWord := { tF with fd := 64, fa := 2, fc := 31 }
theorem test_premises_PredicatesAndVotes : ∀ x ∈
    [(predSpec2, tP), (predSpec1, tP), (psetSpec tRange, tRange), (pgetSpec { tRange with fd := 4, fa := 64 }, { tRange with fd := 4, fa := 64 }),
     (ballotSpec, { tP with fd := 4 }), (voteSpec, tP), (electSpec, { tP with fa := 0 }), (matchSpec (t1 10), t1 10)],
    Issues x.1 x.2 tS (tE x.2) := issues_all (by decide +kernel)

/-- With .idx of width 32 each lane reads the lane that v3 names. -/
theorem test_premises_CrossLaneResults :
    (∀ x ∈ [(reduxSpec (t1 10 4), t1 10 4), (scanSpec (t1 10 12), t1 10 12), (shflSpec (tV 10), tV 10),
       (bcastSpec { tV 10 with fb := 0x141 }, { tV 10 with fb := 0x141 })], Issues x.1 x.2 tS (tE x.2)) ∧
    tWave.anyEmpty ((shflSpec (tV 10)).fa.regs (tV 10).fa) 0xFFFFFFFF = false :=
  ⟨issues_all (by decide +kernel), by decide +kernel⟩

def tDual : DualWord :=
  { slot0 := { dop := 1, neg := false, grd := 0, vd := 4, vs := 5, rsv := 0 }
    slot1 := { dop := 0x12, neg := false, grd := 0, vd := 10, vs := 11, rsv := 0 }, rsv := 0 }
theorem test_premises_DualIssue : tS.envOf tDual.slot0.word = some (tE tDual.slot0.word) ∧
    tS.envOf tDual.slot1.word = some (tE tDual.slot1.word) ∧ tDual.trap tWave.nv = none ∧
    tWave.anyEmpty ([4, 5, 10, 11], []) 3 = false := ⟨rfl, rfl, by decide +kernel, by decide +kernel⟩

/-! ### Premises: control and boundaries -/

theorem test_premises_ControlFlow : (∀ x ∈
    [(braSpec, { tF with fc := 2 }), (callSpec, { tF with fd := 0x106, fc := 2 }), (targetSpec, { tF with fa := 0x104 }),
     ({}, tF), (bkptSpec, { tF with fc := 9 }), (maskSpec, { tF with fd := 0x191 }), (msetSpec, { tF with fd := 0x191, fa := 0x104 }),
     (mopSpec, { tF with fd := 0x191, fa := 0x104, fb := 0x105, fc := 3 })], Issues x.1 x.2 tS (tE x.2)) ∧
    (∀ l ∈ laneList (tE { tF with fa := 0x104 }).act, tS.value (tE { tF with fa := 0x104 }) 11 0x104 l % 8 = 0) ∧
    tS.value (tE { tF with fa := 0x145 }) 11 0x145 0 % 8 ≠ 0 ∧ tS.pendingReady tWave = false :=
  ⟨issues_all (by decide +kernel), by decide +kernel⟩

/-- A pending wave of the pane that could issue; breakpoints armed. -/
def tYield : State := { tS with waves := [(0, tWave), (1, { tWave with slot := 1, life := .pending })] }
def tArmed : State := { tS with ctxs := [(1, { tCtx with dbg := 1 })] }
theorem test_premises_ControlFlow_yield_bkpt :
    Issues {} tF tYield (tE tF tYield) ∧ tYield.pendingReady tWave = true ∧
    Issues bkptSpec tF tArmed (tE tF tArmed) ∧ bitOf (tArmed.ctxOf (tE tF tArmed)).dbg.toNat 0 = true :=
  ⟨issues_of (by decide +kernel), by decide +kernel, issues_of (by decide +kernel), by decide +kernel⟩

/-- Of m0 both lanes arrive at once; of a group of lane 0 alone, lane 1 is elsewhere, or waits there already. -/
def tWaitm : FWord := { tF with fa := 0x190 }
def tLone (ws : List LaneWait) : State :=
  { tS with waves := [(0, { tWave with waits := ws })], cur := some { wave := 0, pc := 0x800, lanes := 1 } }
theorem test_premises_WaitAtMask :
    (Issues waitmSpec tWaitm tS (tE tWaitm) ∧ (tE tWaitm).lanes &&& tWave.waiting = 0 ∧
      (tE tWaitm).act &&& (tWave.regs.mGet 0 &&& tWave.m0) = 3) ∧
    ∀ ws ∈ [[], [{ lanes := 2, pc := 0x900, size := 8, sd := 0, obj := WaitObj.mask 0 }]],
      Issues waitmSpec tWaitm (tLone ws) (tE tWaitm (tLone ws)) ∧
      (tE tWaitm (tLone ws)).lanes &&& ((tLone ws).waveAt 0).waiting = 0 ∧
      ((tLone ws).waveAt 0).waits.Pairwise (fun x y => x.lanes &&& y.lanes = 0) := by
  refine ⟨⟨issues_of (by decide +kernel), by decide +kernel⟩, ?_⟩
  intro ws hw
  simp only [List.mem_cons, List.not_mem_nil, or_false] at hw
  rcases hw with rfl | rfl
  · exact ⟨issues_of (by decide +kernel), by decide +kernel⟩
  · exact ⟨issues_of (by decide +kernel), by decide +kernel⟩

/-- A boundary with nothing pending opens, in normal and in trap mode. -/
theorem test_premises_RegionBoundary :
    Cells.find tS.waves (tE tF).key = some tWave ∧ tWave.held = [] ∧ Issues {} tF tS (tE tF) ∧
    (∃ s1, tS.Opens (tE tF) s1) ∧
    ∃ s1, ({ tS with waves := [(0, { tWave with trapMode := true })] } : State).Opens (tE tF) s1 :=
  ⟨by decide +kernel, rfl, issues_of (by decide +kernel), ⟨_, by decide +kernel, rfl⟩, ⟨_, by decide +kernel, rfl⟩⟩

/-- A held line whose byte 127 is stored, by a st.rel of scope 3 or by a plain store; and one of a frame that is gone. -/
def tHeld (sync : List (Nat × Nat × Nat)) : HeldLine :=
  { va := 0x480, pa := 0x480, remote := none, bytes := [(0, 1), (127, 2)], lane := 0, sync := sync }
def tHolds (h : HeldLine) : State := { tS with waves := [(0, { tWave with held := [h] })] }
theorem test_premises_CommitPerforms :
    (∀ y ∈ [[], [(127, 1, 3)]], (∃ t, (tHolds (tHeld y)).commit 0 = (t, none)) ∧
      (∃ p, Cells.find (tHolds (tHeld y)).place ((tHeld y).pa / 65536) = some p ∧ p.shut = false) ∧
      ((tHolds (tHeld y)).lineMetaAt (tHeld y).pa).poison = false) ∧
    (tHeld []).remote = none ∧ (tHeld []).pa % 128 = 0 ∧ Cells.risingFrom none (tHeld []).bytes = true ∧
    (∀ i, (Cells.find (tHeld []).bytes i).isSome → i < 128) ∧
    ((tHolds { tHeld [] with pa := 0x10480 }).lineTrap 0 { tHeld [] with pa := 0x10480 }).isSome := by
  refine ⟨?_, rfl, by decide, by decide, ?_, by decide +kernel⟩
  · intro y hy
    simp only [List.mem_cons, List.not_mem_nil, or_false] at hy
    rcases hy with rfl | rfl <;> exact ⟨⟨_, rfl⟩, ⟨_, rfl, rfl⟩, by decide⟩
  · intro i hi
    simp only [tHeld, Cells.find] at hi
    split at hi
    · omega
    · split at hi
      · omega
      · simp at hi
/-! ### Premises: memory access and consistency -/

/-- A second frame whose rows belong to no guest, a third that another package owns, and a line at 0x400 whose last
synchronising access was of scope 0 by another core. -/
def tM : State :=
  { tS with
    place := [(0, { ctx := 1, tier := 1, dframe := 0 }), (1, { ctx := 1, tier := 1, dframe := 1 }),
              (2, { ctx := 1, tier := 3, dframe := 2, shr := true })]
    alloc := [(2 ^ 30, 1), (3 * 2 ^ 30 + 2, 1)], lineMeta := [(2 ^ 46 / 128 + 8, { scope := 0, node := 0, agent := 9 })] }
def tRead (sync : Option Nat := none) : AccessKind := { need := { read := true }, len := 4, align := 4, sync := sync }

/-- Lanes 0 and 1: lane 1 misaligned by 1; behind the heap's end; in a row of no guest; on the line of another party; the last
word of the frame passes all checks. -/
theorem test_premises_AccessChecks :
    (8 % (tRead).align = 0 ∧ 9 % (tRead).align ≠ 0) ∧
    (tM.placeOf 0 0xFFFC 4 = .ok ⟨0xFFFC, none, 0⟩ ∧ tM.permitted 1 (tRead).need ⟨0xFFFC, none, 0⟩ = .ok ()) ∧
    tM.placeOf 0 0x100000 4 = .error (.xlate false) ∧ tM.placeOf 0 0x30000 4 = .error (.xlate true) ∧
    (tM.placeOf 0 0x10000 4 = .ok ⟨0x10000, none, 0⟩ ∧ tM.permitted 1 (tRead).need ⟨0x10000, none, 0⟩ = .error (.perm true)) ∧
    (tM.placeOf 0 0x400 4 = .ok ⟨0x400, none, 0⟩ ∧ tM.permitted 1 (tRead).need ⟨0x400, none, 0⟩ = .ok () ∧
      (tM.lineMetaAt 0x400).syncOk 0 (tM.node, (tM.ctxAt 1).agentOf 0) = false ∧
      (tM.lineMetaAt 0x480).syncOk 0 (tM.node, (tM.ctxAt 1).agentOf 0) = true) :=
  ⟨by decide, ⟨rfl, rfl⟩, rfl, rfl, ⟨rfl, rfl⟩, rfl, rfl, by decide +kernel, by decide +kernel⟩

/-- An ld and an st of a b32 at s4 + 0 (0x1000), and their spec. -/
def tLd : FWord := { tF with fd := 4, fa := 0x104, fb := 0x140, ty := 10 }
def tLdx : FWord := { tLd with fb := 3 }

/-- A load at an odd offset traps, one of a frame that another package owns waits. -/
def tMis : FWord := { tLd with fb := 0x141 }
def tAway : FWord := { tLd with fa := 0x106 }
def tMs : State := { tM with waves := [(0, { tWave with regs := { tWave.regs with s := [(4, 0x1000), (5, 0x200), (6, 0x20000)] } })] }
theorem test_premises_AccessChecks_stops :
    ∀ f ∈ [tMis, tAway], bitOf f.q 0 = false ∧ Issues (ldStSpec f tMs.onLatency false) f tMs (tE f tMs) ∧
      Issues (ldStSpec f tMs.onLatency true) f tMs (tE f tMs) ∧
      tMs.globalCheck 0 (loadLanes (tE f tMs)) (tMs.address (tE f tMs) f false) (tRead) ≠ .ok := by
  intro f hf
  simp only [List.mem_cons, List.not_mem_nil, or_false] at hf
  rcases hf with rfl | rfl
  · exact ⟨by decide, issues_of (by decide +kernel), issues_of (by decide +kernel), by decide +kernel⟩
  · exact ⟨by decide, issues_of (by decide +kernel), issues_of (by decide +kernel), by decide +kernel⟩

theorem test_premises_GlobalLoads :
    (Issues (ldStSpec tLd tS.onLatency false) tLd tS (tE tLd) ∧
      tS.globalCheck 0 [0, 1] (tS.address (tE tLd) tLd false) tRead = .ok) ∧
    (Issues (ldxStxSpec { tLdx with fb := 6 } tS.onLatency false) { tLdx with fb := 6 } tS (tE { tLdx with fb := 6 }) ∧
      tS.globalCheck 0 [0, 1] (tS.indexed (tE { tLdx with fb := 6 }) { tLdx with fb := 6 } false) tRead = .ok) ∧
    (tS.place! 0 0x1000 4).remote = none ∧ tS.shutterOf 0x1000 = none ∧ tS.WalkClear 0 0x1000 :=
  ⟨⟨issues_of (by decide +kernel), by decide +kernel⟩, ⟨issues_of (by decide +kernel), by decide +kernel⟩, by decide +kernel,
    rfl, walkClear rfl _ _⟩

/-- In normal mode; and in trap mode, on a plain place. -/
theorem test_premises_GlobalStores :
    let w : AccessKind := { need := { write := true }, len := 4, align := 4, replies := false }
    (Issues (ldStSpec tLd tS.onLatency true) tLd tS (tE tLd) ∧ tS.globalCheck 0 [0, 1] (tS.address (tE tLd) tLd false) w = .ok ∧
      tS.holdCheck 0 [0, 1] (tS.address (tE tLd) tLd false) 4 = .ok ∧ tWave.holds = true) ∧
    (Issues (ldxStxSpec { tLdx with fb := 6 } tS.onLatency true) { tLdx with fb := 6 } tS (tE { tLdx with fb := 6 })) ∧
    tS.Plain (tS.place! 0 0x1000 4) (2 ^ 46 + 0x1000) ∧ ({ tWave with trapMode := true } : Wave).holds = false ∧
    ∀ l ∈ [0, 1], tS.WalkClear 0 (tS.address (tE tLd) tLd false l) :=
  ⟨⟨issues_of (by decide +kernel), by decide +kernel⟩, issues_of (by decide +kernel), ⟨rfl, rfl, rfl, rfl⟩, rfl,
    fun _ _ => walkClear rfl _ _⟩

/-- Stash addresses: the address that the block's own bytes begin at. -/
def tStash : FWord := { tLd with fa := 0x105, fc := 1 }
theorem test_premises_StashAccess :
    (Issues (ldStSpec tStash tS.onLatency false) tStash tS (tE tStash) ∧ Issues (ldStSpec tStash tS.onLatency true) tStash tS (tE tStash)) ∧
    (let g : FWord := { tStash with fb := 6 }
     Issues (ldxStxSpec g tS.onLatency false) g tS (tE g) ∧ Issues (ldxStxSpec g tS.onLatency true) g tS (tE g)) ∧
    bitOf tStash.q 0 = true ∧ tS.stashCheck 0 [0, 1] (tS.address (tE tStash) tStash true) 4 4 true = .ok ∧
    (∃ sp, tS.stashSpot tWave (tS.address (tE tStash) tStash true 1) 4 = some sp ∧ (tS.tileAt sp.block (sp.off / 1024)).st = .unmapped) :=
  ⟨⟨issues_of (by decide +kernel), issues_of (by decide +kernel)⟩, ⟨issues_of (by decide +kernel), issues_of (by decide +kernel)⟩,
    by decide, by decide +kernel, ⟨_, rfl, by decide +kernel⟩⟩

/-- atom and atom.sc (at .pkg) of .add, and red, on an n32 at s4. -/
def tAtom : FWord := { tF with fd := 4, fa := 0x104, fb := 0x141, ty := 6 }
theorem test_premises_Atomics :
    (∀ x ∈ [(atomicSpec tAtom 0, tAtom), (atomicSpec { tAtom with fc := 0xC } 1, { tAtom with fc := 0xC }),
      (atomicSpec { tAtom with fd := 0 } 2, { tAtom with fd := 0 })], Issues x.1 x.2 tS (tE x.2)) ∧
    tS.Plain (tS.place! 0 0x1000 4) (2 ^ 46 + 0x1000) ∧ (tS.place! 0 0x1000 4).pa % 4 = 0 ∧
    tS.globalCheck 0 [0, 1] (fun l => tS.value (tE tAtom) 11 tAtom.fa l)
      { need := { read := true, write := true }, len := 4, align := 4, sync := atomicSync tAtom 0 } = .ok ∧
    (∃ s1, tS.Opens (tE tAtom) s1) ∧ tS.WalkClear 0 0x1000 :=
  ⟨issues_all (by decide +kernel), ⟨rfl, rfl, rfl, rfl⟩, by decide +kernel, by decide +kernel, ⟨_, by decide +kernel, rfl⟩,
    walkClear rfl _ _⟩

/-- cinv of a core's L0 and of the L1, cwb with .sync, and icinv, on the line at 0x1000. -/
def tCinv (q : Field) : FWord := { tF with fa := 0x104, fb := 0x140, fc := q }
theorem test_premises_CacheControl :
    (∀ x ∈ [(prefSpec, tCinv 0), (regionSpec (tCinv 0) 15, tCinv 0), (regionSpec (tCinv 1) 15, tCinv 1),
       (regionSpec (tCinv 0x10) 0x1E, tCinv 0x10), (regionSpec (tCinv 0) 14, tCinv 0)], Issues x.1 x.2 tS (tE x.2)) ∧
    (∀ q ∈ [0, 1, 0x10], tS.partsCheck (tE (tCinv q)) (tS.address (tE (tCinv q)) (tCinv q) false 0) (regionSize (tCinv q).q) = .ok ∧
      ∀ b, tS.regionBusy 0 (tS.partsHere 0 (tS.address (tE (tCinv q)) (tCinv q) false 0) (regionSize (tCinv q).q)) b = false) ∧
    ∀ va, tS.WalkClear 0 va :=
  ⟨issues_all (by decide +kernel), by decide +kernel, walkClear rfl _⟩

/-- The block's last tile. -/
def tTiles : FWord := { tF with fa := 0x106, fb := 0x104 }
def tTs : State := { tS with waves := [(0, { tWave with regs := { tWave.regs with s := [(4, 0x1000), (6, 0x1C00)] } })] }
theorem test_premises_StashMapping :
    (∀ x ∈ [(tilesSpec (tileOperand 11), tTiles), (tilesSpec .unused, { tTiles with fb := 0 })], Issues x.1 x.2 tTs (tE x.2 tTs)) ∧
    (∃ s1, tTs.Opens (tE tTiles tTs) s1 ∧ s1.remapCheck 5 tBlock 0x1C00 0x1000 1 = .ok ∧ (Cells.find s1.blocks 5).isSome) ∧
    tTs.issuerBlock = some (5, tBlock) :=
  ⟨issues_all (by decide +kernel), ⟨_, ⟨by decide +kernel, rfl⟩, by decide +kernel, by decide +kernel⟩, by decide +kernel⟩

/-- A sequentially consistent fence at .sys, and waitc at and above the threshold. -/
def tWaitc : FWord := { tF with fa := 0x141, fc := 3 }
theorem test_premises_Fences :
    Issues (fenceSpec { tF with fd := 3, fc := 0x13 }) { tF with fd := 3, fc := 0x13 } tS (tE { tF with fd := 3, fc := 0x13 }) ∧
    (∃ s1, tS.Opens (tE { tF with fd := 3, fc := 0x13 }) s1) ∧
    Issues (waitcSpec tWaitc) tWaitc tS (tE tWaitc) ∧ tWave.counter 3 ≤ tS.uvalue (tE tWaitc) 10 tWaitc.fa ∧
    ({ tWave with counters := [(3, 1)] } : Wave).counter 3 ≤ 1 ∧ 1 < ({ tWave with counters := [(3, 2)] } : Wave).counter 3 :=
  ⟨issues_of (by decide +kernel), ⟨_, by decide +kernel, rfl⟩, issues_of (by decide +kernel), by decide +kernel, by decide +kernel,
    by decide +kernel⟩

/-- Two ended operations of class 3; a result in flight; a pending wave; a stalled wave that holds a line. -/
def tOp (done : Bool) : EngineOp := { wave := 0, block := some 5, core := 0, cls := some 3, kind := .performed, done := done }
def tOps : State :=
  { tS with ops := [(7, tOp true), (8, tOp true), (9, tOp false)]
            fills := [(11, { wave := 0, vs := [(128, 1)], vKeys := [128] })]
            waves := [(0, { tWave with held := [tHeld []], blocked := some .shadowOrLine, reasons := [.shadowOrLine], counters := [(3, 3)] }),
                      (1, { tWave with slot := 1, life := .pending, age := 4 })] }
theorem test_premises_EngineOperations : Cells.find tOps.ops 8 = some (tOp true) ∧ (tOp true).cls = some 3 ∧
    Cells.risingFrom none tOps.ops = true ∧ (tOps.waveAt 0).life ≠ .ending ∧
    ∀ x ∈ tOps.blocks, ∃ y ∈ tOps.waves, y.2.block = some x.1 := by
  refine ⟨rfl, rfl, rfl, by decide +kernel, ?_⟩
  intro x hx
  exact ⟨_, List.mem_cons_self, by simp_all [tOps, tS, tWave]⟩

theorem test_premises_WaveEvents :
    (Cells.find tOps.fills 11).isSome ∧ tOps.activeCount 0 0 < 8 ∧
    ((tOps.waveAt 1).life = .pending ∧ (tOps.waveAt 1).blocked = none ∧ (tOps.waveAt 1).ready ≠ 0 ∧ (tOps.waveAt 1).pane = 0) ∧
    (.shadowOrLine ∈ (tOps.waveAt 0).reasons ∧ (tOps.waveAt 0).held ≠ [] ∧ (tOps.waveAt 0).life = .active) ∧
    tOps.cur.isSome := by
  and_intros <;> decide +kernel
/-! ### Premises: copies, the matrix unit and attention -/

/-- A boundary word issues, its boundary opens with nothing pending, and a condition holds of the state behind it. -/
def boundaryB (p : OpSpec) (f : FWord) (s : State) (ok : State → Env → State → Bool) : Bool :=
  issuesB p f s && decide (s.heldUnowned (tE f s).key = []) &&
  (match s.openBoundary (tE f s) with
   | (s1, none) => ok s (tE f s) s1
   | _ => false)

theorem boundary_of {p : OpSpec} {f : FWord} {s : State} {ok : State → Env → State → Bool} (h : boundaryB p f s ok = true) :
    Issues p f s (tE f s) ∧ ∃ s1, s.Opens (tE f s) s1 ∧ ok s (tE f s) s1 = true := by
  simp only [boundaryB, Bool.and_eq_true, decide_eq_true_eq] at h
  obtain ⟨⟨h1, h2⟩, h3⟩ := h
  refine ⟨issues_of h1, ?_⟩
  split at h3
  · exact ⟨_, ⟨h2, by assumption⟩, h3⟩
  · exact absurd h3 (by decide)

/-- A check that passes, as a Bool. -/
def okB (c : Check) : Bool := decide (c = .ok)

/-- Sources for engine words: s4 = 0x1000 (global), s6 = 0x400 (a stash address), s8 = s9 = 0; a map of 16-byte rows. -/
def tMap : TensorMap := { base := 0x1000, rank := 2, esz := 8, box0 := 2, box1 := 4, box2 := 1, ext0 := 64, ext1 := 64, stride1 := 0x100 }
def tJ : State :=
  { tS with
    waves := [(0, { tWave with regs := { tWave.regs with s := [(4, 0x1000), (6, 0x400)] } })]
    blocks := [(5, { tBlock with maps := [(1, tMap)] })]
    launches := [(6, { ctx := 1, queue := 0, root := 6, fields := { cluster := true } })] }

def tCpy (md : BitVec 2) : FWord := { tF with fd := if md = 0 then 1 else 0, fa := 0x106, fb := 0x104, md := md }
def tCpyt : FWord := { tF with fd := 1, fa := 0x106, fb := 0x108, fc := 1 }
def tQmc : FWord := { tF with fd := 1, fa := 0x106, fb := 0x104, fc := 1, ty := 1 }
theorem test_premises_CopyIssue :
    (∀ md ∈ [0, 1, 2], (Issues (cpySpec (tCpy md) tJ) (tCpy md) tJ (tE (tCpy md) tJ) ∧ ∃ s1, tJ.Opens (tE (tCpy md) tJ) s1 ∧
      (let j := cpyJob (tCpy md) tJ (tE (tCpy md) tJ) 5
       okB (s1.copyCheck (tE (tCpy md) tJ) 0 j j.need ((tCpy md).mod == 2) ((tCpy md).mod == 0) j.run)) = true)) ∧
    (Issues (cpytSpec tCpyt tJ) tCpyt tJ (tE tCpyt tJ) ∧ tJ.emptyCheck (cpytReads tCpyt tJ) (tE tCpyt tJ) = .ok ∧ ∃ s1, tJ.Opens (tE tCpyt tJ) s1 ∧
      (let j := cpytJob tCpyt tJ (tE tCpyt tJ) 5 { tBlock with maps := [(1, tMap)] }
       okB (s1.copyCheck (tE tCpyt tJ) 0 j j.need (tCpyt.mod == 2) (tCpyt.mod != 2) j.run)) = true) ∧
    (Issues (gathSpec { tCpyt with fb := 7 } tJ) { tCpyt with fb := 7 } tJ (tE { tCpyt with fb := 7 } tJ) ∧
      ∃ s1, tJ.Opens (tE { tCpyt with fb := 7 } tJ) s1 ∧
      (let j := gathJob { tCpyt with fb := 7 } tJ (tE { tCpyt with fb := 7 } tJ) 5 { tBlock with maps := [(1, tMap)] }
       okB (s1.copyCheck (tE { tCpyt with fb := 7 } tJ) 2 j j.need false true j.run)) = true) ∧
    (Issues (qmcSpec tQmc tJ) tQmc tJ (tE tQmc tJ) ∧ ∃ s1, tJ.Opens (tE tQmc tJ) s1 ∧
      okB (s1.castCheck (tE tQmc tJ) (qmcJob tQmc tJ (tE tQmc tJ) 5) (tQmc.mod == 2)) = true) ∧
    tJ.issuerBlock.isSome ∧ ∀ va, tJ.WalkClear 0 va := by
  refine ⟨fun md h => ?_, ?_, ?_, ?_, by decide +kernel, walkClear rfl _⟩
  · simp only [List.mem_cons, List.not_mem_nil, or_false] at h
    rcases h with rfl | rfl | rfl
    all_goals exact boundary_of (ok := fun s e s1 => okB (s1.copyCheck e 0 (cpyJob _ s e 5) _ _ _ _)) (by decide +kernel)
  · have := boundary_of (ok := fun s e s1 => okB (s1.copyCheck e 0 (cpytJob tCpyt s e 5 { tBlock with maps := [(1, tMap)] }) (cpytJob tCpyt s e 5 { tBlock with maps := [(1, tMap)] }).need (tCpyt.mod == 2) (tCpyt.mod != 2) (cpytJob tCpyt s e 5 { tBlock with maps := [(1, tMap)] }).run)) (p := cpytSpec tCpyt tJ) (f := tCpyt) (s := tJ) (by decide +kernel)
    exact ⟨this.1, by decide +kernel, this.2⟩
  · exact boundary_of (ok := fun s e s1 => okB (s1.copyCheck e 2 (gathJob _ s e 5 _) _ _ _ _)) (by decide +kernel)
  · exact boundary_of (ok := fun s e s1 => okB (s1.castCheck e (qmcJob _ s e 5) _)) (by decide +kernel)

/-- The last data tile of a copy in, with its handle FILLING; a copy out; and a copy to the B-store. -/
def tJob (k : CopyKind) : CopyJob :=
  { kind := k, block := 5, handle := 1, offset := 0x400, run := 2, total := 2, next := 1, ga := 0x1000, pages := [(0, 0)], targets := [5] }
def tCopyOp (k : CopyKind) : EngineOp := { wave := 0, block := some 5, core := 0, cls := some 0, kind := .copy (tJob k) }
def tFilling : Block := { tBlock with handles := [(1, { st := .filling, run := some (1, 2) })] }
def tCopies (k : CopyKind) : State := { tS with blocks := [(5, tFilling)], ops := [(7, tCopyOp k)] }
theorem test_premises_CopyTiles : ∀ k ∈ [CopyKind.tileIn, CopyKind.bstore, CopyKind.tileOut],
    let s := tCopies k
    Cells.find s.ops 7 = some (tCopyOp k) ∧ s.notFirst 7 (tCopyOp k) = false ∧ s.copyConflict 7 (tCopyOp k) (tJob k) = false ∧ (tJob k).next < (tJob k).run ∧
    (tJob k).next + 1 = (tJob k).total ∧ (tFilling.handleAt 1).st = .filling ∧
    s.missingFrame ((tJob k).tilePieces 1) = none ∧ (∀ pa, s.shutterOf pa = none) ∧
    (∃ u, let runs := (tJob k).standing ((tJob k).tilePieces 1) (s.stashRaw 5 0x800 1024)
      s.pagedStore (runs.map (fun x => (x.1, x.2.length))) (runs.flatMap (·.2)) = .ok u) := by
  intro k hk
  simp only [List.mem_cons, List.not_mem_nil, or_false] at hk
  have hsh : ∀ pa, (tCopies k).shutterOf pa = none := noShutter (by rfl)
  rcases hk with rfl | rfl | rfl
  all_goals
    and_intros
    all_goals first | exact hsh | (refine ok_of ?_; decide +kernel) | rfl | decide +kernel
/-- A handle in each state, a tag query at the block's last tile, and a tmset with its descriptor. -/
def tHandle : FWord := { tF with fa := 1 }
def tWithHandle (x : HandleState) : State := { tS with blocks := [(5, { tBlock with handles := [(1, { st := x })] })] }
def tTagq : FWord := { tF with fd := 0x10A, fa := 0x106, fc := 3 }
def tTmset : FWord := { tF with fa := 0x104, fb := 0x108, ext := some 0xC01E1 }
theorem test_premises_HandlesAndTags :
    (∀ x ∈ [HandleState.free, .filling, .full, .draining], Issues (handleSpec tHandle (tWithHandle x)) tHandle (tWithHandle x) (tE tHandle (tWithHandle x)) ∧
      (∃ s1, (tWithHandle x).Opens (tE tHandle (tWithHandle x)) s1 ∧
        (match Cells.find s1.blocks 5 with
         | some b => decide ((b.handleAt 1).st = x)
         | none => false) = true)) ∧
    (Issues (tagqSpec tTagq) tTagq tTs (tE tTagq tTs) ∧ ∃ s1, tTs.Opens (tE tTagq tTs) s1 ∧
      (decide (tTs.uvalue (tE tTagq tTs) 10 tTagq.fa % 1024 = 0) && !tBlock.badRun (tTs.uvalue (tE tTagq tTs) 10 tTagq.fa) 1) = true) ∧
    (Issues (tmsetSpec tTmset) tTmset tS (tE tTmset) ∧ ∃ s1, tS.Opens (tE tTmset) s1 ∧
      (let m := tmsetMap tTmset tS (tE tTmset)
       decide (m.base.toNat % 16 = 0 ∧ m.stride1.toNat % 16 = 0 ∧ m.stride2.toNat % 16 = 0)) = true) := by
  refine ⟨fun x h => ?_, ?_, ?_⟩
  · simp only [List.mem_cons, List.not_mem_nil, or_false] at h
    rcases h with rfl | rfl | rfl | rfl
    all_goals exact boundary_of (ok := fun _ _ s1 => match Cells.find s1.blocks 5 with
      | some b => decide ((b.handleAt 1).st = _)
      | none => false) (by decide +kernel)
  · exact boundary_of (ok := fun s e _ => decide (s.uvalue e 10 _ % 1024 = 0) && !tBlock.badRun (s.uvalue e 10 _) 1) (by decide +kernel)
  · exact boundary_of (ok := fun s e _ => decide (_ ∧ _ ∧ _)) (by decide +kernel)

/-- Banks 30 and 31 granted to the block of a cluster launch. -/
def tX : State := { tJ with banks := [(30, .granted 5), (31, .granted 5)] }

/-- An mxa of 8 rows, 8 columns and K = 16 with A in the stash, in registers; a drain of 8 rows to the stash, to registers. -/
def tMxa : FWord := { tF with fd := 31, fa := 0x106, fb := 0x140, ext := some 0x1100F0E001000000 }
def tMxaRegs : FWord := { tMxa with fa := 8, ext := some 0x1100F0E000000000 }
def tDrain : FWord := { tF with fa := 31, fb := 0x106, ext := some 0x0000038080000000 }
def tDrainRegs : FWord := { tF with fd := 8, fa := 31, fc := 1, ext := some 0x0000038000000000 }
def tElem : FWord := { tF with fd := 4, fa := 31, fb := 0x160, md := 0 }
def tBanks : FWord := { tF with fa := 30, fc := 1 }
def tAccal : FWord := { tF with fd := 0x10C, fa := 0x141 }

/-- A matrix word stands in issue, legal, with its own step 6 passed, and a condition holds behind its boundary. -/
def unitB (p : FWord → OpSpec) (empty : FWord → Env → State → Check) (f : FWord) (s : State)
    (ok : Env → State → Bool) : Bool :=
  (s.envOf f).isSome && ((p f).trap (s.encEnv (tE f s).key) f).isNone && decide ((tE f s).act ≠ 0) &&
  okB (empty f (tE f s) s) && decide (s.heldUnowned (tE f s).key = []) &&
  (match s.openBoundary (tE f s) with
   | (s1, none) => ok (tE f s) s1
   | _ => false)
def plainB (p : FWord → OpSpec) (f : FWord) (e : Env) (s : State) : Check := s.emptyCheck (p f) e

theorem test_premises_MatrixIssue :
    unitB (fun f => mxaSpec f false) (fun f => mxaEmpty f false) tMxa tX
      (fun e u => okB (u.mxaCheck e 5 { tBlock with maps := [(1, tMap)] } (tX.mxaJob e tMxa false))) = true ∧
    unitB (fun f => mxaSpec f false) (fun f => mxaEmpty f false) tMxaRegs tX
      (fun e u => okB (u.mxaCheck e 5 { tBlock with maps := [(1, tMap)] } (tX.mxaJob e tMxaRegs false))) = true ∧
    unitB (fun _ => accalSpec) (plainB (fun _ => accalSpec)) tAccal tX (fun _ u => okB (u.unitFull [0])) = true ∧
    unitB banksSpec (plainB banksSpec) tBanks tX
      (fun e u => okB (u.counterFull e 1) && okB (u.unitFull [0]) && okB (u.banksCheck 0 5 30 2)) = true ∧
    unitB (fun f => elemSpec f (.dest (Gen.vOnly 10 1 1))) (plainB (fun f => elemSpec f (.dest (Gen.vOnly 10 1 1)))) tElem tX
      (fun e u => okB (columnCheck (tX.uvalue e 10 tElem.fb) 1 false) && okB (u.unitFull [0]) && okB (u.banksCheck 0 5 31 1)) = true ∧
    unitB (fun f => elemSpec f (.data (Gen.vOnly 10 1 1))) (plainB (fun f => elemSpec f (.data (Gen.vOnly 10 1 1)))) tElem tX
      (fun e u => okB (u.counterFull e 1) && okB (u.banksCheck 0 5 31 1)) = true ∧
    unitB accdrSpec accdrEmpty tDrain tX (fun e u => okB (u.accdrCheck e 5 { tBlock with maps := [(1, tMap)] } (tX.accdrJob e tDrain))) = true ∧
    unitB accdrSpec accdrEmpty tDrainRegs tX
      (fun e u => okB (u.accdrCheck e 5 { tBlock with maps := [(1, tMap)] } (tX.accdrJob e tDrainRegs))) = true ∧
    tX.issuerBlock = some (5, { tBlock with maps := [(1, tMap)] }) ∧ Cells.find tX.banks (bankKey 0 29) ≠ some (.granted 5) ∧ 30 + 2 ≤ 32 := by
  decide +kernel

/-- The pair at the leader of a cluster launch, with the bank granted on both cores. -/
def tPair : State :=
  { tX with blocks := [(5, tBlock), (8, { tBlock with core := 1, index := 1 })], banks := [(31, .granted 5), (63, .granted 8)] }
def tMxap : FWord := { tMxa with ext := some 0x1100F80001000000 }
theorem test_premises_MatrixIssue_pair :
    unitB (fun f => mxaSpec f true) (fun f => mxaEmpty f true) tMxap tPair
      (fun e u => okB (u.mxaCheck e 5 tBlock (tPair.mxaJob e tMxap true))) = true ∧ tPair.issuerBlock = some (5, tBlock) := by
  decide +kernel

/-- Operations at the unit, first of all: an mxa with A in registers, a zero, a write, a read, a grant of all that is free. -/
def tUnit (k : OpKind) : State :=
  { tX with ops := [(7, { wave := 0, block := some 5, core := 0, cls := none, kind := k })]
            fills := [(11, { wave := 0, ready := false, sKeys := [12] })] }
def tUnitOp (k : OpKind) : EngineOp := { wave := 0, block := some 5, core := 0, cls := none, kind := k }
theorem test_premises_MatrixResults :
    (∀ k ∈ [OpKind.matrix (tX.mxaJob (tE tMxaRegs tX) tMxaRegs false), .zero 30 2, .writeBank [(65535, 1)], .readBank 11 [(0, 65535)],
        .grant 11 30], Cells.find (tUnit k).ops 7 = some (tUnitOp k) ∧ (tUnit k).unitBehind 7 (tUnitOp k) = false ∧
      Cells.risingFrom none (tUnit k).ops = true) ∧
    (∃ s1 j1, (tUnit .performed).readTiles 7 5 0 (tX.mxaJob (tE tMxaRegs tX) tMxaRegs false)
      ((spanTiles (tX.mxaJob (tE tMxaRegs tX) tMxaRegs false).spans).map (·.1)) = (s1, j1, true)) ∧
    (tUnit .performed).unownedPage (tX.mxaJob (tE tMxaRegs tX) tMxaRegs false).pages = none ∧
    (tUnit (.grant 11 30)).freeRun 0 30 = some 0 ∧ (Cells.find (tUnit (.grant 11 30)).fills 11).isSome ∧
    tX.accParity = [] ∧ tX.accPoison = [] ∧ (tX.mxaJob (tE tMxaRegs tX) tMxaRegs false).masked 7 = false ∧
    ({ tX.mxaJob (tE tMxaRegs tX) tMxaRegs false with rmask := true, got := [(0, [], 0)], a := .stash 0 } : MatrixJob).masked 7 = true := by
  refine ⟨?_, ⟨_, _, rfl⟩, by decide +kernel, by decide +kernel, by decide +kernel, rfl, rfl, by decide +kernel, by decide +kernel⟩
  intro k hk
  simp only [List.mem_cons, List.not_mem_nil, or_false] at hk
  rcases hk with rfl | rfl | rfl | rfl | rfl
  all_goals exact ⟨rfl, by decide +kernel, rfl⟩

def tAmask : FWord := { tF with fd := 31, fa := 0x104, fc := 0x1FC }
def tSmx : FWord := { tF with fd := 30, fa := 0x106, ext := some 0xFFC0000010000000 }
def tCred : FWord := { tF with fd := 0x10C, fa := 30, fb := 0x106, ext := some 0x011F000002002000 }
theorem test_premises_AttentionOperations :
    boundaryB (amaskSpec tAmask) tAmask tX (fun s e u => okB (u.unitFull [0]) && okB (u.banksCheck 0 5 (s.amaskJob e tAmask).bank 1)) = true ∧
    boundaryB (smxSpec tSmx) tSmx tX (fun s e u => okB (u.smxCheck e 5 tBlock (s.smxJob e tSmx))) = true ∧
    boundaryB (credSpec tCred tX.issuerPosition) tCred tX
      (fun s e u => okB (u.credCheck e 5 tBlock (s.bankOf e tCred.fa) (s.uvalue e 10 tCred.fb) (tCred.ext.getD 0).toNat)) = true := by
  decide +kernel

/-- A mask of 64 columns first at the unit; a complete round of one position, and one whose position 1 has no block. -/
def tMask : MaskJob := { bank := 31, k0 := 0, q0 := 0, kind := 0, step := true, arg := 0, n := 64 }
def tRound (d : DWord) : Round :=
  { group := tX.groupOfBlock 5, ro := 0x400, tag := 0, desc := d, parts := [(0, 11, 5, List.replicate 8 [0xFF800000, 0, 0])] }
def tRounds (d : DWord) : State := { tUnit .performed with rounds := [(0, tRound d)] }
theorem test_premises_AttentionOperations_events :
    ((tUnit (.mask tMask)).unitBehind 7 (tUnitOp (.mask tMask)) = false ∧ tMask.n ≤ 64) ∧
    ((∀ k ∈ List.range 8, bitOf (credMask 0x011F000002002000) k = true → ∃ p ∈ (tRound 0x011F000002002000).parts, p.1 = k) ∧
      ((tRounds 0x011F000002002000).roundBlock (tRound 0x011F000002002000) 0 0).isSome ∧
      (∃ u, (tRounds 0x011F000002002000).engineStash 5 0 [] (stashPieces (tRound 0x011F000002002000).results.1) = .ok u)) ∧
    (bitOf (credMask 0x031F000002002000) 1 = true ∧ (∀ p ∈ (tRound 0x031F000002002000).parts, p.1 ≠ 1) ∧
      (tRounds 0x031F000002002000).roundDead (tRound 0x031F000002002000) 0 = true) :=
  ⟨by decide +kernel, ⟨by decide +kernel, by decide +kernel, ⟨_, rfl⟩⟩, by decide +kernel⟩
/-! ### Premises: groups, kernels, pools, shutters, placement -/

/-- Words of the boundary instructions issue in `tS`, whose boundary opens. -/
theorem test_opens : ∃ s1, tS.Opens (tE tF) s1 := ⟨_, by decide +kernel, rfl⟩

def tRef : FWord := { tF with fd := 0x10A, fa := 0x141 }
def tRef2 : FWord := { tRef with fb := 0x142 }
theorem test_premises_CohortsAndBarriers : ∀ x ∈
    [({ refSpec with fa := .source (Gen.sIntLit 10 1) }, tRef), (refSpec, { tRef with fa := 0x104 }),
     ({ refSpec with qBits := 3, reserved := false }, { tRef with fa := 0x104, fc := 2 }),
     ({ barrierSpec with fb := .source (Gen.sIntLit 10 1), qBits := 1 }, { tRef2 with fa := 0x104 }),
     ({ barrierSpec with qBits := 1 }, { tRef with fa := 0x104, fc := 1 }), (barrierSpec, { tRef with fa := 0x104 })],
    Issues x.1 x.2 tS (tE x.2) := issues_all (by decide +kernel)

/-- Cohort 0 with the wave's lanes, barrier 0 over it at its last phase, an arrival of lane 1. -/
def tTables (arrived : Cells Word) : State :=
  { tJ with cohorts := [(0, { gen := 1, live := true, ctx := 1, key := 7, group := tJ.groupOf tWave })]
            barriers := [(0, { gen := 1, live := true, ctx := 1, cohort := 0, key := 7, min := 2, phase := 65535, arrived := arrived })]
            waves := [(0, { tWave with cohorts := [(0, 3)] })] }
theorem test_premises_CohortsAndBarriers_tables :
    (tTables []).cohortOf tWave 7 = some 0 ∧ (tTables []).cohortOf tWave 8 = none ∧ (tTables []).freeCohortEntry 0 = some 1 ∧
    (tTables []).cohortRef ((tTables []).waveAt 0) 0 = none ∧ (tTables []).cohortRef ((tTables []).waveAt 0) 65792 = some 0 ∧
    (let b := Cells.get {} (tTables [(0, 3)]).barriers 0
     b.live = true ∧ b.arrivedCount = (tTables [(0, 3)]).memberCount 0 b.cohort ∧ b.min ≤ b.arrivedCount ∧ 0 < b.arrivedCount) ∧
    (Cells.get {} (tTables [(0, 2)]).barriers 0).arrivedCount ≠ (tTables [(0, 2)]).memberCount 0 0 ∧
    (tTables []).barrierRefOf ((tTables []).waveAt 0) 256 = some 0 ∧ (tTables []).barrierRefOf ((tTables []).waveAt 0) 512 = none ∧
    1#32 &&& ((tTables []).waveAt 0).memberMask 0 ≠ 0 ∧ 4#32 &&& ((tTables []).waveAt 0).memberMask 0 = 0 := by decide +kernel

/-- Superstep groups: an OFF one whose map names this node, an ARMED one with an arrival and a limit, and a context that
waits on a signal from outside. -/
def tGroup : StepGroup := { nodes := 0x8000, cfg := 1 }
def tArmedGroup : StepGroup := { tGroup with cfg := 0x100001, st := .armed, arrived := 1 }
def tSteps : State :=
  { tS with ctxs := [(1, { tCtx with groups := [(15, tGroup)] })], mem := [(2 ^ 46 + 0x8000, 1)]
            waves := [(0, { tWave with waits := [{ lanes := 3, pc := 0, size := 8, sd := 0, obj := .signal 0 0 none 0 0 4 true }] })] }
theorem test_premises_Supersteps :
    Issues { barrierSpec with fa := .source (Gen.sIntLit 10 1) } tRef tS (tE tRef) ∧
    (tGroup.st = .off ∧ tSteps.backed (bitsOf tGroup.nodes.toNat 51 9 * 512) = true ∧ tSteps.guarded 1 ⟨0x8000, none, 0⟩ = false ∧
      bitOf (ofBytes (tSteps.peek 0x8000 512)) tSteps.node = true ∧ 0 < bitsOf tGroup.cfg.toNat 17 0) ∧
    (∀ pa, tSteps.shutterOf pa = none) ∧
    (tArmedGroup.st = .armed ∧ tArmedGroup.tmo ≠ 0 ∧ 0 < tArmedGroup.arrived) ∧
    (tCtx.wdCfg.toNat % 2 ^ 32 ≠ 0 ∧ tSteps.workPending 1 = false ∧ (tSteps.waveAt 0).waitClass = .external) ∧
    (tSteps.node = 0 ∧ tSteps.keptDones.length < 64 ∧ (∀ c ∈ tSteps.ctxs, ∀ g ∈ c.2.groups, g.2.st ≠ .armed)) :=
  ⟨issues_of (by decide +kernel), by decide +kernel, noShutter (by rfl), by decide +kernel, by decide +kernel, by decide +kernel⟩

/-- Group 15 ARMED for two arrivals a step, of which one has come, this package alone in its map, its DONE for the step sent at
the last arrival but one; and a wave that has lost a write. -/
def tStepping (arrived lost : Nat) : State :=
  { tS with ctxs := [(1, { tCtx with groups := [(15, { tGroup with cfg := 2, st := .armed, arrived := arrived, stepNo := 2 ^ 32 - 1
                                                                   members := [0], sentDone := 2 ^ 32 - 1 })] })]
            waves := [(0, { tWave with lostSteps := lost })] }
theorem test_premises_Supersteps_arrivals : ∀ s ∈ [tStepping 0 0, tStepping 1 0, tStepping 0 1],
    ((s.ctxAt 1).groupAt 15).st = .armed ∧ (s.waveAt 0).keptAt 0x800 false = none ∧ s.acknowledged 0 = true ∧ (s.waveAt 0).waits = [] ∧
    ((s.ctxAt 1).groupAt 15).local' = 2 ∧ ((s.ctxAt 1).groupAt 15).sentDone = ((s.ctxAt 1).groupAt 15).stepNo ∧
    ∀ m ∈ ((s.ctxAt 1).groupAt 15).members, m = s.node := by decide +kernel

def tKernel : FWord := { tF with fd := 0x10A, fa := 0x104 }
/-- A kernel-table entry of the table's last place that is RUNNING, and one that is DONE. -/
def tKernels (st : Nat) : Context := { tCtx with kernels := [(1023, { st := st, gen := 1, launch := 6 })] }
theorem test_premises_Kernels :
    (∀ x ∈ [(kernelSpec 0, tKernel), (kernelSpec 1, { tKernel with fc := 1 })], Issues x.1 x.2 tS (tE x.2)) ∧
    (match ({ tS with mem := [(2 ^ 46 + 0x1008, 1)], ctxs := [(1, { tCtx with rect := 0x01100 })] } : State).readRecord 1 0 0x1000 with
     | .ok (some r, _) => r.nblock == 1
     | _ => false) = true ∧
    (∃ s1, tS.Opens (tE tKernel) s1) ∧ tS.childOf 0 = none ∧ tCtx.freeKernel = some 0 ∧
    tCtx.kernelsInUse < bitsOf tCtx.krnLimit.toNat 10 0 ∧
    (tKernels 2).kernelOf (65536 + 1023) = some (1023, { st := 2, gen := 1, launch := 6 }) ∧
    (tKernels 3).kernelOf (65536 + 1023) = some (1023, { st := 3, gen := 1, launch := 6 }) ∧ (tKernels 3).kernelOf 1023 = none :=
  ⟨issues_all (by decide +kernel), by decide +kernel, ⟨_, by decide +kernel, rfl⟩, by decide +kernel⟩

/-- A context on cluster 0 of die 0 with one launch of one block and places reported; the block on the die's list; and a
block whose prologue has not run. -/
def tGrant : Context := { tCtx with rect := 0x01100, places0 := 64 }
def tLaunch : Launch := { ctx := 1, queue := 63, root := 6, started := true, fields := { stash := 1, accbanks := 1 } }
def tDisp : State :=
  { tS with ctxs := [(1, tGrant)], waves := [], launches := [(6, tLaunch)], blocks := [(5, { tBlock with slots := [127] })]
            dieLists := [(0, [(6, 0)])] }
theorem test_premises_Dispatchers :
    (match tDisp.choose with
     | some (s1, c, q) => c = 1 ∧ q = 63 ∧ s1.currentLaunch 1 63 = some (6, tLaunch)
     | none => False) ∧
    (tDisp.headOf 0 = some (6, tLaunch, [0]) ∧ (tDisp.targetOf 0 tLaunch).isSome ∧
      (tDisp.fit ((tDisp.targetOf 0 tLaunch).getD 0) tLaunch.fields).isSome) ∧
    (tDisp.prologueBehind 5 0 = false ∧ ∃ s1, (tDisp.modBlock 5 (fun x => { x with begun := true, since := tDisp.cycle })).runBindings 5
      { tBlock with slots := [127] } tLaunch.fields.bindings = (s1, .ok)) ∧
    (bitsOf 0x100400 10 0 = 1024 ∧ bitsOf 0x100400 20 16 = 16) :=
  ⟨⟨rfl, rfl, rfl⟩, by decide +kernel, ⟨by decide +kernel, ⟨_, rfl⟩⟩, by decide⟩

/-- Pool 15 LIVE, with 2 blocks of 4 KiB, 1 token of 16 bytes and 1 head, block 0 LOOSE and block 1 HELD; a sequence of one
token that has been published. -/
def tSeq : Sequence := { live := true, len := 1, pub := 1, table := [(0, 1)] }
def tPool : Pool := { vbase := 0x4000, cfg := 0x0000100001000001, live := true, blocks := [(0, 0), (1, 1)], seqs := [(1, tSeq)] }
def tPools : State :=
  { tS with ctxs := [(1, { tCtx with pools := [(15, tPool)] })]
            waves := [(0, { tWave with regs := { tWave.regs with s := [(4, 0xF00100001), (6, 0x4000), (8, 1)] } })] }
def tPw : FWord := { tF with fd := 0x10A, fa := 0x14F }
def tHw : FWord := { tF with fd := 0x10A, fa := 0x104 }
theorem test_premises_BlockPools :
    (∀ x ∈ [(poolSpec { fa := poolNumber }, tPw), (poolSpec { fa := poolNumber, fb := poolHandle }, { tPw with fb := 0x106 }),
      (poolSpec { fa := poolHandle, fb := .unused, qBits := 1 }, tHw), (poolSpec { fa := poolHandle, fb := poolNumber, qBits := 1 }, { tHw with fb := 0x141, fc := 1 }),
      (poolSpec { fa := poolHandle, fb := poolNumber }, { tHw with fb := 0x141 }),
      (poolSpec { fa := poolHandle, fb := poolNumber, qBits := 0x1C }, { tHw with fb := 0x141, fc := 0xC }),
      (poolSpec { fa := poolHandle, fb := poolNumber, qBits := 3 }, { tHw with fb := 0x140, fc := 3 }),
      (poolSpec { fa := poolNumber, qBits := 3 }, { tPw with fc := 2 }), (kvldSpec, { tF with fd := 4, fa := 0x104, fb := 3 })],
      Issues x.1 x.2 tPools (tE x.2 tPools)) ∧
    okB (tPools.counterFull (tE tPw tPools) 4) = true ∧ tPools.uvalue (tE tPw tPools) 10 tPw.fa = 15 ∧
    (tPools.ctxOf (tE tHw tPools)).seqOf (tPools.uvalue (tE tHw tPools) 11 tHw.fa) = some (15, 1, tPool, tSeq) ∧
    tPool.lowestBlock = none ∧ ({ tPool with blocks := [(0, 0)] } : Pool).lowestBlock = some 1 ∧ tPool.trape = false ∧
    ({ tPool with layout := 0x100000000 } : Pool).trape = true ∧ tPool.blockOf 0x4000 = some 0 ∧ tPool.blockOf 0x4001 = none ∧
    tPool.lowestSeq 0 tPool.nseq = some 0 ∧ (tSeq.start ≤ 1 ∧ 1 ≤ tSeq.pub) ∧ ({ tPool with blocks := [(1, 1)] } : Pool).appendPlan tSeq 1 = .ok (1, 1, none) ∧
    tPool.heads = 1 :=
  ⟨issues_all (by decide +kernel), by and_intros <;> first | decide +kernel | rfl⟩

/-- The pool engine's turn of a balloc whose wave has none ahead; a TRAPE pool that is exhausted; the descriptor line of the sequence
written last by another core at scope 0, which a kvpub at .pkg may not follow, and as reset, which it may. -/
def tPoolOp : EngineOp := { wave := 0, block := some 5, core := 0, cls := some 4, kind := .pool { ctx := 1, act := .balloc 15, fill := 11 } }
def tPoolTurn (rest : Cells Nat) (layout : DWord) (m : Cells LineMeta) : State :=
  { tPools with ops := [(7, tPoolOp)], fills := [(11, { wave := 0, ready := false, sKeys := [10] })], lineMeta := m
                ctxs := [(1, { tCtx with pools := [(15, { tPool with blocks := rest, layout := layout })] })] }
theorem test_premises_BlockPools_engine :
    (let s := tPoolTurn [(1, 1)] 0 []
     Cells.find s.ops 7 = some tPoolOp ∧ s.poolAhead 0 7 = false ∧ s.poolAhead 0 100 = true ∧ s.poolStalls (1, 0) (.balloc 15) = [] ∧
      (∃ t x kind, s.poolAct (1, 0) (.balloc 15) = (t, x, kind) ∧ (Cells.find t.fills 11).isSome ∧ (Cells.find t.ops 7).isSome)) ∧
    (let s := tPoolTurn tPool.blocks 0x100000000 []
     ((s.ctxOf (tE tPw s)).poolAt 15).trape = true ∧ ((s.ctxOf (tE tPw s)).poolAt 15).lowestBlock = none) ∧
    (let s := tPoolTurn [] 0 [((2 ^ 46 + tPool.descriptor 1) / 128, { scope := 0, node := 0, agent := 9 })]
     (s.lineMetaAt (tPool.descriptor 1)).syncOk 3 (s.party (1, 0)) = false ∧
      ((tPoolTurn [] 0 []).lineMetaAt (tPool.descriptor 1)).syncOk 3 (s.party (1, 0)) = true) :=
  ⟨⟨rfl, by decide +kernel, by decide +kernel, rfl, ⟨_, _, _, rfl, by decide +kernel, by decide +kernel⟩⟩, by decide +kernel,
    by decide +kernel⟩

/-- Shutter 15 with two levels, a shadow in each, and one that awaits restore. -/
def tShadow (level : Nat) : Shadow := { line := 8, level := level, bytes := List.replicate 128 1, poison := false, tag := 1 }
def tShutter : Shutter :=
  { st := .opened, gen := 1, frames := [0], levels := [[1], [2]], shadows := [tShadow 0, tShadow 2], scrub := [9], retired := [3] }
def tShut : State :=
  { tS with ctxs := [(1, { tCtx with shutters := [(15, tShutter)], epochs := [(1, 1), (2, 1), (3, 2)] })]
            place := [(0, { ctx := 1, tier := 1, dframe := 0, shut := true })]
            waves := [(0, { tWave with regs := { tWave.regs with s := [(4, 0), (6, 0x0101010F)] } })] }
def tLevel : FWord := { tF with fd := 0x10A, fa := 0x106, fb := 0x142 }
theorem test_epoch : ∃ ep, tS.freeEpoch 1 = some ep := by
  have h : ((List.range 255).map (· + 1)).filter (fun e => (Cells.find (tS.ctxAt 1).epochs e).isNone) = (List.range 255).map (· + 1) := by
    decide +kernel
  unfold State.freeEpoch
  simp only [h]
  rw [if_neg (by decide +kernel), List.length_map, List.length_range]
  exact ⟨_, List.getElem?_eq_getElem (by rw [List.length_map, List.length_range]; exact Nat.mod_lt _ (by decide))⟩
theorem test_premises_Shutters :
    (∀ x ∈ [(snapSpec true, { tLevel with fb := 0 }), (levelSpec tLevel, tLevel), 
      (sqrySpec { tLevel with fc := 1 }, { tLevel with fc := 1 })], Issues x.1 x.2 tShut (tE x.2 tShut)) ∧
    (Issues (snapSpec false) { tF with fd := 0x10A, fa := 0x108, fb := 0x141 } tS (tE { tF with fd := 0x10A, fa := 0x108, fb := 0x141 }) ∧
      okB (tS.snapCheck 0 0 1) = true) ∧
    (let s : State := { tS with ctxs := [(1, { tCtx with cfg := 0x100 })] }
     Issues sgrowSpec { tF with fd := 0x10A, fa := 0x141, fb := 0x141 } s (tE { tF with fd := 0x10A, fa := 0x141, fb := 0x141 } s)) ∧
    okB (tShut.counterFull (tE tLevel tShut) 5) = true ∧
    (tShut.shutterRefOf (tE tLevel tShut) false 0x0101010F).isSome ∧
    (∃ ep, tS.freeEpoch 1 = some ep) ∧ (tShut.shutterOf (8 * 128)).isSome ∧ tShut.device (8 * 128) = some (2 ^ 46 + 1024) ∧
    tShut.pendingShadow (9 * 128) = none ∧ 2 ≤ tShutter.levels.length ∧
    ((tS.tryWrite 0x480 [1]).isSome = true) ∧ okB (tShut.levelBusy (tE tLevel tShut) false 0x0101010F) = true ∧
    (∀ g ∈ tS.rangeFrames 0 0 1, ∃ p, Cells.find tS.place g = some p ∧ p.ctx = 1 ∧ p.shut = false) :=
  ⟨issues_all (by decide +kernel), ⟨issues_of (by decide +kernel), by decide +kernel⟩, issues_of (by decide +kernel), by decide +kernel,
    by decide +kernel, test_epoch, by decide +kernel, by decide +kernel, by decide +kernel, by decide, by decide +kernel, by decide +kernel,
    fun g hg => ⟨{ ctx := 1, tier := 1, dframe := 0 }, by
      have h : tS.rangeFrames 0 0 1 = [0] := by decide +kernel
      simp [h] at hg
      subst hg
      exact ⟨rfl, rfl, rfl⟩⟩⟩

/-- An update on its way to agents 7 and 9, and to 7 alone; a cache that holds a line has to take one, and reset's caches none; a write
that waits for shadows and now has them. -/
def tUpdating (l : List Nat) : State :=
  { tShut with ctxs := [(1, { tCtx with shutters := [(15, { tShutter with pending := some { op := 7, fill := 11, act := .accept 2 }, updating := l })] })]
               fills := [(11, { wave := 0, ready := false, sKeys := [10] })] }
theorem test_premises_Shutters_updates :
    (7 ∈ [7, 9] ∧ [7, 9].erase 7 ≠ [] ∧ ((tUpdating [7, 9]).ctxAt 1).shutterAt 15 ≠ {}) ∧ (((tUpdating [7]).ctxAt 1).shutterAt 15).updating = [7] ∧
    (((tUpdating [7]).ctxAt 1).shutterAt 15).pending.isSome ∧ 8 ∉ (((tUpdating [7]).ctxAt 1).shutterAt 15).updating ∧
    ({ tShut with cache := [(cacheKey 3 8, { st := .shared })] } : State).lineAgents ≠ [] ∧ tShut.lineAgents = [] ∧
    (tShut.pendingShadow (8 * 128)).isSome := by and_intros <;> decide +kernel

/-- A counter read by the frame's own context and by one of another guest. -/
theorem test_premises_PlacementInstructions_counters : tS.mayCount 1 { ctx := 1, tier := 1, dframe := 0 } = true ∧
    (let s : State := { tS with ctxs := [(1, { tCtx with cfg := 0x12 }), (3, { tCtx with cfg := 0x15 })] }
     s.mayCount 1 { ctx := 3, tier := 1, dframe := 0 } = false) ∧ tS.lineAsked 8 = false := by decide +kernel

def tPin : FWord := { tF with fd := 0x10A, fa := 0x104, fb := 0x141, fc := 1 }
theorem test_premises_PlacementInstructions :
    (∀ x ∈ [(placeSpec 3 true, tPin), (placeSpec 0 true, { tPin with fc := 0 }), (placeSpec 3 false, { tPin with fb := 0 })],
      Issues x.1 x.2 tS (tE x.2)) ∧
    okB (tS.rangeCheck 0 0 0x1000 1) = true ∧ (∀ q ∈ tS.rangePlaces 0 0x1000 1, q.remote = none ∧ tS.unowned q.pa = false) ∧
    (let p : Placement := { ctx := 1, tier := 1, dframe := 0 }
     Cells.find tS.place 0 = some p ∧ p.mig = .idle ∧ p.handover = false ∧ ∀ x ∈ tS.ops, ∀ k, x.2.kind = .placement k → k.frames.head? ≠ some (some 0)) :=
  ⟨issues_all (by decide +kernel), by decide +kernel, by decide +kernel, by decide, by decide, by decide, fun x hx => by simp [tS, State.reset] at hx⟩

/-- Frames in each state that an event of the Lintel acts on: 0 idle, 1 at the last line of its copy, 2 draining, 3
committed, 4 aborted, 5 shared and owned with a recall, 6 shared and being handed over. -/
def tPlaces : State :=
  { tS with
    place := [(0, { ctx := 1, tier := 2, dframe := 0 }), (1, { ctx := 1, tier := 2, dframe := 1, mig := .copying, otherTier := 1, otherFrame := 1, copied := 511 }),
      (2, { ctx := 1, tier := 2, dframe := 2, mig := .draining, otherTier := 1, otherFrame := 2 }),
      (3, { ctx := 1, tier := 1, dframe := 3, mig := .committed, otherTier := 2, otherFrame := 3 }),
      (4, { ctx := 1, tier := 1, dframe := 4, mig := .aborted, otherTier := 2, otherFrame := 4 }),
      (5, { ctx := 1, tier := 3, dframe := 5, shr := true, owned := true, recalls := [9] }),
      (6, { ctx := 1, tier := 3, dframe := 6, shr := true, handover := true })]
    ctxs := [(1, { tCtx with quota := 0x1FFFFFF, slices0 := 1 })], timeNs := 10 ^ 9, migCtl := 2, plat := { tS.plat with memCapL := 1024 } }
theorem test_premises_PlacementEvents :
    (∀ x ∈ tPlaces.ops, ∀ k, x.2.kind = .placement k → k.frames.head? ≠ some (some 0)) ∧
    (Cells.find tPlaces.place 7 = none ∧ tPlaces.overQuota 1 2 = false ∧ (tPlaces.freeFrame 1 2).isSome ∧ tPlaces.place.length < 2 ^ 31) ∧
    (tPlaces.locked 1 = false ∧ (tPlaces.freeFrame 1 1).isSome ∧ tPlaces.overQuota 1 1 = false ∧ tPlaces.pairFull 2 1 = false) ∧
    tPlaces.mayRelease 5 { ctx := 1, tier := 3, dframe := 5, shr := true, owned := true, recalls := [9] } = true ∧
    (∀ x ∈ tPlaces.dir, x.1 / 512 ≠ 5) ∧ tPlaces.lineAsked (1 * 512 + 511) = false ∧
    (Cells.get {} ({ tPlaces with dir := [(1023, { owner := some 3 })] } : State).dir (1 * 512 + 511)).owner = some 3 ∧ (tPlaces.sharedEntry 5).isSome ∧ tPlaces.sharedEntry 8 = none ∧
    bitOf tPlaces.migCtl.toNat 0 = false ∧ bitOf tPlaces.migCtl.toNat 1 = true :=
  ⟨fun x hx => by simp [tPlaces, tS, State.reset] at hx, by decide +kernel, by decide +kernel, by decide +kernel,
    fun x hx => by simp [tPlaces, tS, State.reset] at hx, by decide +kernel, by decide +kernel, by decide +kernel, by decide +kernel, by decide, by decide⟩
/-! ### Premises: coherence, system, traps, shootdowns, signals, links -/

/-- A line that agent 1 owns, one that 1 and 2 share, and an open transaction of each kind. -/
def tDir (d : DirEntry) : State := { tS with dir := [(8, d)] }
def tCache (c : CacheLine) : State := { tS with cache := [(2 ^ 46 + 8, c)] }
theorem test_premises_CoherenceMessages :
    tS.homeQ = [] ∧ (tS.dirAt 8).busy = none ∧ (tS.dirAt 8).owner = none ∧ tS.dirFull 8 (.gets 1) = false ∧
    tS.dirFull 8 (.getx 1) = false ∧ ((tS.dirAt 8).holders.filter (fun x => x != 1)) = [] ∧
    ((tDir { owner := some 1 }).dirAt 8).owner = some 1 ∧
    (((tDir { sharers := [1, 2] }).dirAt 8).holders.filter (fun x => x != 1)) ≠ [] ∧ 1 ∈ ((tDir { sharers := [1, 2] }).dirAt 8).sharers ∧
    ((tDir { sharers := [1] }).dirAt 8).holders.filter (fun x => x != 1) = [] ∧ (tDir { sharers := [1] }).dirFull 8 (.upg 1) = false ∧
    tS.pendingShadow 1024 = none ∧ ((tS.setDir 8 {}).tryWrite 1024 [1]).isSome = true ∧
    ((tDir { sharers := [1], busy := some { req := .getx 2, acks := [1] } }).dirAt 8).busy = some { req := .getx 2, acks := [1] } ∧
    ((tDir { owner := some 1, busy := some { req := .gets 2, recalling := some 1 } }).dirAt 8).owner = some 1 := by decide +kernel
theorem test_premises_CoherenceMessages_caches : ∀ st ∈ [CacheState.isWait, .shared, .smWait, .imWait, .modified, .evict],
    ∃ c, (tCache { st := st }).cacheAt 1 8 = some c ∧ c.st = st ∧ c.wantStore = false ∧ (∀ x ∈ (tCache c).cacheWait, x.1 ≠ 1) ∧
      Cells.get 0 (tCache c).writebacks (cacheKey 1 8) = 0 ∧
      Cells.get 0 { tCache c with writebacks := [(cacheKey 1 8, 1)] }.writebacks (cacheKey 1 8) = 1 := by
  intro st h
  exact ⟨{ st := st }, rfl, rfl, rfl, fun x hx => by simp [tCache, tS, State.reset] at hx, rfl, by simp [Cells.get, Cells.find]⟩

/-- sysr of register 0, of an unassigned number (s4 = 0x1000 is one in normal mode), and of 0x1008 lane by lane in trap mode. -/
def tSysr : FWord := { tF with fd := 0x10A, fa := 0x140, ty := 11 }
def tTrap : Wave := { tWave with trapMode := true, regs := { tWave.regs with s := [(4, 0x1008)] }, trapRec := [0x0700000000] }
def tTrapped : State := { tS with waves := [(0, tTrap)] }
def tSystem : State := { tS with ctxs := [(0, { st := .bound }), (1, { tCtx with cfg := 0x100 })] }
def tRd (f : FWord) : OpSpec := sysSpec f (.dest { ty := f.tcode })
def tWr (f : FWord) : OpSpec := sysSpec f (.data { ty := f.tcode, fconst := false, special := false })
theorem test_premises_SystemRegisters :
    (∀ f ∈ [tSysr, { tSysr with fa := 0x104 }], Issues (tRd f) f tS (tE f) ∧ Issues (tWr f) f tS (tE f)) ∧
    (tS.sysAccess (tE tSysr) false).isSome ∧ tS.sysAccess (tE { tSysr with fa := 0x104 }) false = none ∧
    (Issues (tWr { tSysr with fd := 0x104, fa := 0x142 }) { tSysr with fd := 0x104, fa := 0x142 } tSystem (tE { tSysr with fd := 0x104, fa := 0x142 } tSystem) ∧
      (tSystem.sysAccess (tE { tSysr with fd := 0x104, fa := 0x142 } tSystem) true).isSome) ∧
    (Issues (tWr { tSysr with fd := 4, fa := 0x104 }) { tSysr with fd := 4, fa := 0x104 } tTrapped (tE { tSysr with fd := 4, fa := 0x104 } tTrapped) ∧
      (tTrapped.sysAccess (tE { tSysr with fd := 4, fa := 0x104 } tTrapped) true).map (fun x => x.2.1) = some 0x1008) ∧
    tSystem.heldUnowned 0 = [] ∧ (∃ s1, tSystem.commit 0 = (s1, none)) ∧ (tSystem.ctxAt 0).st = .bound ∧
    tSystem.sysPutWaits 1 2 5 = .ok := by
  refine ⟨fun f h => ?_, by decide +kernel, by decide +kernel, ⟨issues_of (by decide +kernel), by decide +kernel⟩,
    ⟨issues_of (by decide +kernel), by decide +kernel⟩, by decide +kernel, ⟨_, rfl⟩, rfl, by decide +kernel⟩
  simp only [List.mem_cons, List.not_mem_nil, or_false] at h
  rcases h with rfl | rfl
  · exact ⟨issues_of (by decide +kernel), issues_of (by decide +kernel)⟩
  · exact ⟨issues_of (by decide +kernel), issues_of (by decide +kernel)⟩

/-- halt of context 0 and of 255 by context 1, of the context itself, and of a number above. -/
def tHalt (fa : Field) : FWord := { tF with fa := fa }
theorem test_premises_TrapsAndHalts :
    (Issues trapSpec { tF with fc := 255 } tS (tE { tF with fc := 255 }) ∧ (tS.waveAt 0).trapMode = false) ∧
    (Issues trapSpec tF tTrapped (tE tF tTrapped) ∧ Issues tretSpec tF tTrapped (tE tF tTrapped) ∧ (tTrapped.waveAt 0).trapMode = true) ∧
    Issues tretSpec tF tS (tE tF) ∧
    (Issues haltSpec (tHalt 0x140) tSystem (tE (tHalt 0x140) tSystem) ∧ tSystem.uvalue (tE (tHalt 0x140) tSystem) 10 0x140 = 0) ∧
    (Issues haltSpec (tHalt 0x141) tSystem (tE (tHalt 0x141) tSystem) ∧ tSystem.uvalue (tE (tHalt 0x141) tSystem) 10 0x141 = 1) ∧
    (Issues haltSpec (tHalt 0x104) tSystem (tE (tHalt 0x104) tSystem) ∧ 255 < tSystem.uvalue (tE (tHalt 0x104) tSystem) 10 0x104) ∧
    ((tSystem.ctxAt 1).st = .running ∧ Cells.risingFrom none tSystem.waves = true ∧ ∀ x ∈ tSystem.waves, x.2.pendingTrap = none) ∧
    (laneList tTrap.m0).find? (fun x => decide ((Cells.get 0 { tTrap with resumes := [(1, 0x804)] }.resumes x).toNat % 8 ≠ 0)) = some 1 :=
  ⟨⟨issues_of (by decide +kernel), rfl⟩, ⟨issues_of (by decide +kernel), issues_of (by decide +kernel), rfl⟩, issues_of (by decide +kernel),
    ⟨issues_of (by decide +kernel), by decide +kernel⟩, ⟨issues_of (by decide +kernel), by decide +kernel⟩,
    ⟨issues_of (by decide +kernel), by decide +kernel⟩, ⟨rfl, rfl, by decide +kernel⟩, by decide +kernel⟩

/-- A precise trap (MISALIGN) with a handler and without one, and a restartable fault (XLATE). -/
def tHandler : State := { tS with ctxs := [(1, { tCtx with trapPc := 0x2000 })] }
theorem test_premises_TakingTraps :
    ({ code := 4 } : Trap).precise = true ∧ ({ code := 0x22 } : Trap).precise = false ∧ (tHandler.ctxAt 1).trapPc.toNat / 8 ≠ 0 ∧
    (tS.ctxAt 1).trapPc.toNat / 8 = 0 ∧ tWave.held = [] ∧ tWave.trapMode = false ∧ tWave.latency = false ∧
    ({ tWave with block := none } : Wave).block = none ∧ (255 < 256 ∧ 31 < 32 ∧ 15 < 16 ∧ tWave.slot < 128) := by decide +kernel

/-- A wave that waits on a mask beside its group; a HALTED one that holds a record and the trap of it; an unmapped access of
context 0, which is fatal, and one of context 1, which is not. -/
def tWaiting : Wave := { tWave with waits := [{ lanes := 2, pc := 0x900, size := 8, sd := 0, obj := .mask 0 }] }
def tHalted : State :=
  { tHandler with waves := [(0, { tWave with life := .halted, halting := true, pendingRec := some [0x0400000000]
                                             pendingTrap := some { lanes := 3, resume := 0x800, pc := 0x800, word := 0, ext := none, code := 4 } })] }
theorem test_premises_TakingTraps_waits :
    ((tWaiting.waits.find? (fun z => z.lanes.getLsbD 1)).isSome ∧ ∀ y ∈ tWaiting.waits, y.lanes.getLsbD 0 = false) ∧
    ((tHalted.waveAt 0).life = .halted ∧ (tHalted.waveAt 0).halting = true ∧ (tHalted.waveAt 0).pendingRec.isSome ∧
      (tHalted.waveAt 0).pendingTrap.isSome ∧ (tHalted.waveAt 0).held = [] ∧ (tHalted.ctxAt 1).st ≠ .preempting) ∧
    tHandler.bootFault 0 (tHandler.recordOf 0 0x800 0 none { code := 0x22 }) = false ∧
    (let s : State := { tS with waves := [(0, { tWave with ctx := 0, block := none })] }
     s.bootFault 0 (s.recordOf 0 0x800 0 none { code := 0x22 }) = true) := by
  and_intros <;> decide +kernel

/-- A tlbinv.page in system mode; a shootdown of this package with one child left, whose node is fenced, and one of a peer. -/
def tShoot (wave : Option Nat) : Shootdown :=
  { serial := 3, wave := wave, parent := 0, tag := 1, kind := .context, va := 0, member := 0, members := [0, 9], waiting := [1], count := 0, fenced := [] }
def tShoots : State :=
  { tSystem with shootdowns := [tShoot (some 0)], nodes := [(9, { st := .fenced })], waves := [(0, { tWave with hold := some (.tlbinv 3 7 3) })] }
theorem test_premises_Shootdowns :
    Issues (tlbinvSpec { tF with fd := 7, fa := 0x104, fb := 0x141 }) { tF with fd := 7, fa := 0x104, fb := 0x141 } tSystem
      (tE { tF with fd := 7, fa := 0x104, fb := 0x141 } tSystem) ∧
    (tWave.life ≠ .suspended ∧ tWave.pendingRec = none ∧ (∀ x ∈ tSystem.waves, x.2.held = [] ∧ x.2.signalWait = none) ∧ tSystem.shootPeers 1 = [] ∧
      tSystem.shootdowns = [] ∧ tSystem.ops = [] ∧ tSystem.rounds = [] ∧ tSystem.fabricWaits = [] ∧ tSystem.nodes = [] ∧
      ∀ b ∈ tSystem.blocks, b.2.tiles = []) ∧
    ({ tS with nodes := [(9, { st := .active })] } : State).hears 9 = true ∧ shootChildren 9 1 = [] ∧ shootChildren 10 1 = [9] ∧
    (tShoots.shootdowns.find? (fun x => x.serial == 3) = some (tShoot (some 0)) ∧ 1 ∈ (tShoot (some 0)).waiting ∧
      (∀ m ∈ (tShoot (some 0)).waiting, m = 1) ∧ tShoots.flightOver (tShoot (some 0)) = true ∧
      ({ tShoots with ops := [(7, tOp false)] } : State).flightOver { tShoot (some 0) with ops := [7] } = false) ∧
    (tShoots.waveAt 0).hold = some (.tlbinv 3 7 3) ∧ ((tShoot none).members.getD 1 0) ≠ tShoots.node ∧ (tShoots.nodeAt 9).st = .fenced ∧
    (tSystem.nodeAt 9).st ≠ .fenced :=
  ⟨issues_of (by decide +kernel), by and_intros <;> decide +kernel⟩

/-- Signals on the word at s4; a qpush of queue 63 that DEV lets the device write; a linkq. -/
def tSig : FWord := { tF with fa := 0x104, fb := 0x141, fc := 0xC, ty := 7 }
def tWaitsig : FWord := { tSig with fd := 0x10A }
def tQueue : Queue := { cfg := 4, st := .active, ring := 0x8000, cpl := 0x9000 }
def tQ : State := { tS with ctxs := [(1, { tCtx with queues := [(63, tQueue)] })] }
theorem test_premises_SignalsAndQueuePush :
    (∀ x ∈ [(sigSpec tSig, tSig), (waitsigSpec tWaitsig, tWaitsig), (qpushSpec, { tF with fd := 0x10A, fa := 0x141, fb := 0x110 }),
      (linkqSpec { tF with fd := 0x10A, fa := 0x141, fc := 2 }, { tF with fd := 0x10A, fa := 0x141, fc := 2 })], Issues x.1 x.2 tS (tE x.2)) ∧
    tS.globalCheck 0 [0, 1] (fun _ => 0x1000)
      { need := { read := true, write := true }, len := 8, align := 8, sync := some 3, replies := false } = .ok ∧
    tS.globalCheck 0 [0] (fun _ => 0x1000) { need := { read := true }, len := 8, align := 8, sync := some 3 } = .ok ∧
    tS.Plain (tS.place! 0 0x1000 8) (2 ^ 46 + 0x1000) ∧ (tS.place! 0 0x1000 8).pa % 8 = 0 ∧ tS.unowned 0x1000 = false ∧
    tS.peekNat 0x1000 8 = 0 ∧ tS.uvalue (tE tWaitsig) 7 0x140 = 0 ∧ tS.uvalue (tE tWaitsig) 7 0x141 ≠ 0 ∧
    (63 < 64 ∧ tQueue.st = .active ∧ bitOf tQueue.cfg.toNat 2 = true ∧ (tQueue.issued + 2 ^ 32 - tQueue.seen) % 2 ^ 32 < queueSize tQueue.ring) ∧
    (tQ.unpublished = [] ∧ tQ.shadowWaits = [] ∧ (∀ a, tQ.shutterOf a = none) ∧ tS.WalkClear 0 0x1000 ∧ ∀ x ∈ tWave.waits, x.wholeWave = false) :=
  by
  refine ⟨issues_all (by decide +kernel), ?_⟩
  and_intros
  all_goals first | exact ⟨rfl, rfl, rfl, rfl⟩ | exact noShutter rfl | exact walkClear rfl _ _ | decide +kernel

/-- A put of 16 bytes within the package; its operation at its one line, and behind it; a line for node 9. -/
def tPut : FWord := { tF with fd := 0x150, fa := 0x104, fb := 0x106 }
def tPutJob (next : Nat) (far : Cells (Nat × Nat)) : PutJob :=
  { isGet := false, ctx := 1, dst := 0x1000, src := 0x400, bytes := 16, pages := [(0, 0)], remotePages := far, next := next }
def tPuts : State := { tJ with nodes := [(9, { st := .active })] }
theorem test_premises_PutsAndGets :
    (∀ isGet, boundaryB putSpec tPut tJ (fun s e u =>
      okB (u.putCheck e isGet (s.uvalue e 11 tPut.fa) (s.uvalue e 11 tPut.fb) (s.uvalue e 10 tPut.fd))) = true) ∧
    ((tPutJob 0 []).lines[0]?.isSome ∧ (tPutJob 1 []).lines[1]? = none ∧ tPuts.putDeferred (tPutJob 1 []) = false) ∧
    (tPuts.missingFrame (pagedPieces [(0, 0)] 0x400 16) = none ∧ tPuts.missingFrame (pagedPieces [(0, 0)] 0x1000 16) = none ∧ (∀ pa, tPuts.shutterOf pa = none) ∧
      Cells.find (tPutJob 0 [(0, (9, 0))]).remotePages (0x1000 / 65536) = some (9, 0) ∧ (tPuts.nodeAt 9).st = .active ∧
      tPuts.sessionRefused 1 9 = false) ∧ (tPuts.waveAt 0).counter 3 < 63 :=
  ⟨by decide +kernel, by decide +kernel, ⟨by decide +kernel, by decide +kernel, noShutter (by rfl), by decide +kernel, by decide +kernel, by decide +kernel⟩,
    by decide +kernel⟩

/-- A coll on group 0 of nodes 0 and 9, before and behind the elements of both. -/
def tColl : FWord := { tF with fd := 0x10C, fa := 0x104, fb := 0x104, ext := some 0 }
def tCollJob : CollJob := { fill := 11, ctx := 1, group := 0, round := 0, recv := 0x1000, send := 0x1000, desc := 0, pages := [(0, 0)] }
def tMsg (node : Nat) : CollMsg := { node := node, tag := 5, round := 0, desc := 0, send := [1] }
def tRoundState (st : StepState) (msgs : List CollMsg) (job : CollJob := tCollJob) : State :=
  { tPuts with
    ctxs := [(1, { tCtx with groups := [(0, { st := st, cfg := 0x0000000500100002, members := [0, 9], msgs := msgs })] })]
    ops := [(7, { wave := 0, block := some 5, core := 0, cls := some 3, kind := .coll job })]
    fills := [(11, { wave := 0, ready := false, sKeys := [12] })] }
def tCollOp (job : CollJob := tCollJob) : EngineOp := { wave := 0, block := some 5, core := 0, cls := some 3, kind := .coll job }
theorem test_premises_Collectives :
    boundaryB (collSpec tColl) tColl (tRoundState .armed []) (fun s e u => okB (u.collCheck e (tColl.ext.getD 0).toNat
      ((s.ctxAt (s.waveAt e.key).ctx).groupAt (collGroup (tColl.ext.getD 0).toNat)).members.length (s.uvalue e 11 tColl.fa)
      (s.uvalue e 11 tColl.fb))) = true ∧
    (let y := ((tRoundState .armed [tMsg 0, tMsg 9]).ctxAt 1).groupAt 0
     y.st = .armed ∧ y.roundMsgs 0 = [tMsg 0, tMsg 9] ∧ y.members.filterMap (fun n => (y.roundMsgs 0).find? (fun x => x.node == n)) = [tMsg 0, tMsg 9] ∧
       (tMsg 0).desc = tCollJob.desc) ∧
    (let s := tRoundState .armed []
     ((s.ctxAt 1).groupAt 0).roundMsgs 0 = [] ∧ s.collFree 7 (tCollOp) tCollJob = true ∧ (s.nodeAt 9).st = .active ∧
      s.missingFrame (pagedPieces [(0, 0)] 0x1000 8) = none) ∧ (∀ pa, (tRoundState .armed []).shutterOf pa = none) := by
  refine ⟨by decide +kernel, by decide +kernel, by decide +kernel, noShutter (by rfl)⟩

/-- A collective behind a posted write that is not acknowledged, one whose time has run out, and messages of groups in each
place: of no ARMED group, of group 0 of the context, and of a SAVED context, whose time counts on. -/
def tCollSaved : State :=
  { tRoundState .armed [] with
    ctxs := [(1, { (tRoundState .armed []).ctxAt 1 with st := .saved, image := some { ops := (tRoundState .armed []).ops } })], ops := [] }
theorem test_premises_Collectives_messages :
    (let job : CollJob := { tCollJob with writes := [(9, 4)] }
     let s : State := { tRoundState .armed [] job with nodes := [(9, { st := .active, unacked := [{ wave := 0, seq := 4, ctx := 1, lanes := 1, kind := 1, addr := 0, fop := .void }] })] }
     s.collFree 7 (tCollOp job) job = false) ∧ { tCollJob with timedOut := true }.timedOut = true ∧
    (let s := tRoundState .armed []
     s.hears 9 = true ∧ s.taggedGroups 6 = [] ∧ s.taggedGroups 5 = [(1, 0)] ∧ s.roundOver 1 0 0 = false ∧
      oldestColl s.ops 1 0 = some (7, tCollOp, tCollJob) ∧ ((s.ctxAt 1).groupAt 0).tmo = 1) ∧
    ((tCollSaved.ctxAt 1).st = .saved ∧ tCollSaved.taggedGroups 5 = [(1, 0)] ∧ oldestColl tCollSaved.ops 1 0 = none ∧
      ((tCollSaved.ctxAt 1).image.map (fun im => oldestColl im.ops 1 0)) = some (some (7, tCollOp, tCollJob))) ∧ tGroup.tmo = 0 := by
  and_intros <;> decide +kernel
/-! ### Premises: links, queues, contexts, the package, encoding and stepping -/

/-- Port 63 in a state; node link 9 in a state, with a route; a session slot with node 9 and context 1. -/
def tPort (st : PortState) (failed : Nat := 0) : State := { tS with ports := [(63, { st := st, failed := failed })] }
def tPosted : Posted := { seq := 1, ctx := 1, wave := 0, kind := 1, addr := 0x1000, fop := .store [(0, 1)], lanes := 1 }
def tLink (st : NodeState) (routes : List Nat := []) : State :=
  { tS with nodes := [(9, { st := st, sent := 1, unacked := [tPosted] })], ports := [(0, { st := .active })], fabric := [(9, routes)] }
def tSession (st : SessionState) (reg : DWord := 0x00010009) : State :=
  { tS with sessions := [(2, { st := st, reg := reg })], nodes := [(9, { st := .active })] }
theorem test_premises_LinksAndSessions :
    (∀ st ∈ [PortState.down, .training, .active, .retraining], ((tPort st).portAt 63).st = st ∧ ∀ x ∈ (tPort st).fabric, 63 ∉ x.2) ∧
    ((tPort .down).portAt 64).st = .down ∧ ((tPort .active 8).portAt 63).failed = 8 ∧ ((tPort .active 7).portAt 63).failed ≠ 8 ∧
    (Cells.find (tSession .locked).sessions 2).map (·.st) = some .locked ∧ bitsOf ((tSession .locked).sessionAt 2).reg.toNat 11 0 = 9 ∧
    (∀ st ∈ [NodeState.down, .training, .active, .retraining, .fenced], ((tLink st).nodeAt 9).st = st) ∧ 9 ≠ tS.node ∧
    0 < (tLink .training [0]).routesIn 9 .active ∧ ¬ 0 < (tLink .training).routesIn 9 .active ∧
    (tLink .active).sessions = [] ∧ (tLink .active).fabricWaits = [] ∧
    (∀ st ∈ [SessionState.idle, .keying, .opened, .locked, .error], ((tSession st).sessionAt 2).st = st) ∧
    ((tSession .idle 0x00020009).ctxAt 2).st = .empty ∧ ((tSession .idle).ctxAt 1).st ≠ .empty ∧
    bitsOf ((tSession .idle 0x00010000).sessionAt 2).reg.toNat 11 0 = tS.node ∧
    ((tSession .idle 0x00010008).nodeAt 8).st = .down ∧ ((tSession .idle).nodeAt 9).st = .active ∧
    ({ tS with ports := [(63, { st := .active, replay := [.replayRequest 1, .replayRequest 2] })] } : State).portAt 63 ≠ (tPort .active).portAt 63 ∧
    (({ tS with nodes := [(9, { st := .training, waiting := [.fabricReply 9 1 .refused] })] } : State).nodeAt 9).waiting ≠ [] := by
  and_intros <;> decide +kernel

/-- A reply to a load of s12 from node 9; a fence that waits for a write; requests from node 9 to frame 0, which admits it. -/
def tWait9 : FabricWait :=
  { node := 9, addr := 0x1000, wave := 0, fill := 11, lane := 0, pc := 0x800, vs := [], ss := some 12, ty := 11, scope := 7, getLine := none }
def tReplies : State :=
  { tLink .active with fabricWaits := [(7, tWait9)], fills := [(11, { wave := 0, ready := false, sKeys := [12] })] }
def tFencing : State := { tLink .active with waves := [(0, { tWave with hold := some (.fence 3 7 0x800 8 0) })] }
def tPeers : State :=
  { tS with
    nodes := [(9, { st := .active, received := 4 })], mem := [(2 ^ 46 + 0x201, 2)]
    ctxs := [(1, { tCtx with shdNodes := 0x200, shdCfg := 0xFFFFFFFFFFFFFFFF })] }
def tReq (seq : Nat) (op : FabricOp) : FabricReq := { node := 9, seq := seq, tag := (tPeers.ctxAt 1).tag, addr := 0x1000, op := op, sync := none }
theorem test_premises_FabricMessages :
    ((tLink .active).hears 9 = true ∧ (1 + 2 ^ 32 - ((tLink .active).nodeAt 9).acked) % 2 ^ 32 = 1 ∧
      1 ≤ ((tLink .active).nodeAt 9).unacked.length ∧ ∀ p ∈ ((tLink .active).nodeAt 9).unacked.take 1, p.op = none ∧ p.seq ∉ ([] : List Nat)) ∧
    (Cells.find tReplies.fabricWaits 7 = some tWait9 ∧ tReplies.hears 9 = true ∧ (Cells.find tReplies.fills 11).isSome ∧
      tWait9.ss.isSome ∧ tWait9.heldBytes = [] ∧ ∀ z ∈ Cells.del tReplies.fabricWaits 7, z.2.fill ≠ 11) ∧
    (∃ w, Cells.find tFencing.waves 0 = some w ∧ w.hold = some (.fence 3 7 0x800 8 0) ∧ w.trapMode = false ∧
      bitOf (tFencing.ctxAt w.ctx).lnkCfg.toNat 0 = false ∧
      ∃ x ∈ tFencing.nodes, ∃ p ∈ x.2.unacked, p.waitedBy 0 3 = true ∧ p.op = none) ∧
    (tPeers.fabricIn = [] ∧ tPeers.admits 9 (tReq 5 .void).tag 0x1000 = true ∧ tPeers.admits 9 0 0x1000 = false ∧
      tPeers.unowned 0x1000 = false ∧ (tPeers.peerStore 0x1000 (byteRuns [(0, 7)])).toOption.isSome = true ∧
      (tPeers.nodeAt 9).received = 4 ∧ Cells.find tPeers.place 0 ≠ none ∧ Cells.find tPeers.place 1 = none) ∧
    ∀ pa, tPeers.shutterOf pa = none :=
  ⟨by decide +kernel, by decide +kernel,
    ⟨_, rfl, rfl, rfl, by decide +kernel, _, List.mem_singleton.mpr rfl, _, List.mem_singleton.mpr rfl, by decide +kernel, rfl⟩,
    by decide +kernel, noShutter (by rfl)⟩

/-- Queue 3 of context 1 with its ring at 0x8000, its first entry of a kind, and accepted entries. -/
def tRing (w0 : List Byte) (es : List QEntry) (y : Queue := {}) : State :=
  { tS with
    mem := (w0.zipIdx.filter (fun x => x.1 != 0)).map (fun x => (2 ^ 46 + 0x8000 + x.2, x.1))
    ctxs := [(1, { tCtx with queues := [(3, { y with st := .active, ring := 0x8000, cpl := 0x9000, doorbell := 1, entries := es })] })] }
def tEntry (n kind : Nat) (fence : Bool := false) : QEntry :=
  { hseq := n, kind := kind, op := 0, irq := true, fence := fence, addr := 0x1000, value := 0, tag := 77 }
theorem test_premises_QueueEvents :
    (let y := ((tRing [4, 0, 0, 0, 1] []).ctxAt 1).queueAt 3
     ((tRing [4, 0, 0, 0, 1] []).ctxAt 1).st.queuesRun = true ∧ y.offers = true ∧
       (tRing [4, 0, 0, 0, 1] []).peekNat (queueBase y.ring) 8 = 0x100000004) ∧
    (tRing [4, 0, 0, 0, 2] []).peekNat 0x8000 8 / 2 ^ 32 ≠ 1 ∧ (tRing [0, 0, 0, 0, 1] []).peekNat 0x8000 1 = 0 ∧
    ((tRing [] [tEntry 1 1]).startable 1 3 1 = some (tEntry 1 1) ∧ (tEntry 1 1).started = false ∧ (tRing [] [tEntry 1 1, tEntry 2 4 true]).startable 1 3 2 = none) ∧
    (∀ k ∈ [1, 2, 3, 4], (tRing [] [tEntry 1 k]).startable 1 3 1 = some (tEntry 1 k)) ∧
    (tRing [] [tEntry 1 3]).entryWord 1 (tEntry 1 3) false = (.ok, 0x1000) ∧ (tRing [] [tEntry 1 3]).peekNat 0x1000 8 = 0 ∧
    (tRing [] [tEntry 1 2]).entryWord 1 (tEntry 1 2) true = (.ok, 0x1000) ∧
    ((tRing [] [tEntry 1 2]).tryWrite 0x1000 (toBytes 8 1)).isSome = true ∧
    ((tRing [] [tEntry 1 2]).entryWord 1 { tEntry 1 2 with addr := 0x1004 } true).1 = .trap { code := 4, addr := 0x1004 } ∧
    (((tRing [] [tEntry 1 1]).readRecord 1 lintelSeat 0x1000).toOption.map (fun x => x.1)) = some none ∧
    (((tRing [] [tEntry 1 4]).ctxAt 1).queueAt 3).entries.find? (fun z => z.hseq == 1 && !z.started) = some (tEntry 1 4) ∧
    ((tRing [] [tEntry 1 4]).unpublished = [] ∧ (tRing [] [tEntry 1 4]).shadowWaits = [] ∧ (tRing [] [tEntry 1 4]).hostIn = []) ∧
    (tRing [] [tEntry 1 4]).device 0x9000 = some (2 ^ 46 + 0x9000) ∧ ((tRing [] [tEntry 1 4]).metaOf ((2 ^ 46 + 0x9000) / 128)).poison = false ∧
    ∀ pa, (tRing [] [tEntry 1 4]).shutterOf pa = none :=
  by and_intros <;> first | exact noShutter (by rfl) | decide +kernel

/-- Context 2 in a state, alone or beside a running context 1 on the same rectangle; a suspended and a halted wave of it. -/
def tAlone (x : Context) : State := { tS with ctxs := [(2, x)] }
def tBeside (x : Context) : State := { tS with ctxs := [(1, { tCtx with rect := 0x1100, slices0 := 1, cfg := 4 }), (2, x)] }
def tBare : Context := { rect := 0x1100, slices0 := 1 }
def tSick (life : Life) : State :=
  { tAlone { tBare with st := .running, rect := 0x30000, lcores := 1 } with
    waves := [(1536 * 128, { tWave with core := 1536, ctx := 2, block := none, life := life })] }
theorem test_premises_Contexts :
    (∀ st ∈ [CtxState.empty, .bound, .runnable, .running, .preempting, .saved, .faulted, .destroying],
      ((tAlone { tBare with st := st }).ctxAt 2).st = st) ∧
    rectOk tBare.rect.toNat = true ∧ rectOk 0 = false ∧ (tAlone tBare).slicesTaken 2 = false ∧ (tBeside tBare).slicesTaken 2 = true ∧
    ((tBeside { tBare with st := .runnable }).heldBy 2 (fun y => y.st == .running || y.st == .preempting) = true ∧
      (tAlone { tBare with st := .runnable }).heldBy 2 (fun y => y.st == .running || y.st == .preempting) = false) ∧
    (({ tBeside { tBare with st := .runnable } with ctxs := [(1, { tBare with st := .faulted }), (2, { tBare with st := .runnable })] } : State).heldBy
      2 Context.draining = true ∧ (tAlone { tBare with st := .runnable }).heldBy 2 Context.draining = false) ∧
    (let x : Context := { tBare with st := .saved, imageSize := 65536, imageReg := 0 }
     (tAlone x).areaBacked ((tAlone x).ctxAt 2).imageBase ((tAlone x).ctxAt 2).imageSize = true ∧
       (tAlone { x with imageReg := 0x10000 }).areaBacked ({ x with imageReg := 0x10000 } : Context).imageBase x.imageSize = false ∧
       (tAlone x).areaBytes ((tAlone x).ctxAt 2).imageBase ((tAlone x).ctxAt 2).imageSize ≠ ({ digest := [(0, 1)] } : Image).digest) ∧
    ((tAlone { tBare with st := .preempting }).saveable 2 = true ∧ (tAlone { tBare with st := .running }).saveable 2 = false) ∧
    ((tAlone { tBare with st := .destroying }).destroyed 2 = true ∧ (tAlone { tBare with st := .bound }).destroyed 2 = false) ∧
    (((tSick .suspended).ctxAt 2).serves = true ∧ (tSick .suspended).namedWave 2 0x800 0 = some (1536 * 128) ∧
      (tSick .suspended).namedWave 2 0x801 0 = none ∧ (tSick .suspended).locked 2 = false) ∧
    ({ tAlone tBare with sessions := [(0, { st := .locked, reg := 0x00020009 })] } : State).locked 2 = true ∧
    (rectShape 0x1100 = rectShape 0x1101 ∧ rectShape 0x1100 ≠ rectShape 0x1200) ∧
    (tSick .suspended).debugSel 2 = (none, 0, 0, 0) ∧
    ({ tSick .halted with ctxs := [(2, { tBare with st := .running, rect := 0x30000, lcores := 1, dbgSel := 0x800000001002 })] } : State).debugSel 2 =
      (some (1536 * 128), 0, 2, 0) ∧
    ({ tSick .halted with ctxs := [(2, { tBare with st := .running, rect := 0x30000, lcores := 1, dbgSel := 0x800000400000 })] } : State).debugSel 2 =
      (some (1536 * 128), 4, 0, 0) ∧
    ({ tSick .halted with ctxs := [(2, { tBare with st := .running, rect := 0x30000, lcores := 1, dbgSel := 0x800000600000 })] } : State).debugSel 2 =
      (some (1536 * 128), 6, 0, 0) ∧
    ((tSick .active).waves.map (·.1)).Nodup ∧ (∀ x ∈ (tSick .active).waves, x.2.hold = none ∧ x.2.halting = false) ∧
    (tAlone { tBare with st := .preempting }).shadowWaits = [] := by and_intros <;> decide +kernel

/-- Images that stop at each step of boot, and one that boots. -/
theorem test_premises_BootAndPower :
    State.reset.power = .released ∧ State.reset.flash = none ∧ fetchImage.signatureOk = true ∧
    (fetchImage.coremap.length = 16 ∧ ∀ p ∈ fetchImage.coremap, p ≤ 96) ∧ fetchImage.order = fetchImage.strap ∧ fetchImage.trains = true ∧
    fetchImage.payload.length ≤ 2 ^ 40 ∧ (96 < 97 ∧ 97 ∈ ({ fetchImage with coremap := List.replicate 16 97 } : ConfigImage).coremap) ∧
    ({ fetchImage with coremap := [] } : ConfigImage).coremap.length ≠ 16 ∧
    ({ fetchImage with strap := 1 } : ConfigImage).order ≠ ({ fetchImage with strap := 1 } : ConfigImage).strap := by
  and_intros <;> decide +kernel

/-- Readings that are hot and cool; host requests to frame 0, which is backed, and to frame 1, which is not. -/
def tHot : Readings := { temps := [459], mvs := [], procs := [], pkg := 0 }
theorem test_premises_DevicesAndHost :
    (∀ t ∈ tHot.temps, t < 460) ∧ (∃ t ∈ ({ tHot with temps := [460] } : Readings).temps, 460 ≤ t) ∧
    (∃ t ∈ tHot.temps.take 192, ((4 * tS.plat.tlim : Nat) : Int) < t) ∧ (∀ t ∈ (tHot.temps.drop 192).take 16, t < 4 * (tS.plat.tlim : Int) - 12) ∧
    ¬ Nat.min tS.plat.powerLimit 3800 < tHot.pkg ∧
    ({ tS with plat := { tS.plat with memCfg := 0 } } : State).plat.memCfg.toNat % 65536 = 0 ∧ Cells.find tS.devOld (deviceLine 1 0 511) = none ∧
    (tS.plat.memEvqProd + 2 ^ 32 - tS.plat.memEvqCons) % 2 ^ 32 ≠ queueSize tS.plat.memEvq ∧
    (({ tS.plat with memEvqProd := queueSize tS.plat.memEvq } : Platform).memEvqProd + 2 ^ 32 - tS.plat.memEvqCons) % 2 ^ 32 =
      queueSize tS.plat.memEvq ∧
    tS.plat.layerOut 7 15 = false ∧ tS.plat.evacuating = [] ∧ ({ tS with plat := { tS.plat with mapout0 := 1 } } : State).plat.layerOut 0 0 = true ∧
    ({ tS with power := .failed } : State).power = .failed ∧
    tS.power = .running ∧ tS.hostIn = [] ∧ tS.hostReaches 0x1000 8 = true ∧ tS.hostReaches 0x10000 8 = false ∧ tS.hostMissing 0x1000 8 = none ∧
    tS.lineOwned 0x20 = false ∧ ({ tS with dir := [(0x20, { owner := some 3 })] } : State).lineOwned 0x20 = true ∧
    (∀ line, tS.lineBehind 1 0 511 = some line → tS.lineOwned line = false) ∧ (∀ x ∈ tS.place, x.2.copying = false) ∧
    (let p : Placement := { ctx := 1, tier := 2, dframe := 0, mig := .copying, otherTier := 1, otherFrame := 7 }
     p.copying = true ∧ p.otherTier = 1 ∧ p.otherFrame = 7) ∧ tS.hidden .memory = 0 ∧
    0x1000 % 128 + ([1, 2] : List Byte).length ≤ 128 ∧ tS.device 0x1000 = some (2 ^ 46 + 0x1000) := by decide +kernel

/-- An add, an add with a literal, and a D word, well formed. -/
def tAdd : FWord := { tF with fd := 4, fa := 2, fb := 3, ty := 2 }
theorem test_premises_EncodeDecode :
    (Instr.add tAdd).wf = true ∧ (encode (.add tAdd)).isSome ∧ (Instr.add { tAdd with fb := 0x1C1, ext := some 5 }).wf = true ∧
    (encode (.add { tAdd with fb := 0x1C1, ext := some 5 })).isSome ∧ (decodeWords 0x4080202824014160 0).wf = true ∧
    (encode (decodeWords 0x4080202824014160 0)).isSome := by decide +kernel

/-- The package just booted, with `add v4, v2, v3` and with `mov s6, 0x12345678` where its thread fetches. -/
def tShort : State := State.reset.withFetchWord 64 0x0020E040100C0008
def tLong : State := State.reset.withFetchWord 128 (0x12345678 * 2 ^ 64 + 0x8440006E08000028)
def stands (s : State) (ext : Option DWord) : State :=
  let u := (s.tlbFill 0 1536 0x20000100).keepFetched (s.waveAt (1536 * 128)) 0 0x20000100
  { if ext.isSome then u.keepFetched (s.waveAt (1536 * 128)) 1 0x20000108 else u with
    cur := some { wave := 1536 * 128, pc := 0x20000100, lanes := 1, word := BitVec.ofNat 64 (s.peekNat 0x100 8), ext := ext } }
def ends (r : Host.Outcome State Fault Refusal) : Bool :=
  match r with
  | .next t => decide (t.last ≠ .blocked)
  | _ => false
theorem next_of_ends {r : Host.Outcome State Fault Refusal} (h : ends r = true) : ∃ t : State, t.last ≠ .blocked ∧ r = .next t := by
  unfold ends at h
  split at h
  · exact ⟨_, of_decide_eq_true h, rfl⟩
  · exact absurd h (by decide)
theorem test_premises_StepRunsDecoded :
    (∀ s ∈ [tShort, tLong], s.nextMove = some (.pane 1536 0) ∧ s.paneWaves 1536 0 = [1536 * 128] ∧ (s.waveAt (1536 * 128)).halting = false ∧
      s.cachedWord (s.waveAt (1536 * 128)) 0 0x20000100 0x100 = none ∧ s.cachedWord (s.waveAt (1536 * 128)) 1 0x20000108 0x108 = none ∧
      (s.waveAt (1536 * 128)).ordered = [{ pc := 0x20000100, lanes := 1 }] ∧ s.unowned 0x100 = false ∧ s.unowned 0x108 = false) ∧
    (∀ s ∈ [tShort, tLong], s.fetchPlace 0 1536 0x20000100 = .ok 0x100 ∧ s.fetchPlace 0 1536 0x20000108 = .ok 0x108) ∧
    decode (tShort.peek 0x100 8 ++ []) = .ok (decodeWords 0x0020E040100C0008 0, []) ∧
    decode (tLong.peek 0x100 8 ++ (tLong.peek 0x108 8 ++ [])) = .ok (decodeWords 0x8440006E08000028 0x12345678, []) ∧
    (∃ t : State, t.last ≠ .blocked ∧ exec (decodeWords 0x0020E040100C0008 0) (stands tShort none) = .next t) ∧
    ∃ t : State, t.last ≠ .blocked ∧ exec (decodeWords 0x8440006E08000028 0x12345678)
      (stands tLong (some (BitVec.ofNat 64 (tLong.peekNat 0x108 8)))) = .next t :=
  ⟨by decide +kernel, by
      intro s h
      simp only [List.mem_cons, List.not_mem_nil, or_false] at h
      rcases h with rfl | rfl <;> exact ⟨rfl, rfl⟩, by rfl, by rfl, next_of_ends (by decide +kernel), next_of_ends (by decide +kernel)⟩

theorem test_premises_MemoryStaysCanonical : State.reset.MemOk ∧ tShort.MemOk := ⟨rfl, rfl⟩
theorem test_premises_StoppedStaysStopped :
    let s : State := { State.reset with power := .off }
    (s.power = .failed ∨ s.power = .off) ∧ s.waves = [] ∧ s.agenda = [] ∧ Instr.wake ∉ s.inbox := by decide +kernel
/-! ### Decoding: the word of every opcode (03_encoding.md R49, R75), with every other field zero -/

/-- A word with an opcode and a Q field. -/
def tWord (op q : Nat) : DWord := BitVec.ofNat 64 (op * 2 ^ 53 + q * 2 ^ 9)

theorem test_decode_integer : ∀ x ∈ ([
    (0x001, 0, .add tF), (0x002, 0, .sub tF), (0x003, 0, .mul tF), (0x004, 0, .mulhi tF), (0x005, 0, .mad tF),
    (0x006, 0, .madhi tF), (0x007, 0, .div tF), (0x008, 0, .rem tF), (0x009, 0, .min tF), (0x00A, 0, .max tF),
    (0x00B, 0, .abs tF), (0x00C, 0, .neg tF), (0x00D, 0, .addc tF), (0x00E, 0, .subb tF), (0x00F, 0, .lea tF),
    (0x010, 0, .and tF), (0x011, 0, .or tF), (0x012, 0, .xor tF), (0x013, 0, .andn tF), (0x014, 0, .not tF),
    (0x015, 0, .shl tF), (0x016, 0, .shr tF), (0x017, 0, .sar tF), (0x018, 0, .rot tF), (0x019, 0, .bfe tF),
    (0x01A, 0, .bfi tF), (0x01B, 0, .popc tF), (0x01C, 0, .clz tF), (0x01D, 0, .ctz tF), (0x01E, 0, .brev tF),
    (0x01F, 0, .prmt tF), (0x020, 0, .sel tF), (0x021, 0, .cmp tF), (0x022, 0, .mov tF), (0x023, 0, .cvt tF)] : List (Nat × Nat × Instr)), decodeWords (tWord x.1 x.2.1) 0 = x.2.2 := by decide +kernel

theorem test_decode_float : ∀ x ∈ ([
    (0x040, 0, .fadd tF), (0x041, 0, .fsub tF), (0x042, 0, .fmul tF), (0x043, 0, .fma tF), (0x044, 0, .fmin tF),
    (0x045, 0, .fmax tF), (0x046, 0, .fcmp tF), (0x047, 0, .fcls tF), (0x048, 0, .frcp tF), (0x049, 0, .frsq tF),
    (0x04A, 0, .fsqrt tF), (0x04B, 0, .fexp2 tF), (0x04C, 0, .flog2 tF), (0x04D, 0, .fsin tF), (0x04E, 0, .fcos tF),
    (0x04F, 0, .ftanh tF), (0x050, 0, .frnd tF), (0x051, 0, .fscl tF), (0x052, 0, .fcvt tF), (0x053, 0, .dot2 tF),
    (0x054, 0, .dot4 tF), (0x058, 0, .pfma tF), (0x059, 0, .padd tF), (0x05A, 0, .pmul tF), (0x05B, 0, .pmax tF)] : List (Nat × Nat × Instr)), decodeWords (tWord x.1 x.2.1) 0 = x.2.2 := by decide +kernel

theorem test_decode_predicate_lane_control : ∀ x ∈ ([
    (0x080, 0, .pand tF), (0x081, 0, .por tF), (0x082, 0, .pxor tF), (0x083, 0, .pnot tF), (0x084, 0, .pmov tF),
    (0x085, 0, .pset tF), (0x086, 0, .pget tF), (0x088, 0, .ballot tF), (0x089, 0, .vany tF), (0x08A, 0, .vall tF),
    (0x08B, 0, .shfl tF), (0x08C, 0, .redux tF), (0x08D, 0, .scan tF), (0x08E, 0, .matchLanes tF), (0x08F, 0, .elect tF),
    (0x090, 0, .bcast tF), (0x098, 0, .bra tF), (0x099, 0, .brx tF), (0x09A, 0, .call tF), (0x09B, 0, .ret tF),
    (0x09C, 0, .exit tF), (0x09D, 0, .region tF), (0x09E, 0, .yield tF), (0x09F, 0, .bkpt tF), (0x0A0, 0, .join tF),
    (0x0A1, 0, .leave tF), (0x0A2, 0, .waitm tF), (0x0A3, 0, .mset tF), (0x0A4, 0, .mop tF), (0x0A5, 0, .nop tF)] : List (Nat × Nat × Instr)), decodeWords (tWord x.1 x.2.1) 0 = x.2.2 := by decide +kernel

theorem test_decode_memory : ∀ x ∈ ([
    (0x0C0, 0, .ld tF), (0x0C1, 0, .st tF), (0x0C2, 0, .ldx tF), (0x0C3, 0, .stx tF), (0x0C4, 0, .pref tF),
    (0x0C5, 0, .cinv tF), (0x0C6, 0, .cwb tF), (0x0C8, 0, .stmap tF), (0x0C9, 0, .stunmap tF), (0x0CA, 0, .stflush tF),
    (0x0D0, 0, .kvld tF)] : List (Nat × Nat × Instr)), decodeWords (tWord x.1 x.2.1) 0 = x.2.2 := by decide +kernel

theorem test_decode_atomic : ∀ x ∈ ([
    (0x100, 0, .atom tF), (0x101, 0, .atomSc tF), (0x102, 0, .red tF), (0x108, 0, .fence tF), (0x109, 0, .waitc tF)] : List (Nat × Nat × Instr)), decodeWords (tWord x.1 x.2.1) 0 = x.2.2 := by decide +kernel

theorem test_decode_engine : ∀ x ∈ ([
    (0x140, 0, .cpy tF), (0x141, 0, .cpyt tF), (0x142, 0, .gath tF), (0x143, 0, .tmset tF), (0x144, 0, .hacq tF),
    (0x145, 0, .hwait tF), (0x146, 0, .hrel tF), (0x147, 0, .tagq tF), (0x148, 0, .mxa tF), (0x149, 0, .mxap tF),
    (0x14A, 0, .accal tF), (0x14B, 0, .accfr tF), (0x14C, 0, .acczr tF), (0x14D, 0, .accdr tF), (0x14E, 0, .accrd tF),
    (0x14F, 0, .accwr tF), (0x150, 0, .qmc tF), (0x151, 0, .smx tF), (0x152, 0, .cred tF), (0x153, 0, .amask tF)] : List (Nat × Nat × Instr)), decodeWords (tWord x.1 x.2.1) 0 = x.2.2 := by decide +kernel

theorem test_decode_object : ∀ x ∈ ([
    (0x180, 0, .cjoin tF), (0x181, 0, .cleave tF), (0x182, 0, .cqry tF), (0x188, 0, .bmakeNew tF),
    (0x188, 1, .bmakeDrop { tF with fc := 1 }), (0x189, 0, .barr tF), (0x18A, 0, .bwait tF), (0x18B, 0, .barw tF),
    (0x18C, 0, .sstep tF), (0x190, 0, .launch tF), (0x191, 0, .joink tF), (0x192, 0, .kqQuery tF),
    (0x192, 1, .kqKill { tF with fc := 1 }), (0x198, 0, .balloc tF), (0x199, 0, .bfree tF), (0x19A, 0, .seqnew tF),
    (0x19B, 0, .seqdrop tF), (0x19C, 0, .seqfork tF), (0x19D, 0, .kvapp tF), (0x19E, 0, .kvpub tF), (0x19F, 0, .seqlen tF),
    (0x1A0, 0, .poolq tF), (0x1A8, 0, .snapNew tF), (0x1A8, 1, .snapNest { tF with fc := 1 }), (0x1A9, 0, .sacc tF),
    (0x1AA, 0, .srej tF), (0x1AB, 0, .sqry tF), (0x1AC, 0, .sgrow tF), (0x1AC, 1, .sgrowTrim { tF with fc := 1 }),
    (0x1B0, 0, .pin tF), (0x1B1, 0, .unpin tF), (0x1B2, 0, .hint tF), (0x1B3, 0, .pgqry tF), (0x1B4, 0, .pgown tF),
    (0x1B5, 0, .recode tF)] : List (Nat × Nat × Instr)), decodeWords (tWord x.1 x.2.1) 0 = x.2.2 := by decide +kernel

theorem test_decode_system : ∀ x ∈ ([
    (0x1C0, 0, .trap tF), (0x1C1, 0, .tret tF), (0x1C2, 0, .sysr tF), (0x1C3, 0, .sysw tF), (0x1C4, 0, .haltStop tF),
    (0x1C4, 1, .haltGo { tF with fc := 1 }), (0x1C5, 0, .tlbinv tF), (0x1C6, 0, .icinv tF), (0x1C8, 0, .sig tF),
    (0x1C9, 0, .waitsig tF), (0x1CA, 0, .qpush tF), (0x1D0, 0, .put tF), (0x1D1, 0, .get tF), (0x1D2, 0, .coll tF),
    (0x1D3, 0, .linkq tF)] : List (Nat × Nat × Instr)), decodeWords (tWord x.1 x.2.1) 0 = x.2.2 := by decide +kernel
/-- The worked words of 03_encoding.md and the examples of the chapters decode as they say. -/
theorem test_decode_examples : Obligations.DecodeWords := by unfold Obligations.DecodeWords; decide +kernel

/-! ### Ill-formed terms, which the check refuses -/

theorem test_wf_refuses : ∀ i ∈ [
    Instr.bmakeNew { tF with fc := 1 }, .bmakeDrop tF, .kqQuery { tF with fc := 1 }, .kqKill tF, .snapNew { tF with fc := 1 }, .snapNest tF,
    .sgrow { tF with fc := 1 }, .sgrowTrim tF, .haltStop { tF with fc := 1 }, .haltGo tF,
    .unassignedOpcode 0x0020E040100C0008 none, .unassignedOpcode 0x4080202824014160 none, .unassignedOpcode 0 (some 0),
    .unassignedOpcode 0xC000000000000000 (some 0), .unassignedOpcode 0x8000000000000000 none,
    .waveEnterActive 1600 0, .waveEnterActive 0 4, .blockPlace 2, .entryNop 256 0 1, .entryNop 0 64 1, .map (2 ^ 36) 0 1 false 0,
    .map 0 256 1 false 0, .map 0 0 0 false 0, .map 0 0 4 false 0, .map 0 0 3 true (2 ^ 30), .move 0 0, .gets 208 0, .gets 0 (2 ^ 45),
    .shutterUpdate 0 0 16, .credRoundComplete 192 0, .resume 0 4096 0, .resume 0 0 128, .sysregWrite 0 65536 0, .ssReset 0 16,
    .ssDone 4096 0 0, .recall (2 ^ 30) 0, .poolCreate 0 16, .portLock 64, .sessionOpen 64, .hbmReply 0 512 .clean, .mapout 8 0, .mapout 0 16],
    i.wf = false := by decide +kernel

/-! ### Values of single instructions (04_compute_instructions.md) -/

/-- What an instruction leaves in a v register of a lane. -/
def tLane (i : Instr) (s : State) (r lane : Nat) : Option Word :=
  match exec i s with
  | .next t => if t.last = .issued then some ((t.waveAt 0).regs.vGet r lane) else none
  | _ => none

/-- The wave with v2 = a, v3 = b and v5 = c in its two lanes. -/
def tArgs (a b c : Word) : State :=
  { tS with waves := [(0, { tWave with regs := { tWave.regs with v := [(64, a), (65, a), (96, b), (97, b), (160, c), (161, c)] } })] }

/-- Results worked out by hand from the rules: at the ends of the number range, and where the order of the sources shows. -/
theorem test_integer_values : ∀ x ∈ ([
    (.add (tV 2), 0x7FFFFFFF, 1, 0, 0x80000000), (.sub (tV 2), 3, 5, 0, 0xFFFFFFFE), (.mul (tV 2), 0x10000, 0x10001, 0, 0x10000),
    (.mulhi (tV 2), 0xFFFFFFFE, 3, 0, 0xFFFFFFFF), (.mulhi (tV 6), 0xFFFFFFFE, 3, 0, 2), (.mad (tV 2 5), 3, 5, 7, 22),
    (.madhi (tV 6 5), 0x80000000, 6, 4, 7), (.div (tV 2), 0xFFFFFFF9, 2, 0, 0xFFFFFFFD), (.rem (tV 2), 0xFFFFFFF9, 2, 0, 0xFFFFFFFF),
    (.min (tV 2), 0xFFFFFFFF, 1, 0, 0xFFFFFFFF), (.min (tV 6), 0xFFFFFFFF, 1, 0, 1), (.max (tV 2), 0xFFFFFFFF, 1, 0, 1),
    (.abs { tV 2 with fb := 0 }, 0xFFFFFFFB, 0, 0, 5), (.neg { tV 2 with fb := 0 }, 0x80000000, 0, 0, 0x80000000),
    (.lea { tV 6 with fc := 4 }, 0x100, 3, 0, 0x130), (.and (tV 10), 0xFF00, 0x0FF0, 0, 0x0F00), (.or (tV 10), 0xFF00, 0x0FF0, 0, 0xFFF0),
    (.xor (tV 10), 0xFF00, 0x0FF0, 0, 0xF0F0), (.andn (tV 10), 0xFF00, 0x0FF0, 0, 0xF000), (.not { tV 10 with fb := 0 }, 0xFF, 0, 0, 0xFFFFFF00),
    (.shl (tV 10), 1, 32, 0, 0), (.shr (tV 10), 0x80000000, 31, 0, 1), (.sar (tV 2), 0x80000000, 40, 0, 0xFFFFFFFF),
    (.bfe (tV 2), 0xF0, 0x0404, 0, 0xFFFFFFFF), (.bfi (tV 10 5), 0xF, 0, 0x0404, 0xF0), (.popc { tV 10 with fb := 0 }, 0xF0F0, 0, 0, 8),
    (.clz { tV 10 with fb := 0 }, 1, 0, 0, 31), (.ctz { tV 10 with fb := 0 }, 0, 0, 0, 32), (.brev { tV 10 with fb := 0 }, 1, 0, 0, 0x80000000),
    (.prmt (tV 10 5), 0x44332211, 0x88776655, 0x180C0005, 0xFFAA1166), (.mov { tV 10 with fb := 0 }, 9, 0, 0, 9)]
      : List (Instr × Word × Word × Word × Word)), tLane x.1 (tArgs x.2.1 x.2.2.1 x.2.2.2.1) 4 0 = some x.2.2.2.2 := by decide +kernel

/-- The carry of addc and the borrow of subb, in p5 (R92). -/
theorem test_carries : ∀ x ∈ ([(.addc (tV 6 5), 0xFFFFFFFF, 1, 0, true), (.addc (tV 6 5), 0xFFFFFFFE, 1, 0xFFFFFFFF, false),
    (.subb (tV 6 5), 0, 1, 0xFFFFFFFF, true)] : List (Instr × Word × Word × Word × Bool)), ∃ t : State,
    exec x.1 (tArgs x.2.1 x.2.2.1 0) = .next t ∧ (t.waveAt 0).regs.vGet 4 0 = x.2.2.2.1 ∧
    (t.waveAt 0).regs.pGet false 5 0 = x.2.2.2.2 := by
  intro x h
  simp only [List.mem_cons, List.not_mem_nil, or_false] at h
  rcases h with rfl | rfl | rfl <;> exact ⟨_, rfl, by decide +kernel, by decide +kernel⟩

/-- A float word of type .f32, rounding to nearest even. -/
def tFl (fc : Field := 0) : FWord := { tV 0 fc with md := 1 }
/-- Small sums and products, the examples of R103, 65,520 in .f16 (02_numbers.md) and the words of R100. -/
theorem test_float_values : ∀ x ∈ ([
    (.fadd tFl, 0x3F800000, 0x40000000, 0, 0x40400000), (.fsub tFl, 0x3F800000, 0x40000000, 0, 0xBF800000),
    (.fmul tFl, 0x40400000, 0xC0000000, 0, 0xC0C00000), (.fma (tFl 5), 0x40000000, 0x40400000, 0x3F800000, 0x40E00000),
    (.fmax tFl, 0xFFC00001, 0x80000000, 0, 0x80000000), (.fmax { tFl with fc := 1 }, 0xFFC00001, 0x80000000, 0, 0x7FC00000),
    (.fmin tFl, 0x80000000, 0, 0, 0x80000000), (.fsqrt { tFl with fb := 0 }, 0x40800000, 0, 0, 0x40000000),
    (.frcp { tFl with fb := 0 }, 0x40800000, 0, 0, 0x3E800000), (.frnd { tFl with fb := 0 }, 0x40200000, 0, 0, 0x40000000),
    (.fscl tFl, 0x3F800000, 3, 0, 0x41000000), (decodeWords 0x0A4000401002A007 0, 0x7C00, 0, 0, 0x7E)]
      : List (Instr × Word × Word × Word × Word)), tLane x.1 (tArgs x.2.1 x.2.2.1 x.2.2.2.1) 4 0 = some x.2.2.2.2 := by decide +kernel

/-- The worked lane example: v1 = 1 to 8 in the lanes 0 to 7 of the wave; p2 true in lanes 5 to 7. -/
def tEight : State :=
  { tS with
    waves := [(0, { tWave with
      pcs := (List.range 8).map (fun l => (l, 0x800)), regs := { v := (List.range 8).map (fun l => (32 + l, BitVec.ofNat 32 (l + 1))), m := [(0, 0xFF)]
                                                                 p := [(69, true), (70, true), (71, true)] } })]
    cur := some { wave := 0, pc := 0x800, lanes := 0xFF } }
def tLanes (i : Instr) : List (Option Word) := (List.range 8).map (tLane i tEight 4)
theorem test_lane_example :
    tLanes (.redux { tF with fd := 4, fa := 1, ty := 2 }) = List.replicate 8 (some 36) ∧
    tLanes (.scan { tF with fd := 4, fa := 1, fc := 8, ty := 2 }) = [0, 1, 3, 6, 10, 15, 21, 28].map some ∧
    tLanes (.shfl { tF with fd := 4, fa := 1, fb := 0x141, fc := 0xA, ty := 10 }) = [2, 3, 4, 5, 6, 7, 8, 8].map some ∧
    tLanes (.shfl { tF with fd := 4, fa := 1, fb := 0x141, fc := 2, ty := 10 }) = [2, 3, 4, 5, 6, 7, 8, 0].map some ∧
    tLanes (.redux { tF with g := 2, fd := 4, fa := 1, ty := 2 }) = [0, 0, 0, 0, 0, 21, 21, 21].map some := by decide +kernel
theorem test_lane_example_ballot : ∃ t : State, exec (.ballot { tF with fd := 0x106, fa := 2 }) tEight = .next t ∧
    (t.waveAt 0).regs.sGet false 6 = 0xE0 := ⟨_, rfl, by decide +kernel⟩

/-! ### Control, traps, memory and boot -/

/-- A division by zero is ARITH, with no handler fatal: nothing is written (R91). -/
theorem test_div_by_zero : ∃ t : State, exec (.div (tV 2)) (tArgs 1 0 0) = .next t ∧ (t.ctxAt 1).st = .faulted ∧
    (t.ctxAt 1).lastcode = (0x05 : Nat) := ⟨_, rfl, by decide +kernel, by decide +kernel⟩

/-- The heap window of 01_package.md's example leads to frame 0x103, offset 8 (R21). -/
theorem test_heap_window :
    ({ tS with
       ctxs := [(1, { tCtx with heapBase := 0x0000400000000000, heapLimit := 0x0000401000000000, heapOffset := 0xFFFFC00001000000 })]
       place := [(0x103, { ctx := 1, tier := 1, dframe := 5 })] } : State).translate 1 0 0x0000400000030008 8 = .ok ⟨0x1030008, none, 0⟩ := rfl

/-- From reset without an image the first step fails boot with status 1 (R451); from a placed instruction it runs it. -/
theorem test_first_step : ∃ t : State, step State.reset = .next t ∧ t.power = .failed ∧ t.plat.bootStatus = 1 := ⟨_, rfl, rfl, rfl⟩
theorem test_step_runs_mov : ∃ t : State, step tLong = .next t ∧ (t.waveAt (1536 * 128)).regs.vGet 6 0 = 0x12345678 ∧
    (t.waveAt (1536 * 128)).pcOf 0 = 0x20000110 := ⟨_, rfl, by decide +kernel, by decide +kernel⟩

/-- A load of little-endian bytes (R6), and an atom.add of two lanes on one word: each gets the value before it (R169). -/
def tWord4 : State := { tS with mem := [(2 ^ 46 + 0x1000, 0x78), (2 ^ 46 + 0x1001, 0x56), (2 ^ 46 + 0x1003, 0x12)] }
theorem test_load : ∃ t : State, exec (.ld tLd) tWord4 = .next t ∧ ∃ x, Cells.find t.fills 100 = some x ∧
    x.vs = [(4 * 32, 0x12005678), (4 * 32 + 1, 0x12005678)] := ⟨_, rfl, _, rfl, rfl⟩
theorem test_atom : ∃ t : State, exec (.atom tAtom) tWord4 = .next t ∧ t.peekNat 0x1000 4 = 0x1200567A ∧
    ∃ x, Cells.find t.fills 100 = some x ∧ x.vs = [(4 * 32, 0x12005678), (4 * 32 + 1, 0x12005679)] := ⟨_, rfl, by decide +kernel, _, rfl, rfl⟩

/-- With a handler, a trap enters it: the lanes stand at TRAP_PC in trap mode, and the record names its code (R215). -/
theorem test_trap_entry : ∃ t : State, exec (.trap { tF with fc := 7 }) tHandler = .next t ∧ (t.waveAt 0).trapMode = true ∧
    (t.waveAt 0).pcOf 0 = 0x2000 ∧ (t.waveAt 0).trapRec.length = 8 := ⟨_, rfl, by decide +kernel, by decide +kernel, by decide +kernel⟩
end Sys2Proof.Tests
end

section
/-! The number formats of 02_numbers.md: the rounding of a magnitude (R33, R41) and the canonical NaN of the arithmetic
(R36). The operations fadd, fsub, fmul, fma, frcp, fsqrt, frnd and fscl on codes all end in `t.flush z (arith t x md)`, so
two facts settle R36: that form is canonical wherever it is NaN, and a NaN source makes its exact value `x` NaN. -/

namespace Sys2Proof.Machine

open Sys2Proof

/-! ### Rounding a magnitude -/

/-- `r` is the floor of `num / den`. -/
def IsFloor (num den r : Nat) : Prop := r * den ≤ num ∧ num < (r + 1) * den

/-- `r` is the ceiling of `num / den`. -/
def IsCeil (num den r : Nat) : Prop := num ≤ r * den ∧ r * den < num + den

/-- `r` is the integer nearest to `num / den`, the even one of two that are as near. -/
def IsNearestEven (num den r : Nat) : Prop :=
  2 * num ≤ (2 * r + 1) * den ∧ 2 * r * den ≤ 2 * num + den ∧
    (2 * num = (2 * r + 1) * den ∨ 2 * r * den = 2 * num + den → r % 2 = 0)

theorem isFloor_div (num : Nat) {den : Nat} (hd : 0 < den) : IsFloor num den (num / den) :=
  ⟨Nat.div_mul_le_self num den, (Nat.div_lt_iff_lt_mul hd).mp (Nat.lt_succ_self _)⟩

theorem roundNat_rtz_isFloor (neg : Bool) (num : Nat) {den : Nat} (hd : 0 < den) :
    IsFloor num den (roundNat .rtz neg num den) :=
  isFloor_div num hd

/-- Upward rounds the magnitude of a positive value up; downward does so to a negative one. -/
theorem roundNat_away_isCeil (num : Nat) {den : Nat} (hd : 0 < den) :
    IsCeil num den (roundNat .rup false num den) ∧ IsCeil num den (roundNat .rdn true num den) := by
  have hsplit : num / den * den + num % den = num := Nat.div_add_mod' num den
  have hrem : num % den < den := Nat.mod_lt num hd
  have hceil : IsCeil num den (if num % den = 0 then num / den else num / den + 1) := by
    unfold IsCeil
    split
    · omega
    · rw [Nat.add_one_mul]
      omega
  exact ⟨by simpa [roundNat] using hceil, by simpa [roundNat] using hceil⟩

/-- Upward cuts the magnitude of a negative value; downward cuts that of a positive one. -/
theorem roundNat_toward_isFloor (num : Nat) {den : Nat} (hd : 0 < den) :
    IsFloor num den (roundNat .rup true num den) ∧ IsFloor num den (roundNat .rdn false num den) :=
  ⟨by simpa [roundNat] using isFloor_div num hd, by simpa [roundNat] using isFloor_div num hd⟩

theorem roundNat_rne_isNearestEven (neg : Bool) (num : Nat) {den : Nat} (hd : 0 < den) :
    IsNearestEven num den (roundNat .rne neg num den) := by
  have hsplit : num / den * den + num % den = num := Nat.div_add_mod' num den
  have hrem : num % den < den := Nat.mod_lt num hd
  unfold IsNearestEven roundNat
  generalize num / den = q at *
  generalize num % den = r at *
  dsimp only
  split
  · simp only [Nat.mul_assoc, Nat.add_mul]
    omega
  · split
    · simp only [Nat.mul_assoc, Nat.add_mul]
      omega
    · split <;> simp only [Nat.mul_assoc, Nat.add_mul] <;> omega

/-- Stochastic rounding is the floor of the quotient with the draw added in units of 2^-16 (R41). -/
theorem roundNat_sr_isFloor (g : Nat) (neg : Bool) (num : Nat) {den : Nat} (hd : 0 < den) :
    IsFloor (num * 65536 + g * den) (den * 65536) (roundNat (.sr g) neg num den) :=
  isFloor_div _ (by omega)

/-! ### NaN codes -/

/-- A format whose codes, without the sign bit, are in order: finite values, the infinity `i`, then the NaN codes, the
canonical NaN `n` among them. -/
structure Fmt.Ordered (t : Fmt) (i n : Nat) : Prop where
  inf : t.inf = some i
  nan : t.nan = some n
  subnormal_lt : 2 ^ t.M ≤ i
  max_lt : t.maxCode < i
  inf_lt : i < n
  nan_lt : n < 2 ^ (t.M + t.E)

/-- The formats of the scalar arithmetic (R28). -/
theorem Fmt.ordered_of_mem {t : Fmt} (ht : t ∈ [fmtF64, fmtF32, fmtF16, fmtBf16]) : ∃ i n, t.Ordered i n := by
  simp only [List.mem_cons, List.not_mem_nil, or_false] at ht
  rcases ht with rfl | rfl | rfl | rfl <;>
    exact ⟨_, _, rfl, rfl, by decide, by decide, by decide, by decide⟩

/-- The body of a code is what stands under its sign bit. -/
theorem Fmt.sign_add_mod (t : Fmt) (neg : Bool) (c : Nat) :
    (t.sign neg + c) % 2 ^ (t.M + t.E) = c % 2 ^ (t.M + t.E) := by
  cases neg <;> simp [Fmt.sign]

section
variable {t : Fmt} {i n : Nat} (h : t.Ordered i n)
include h

theorem Fmt.Ordered.isNanCode_iff (c : Nat) : t.isNanCode c = true ↔ i < c % 2 ^ (t.M + t.E) := by
  simp [Fmt.isNanCode, h.nan, h.inf]

theorem Fmt.Ordered.isNanCode_canon : t.isNanCode (t.nan.getD 0) = true := by
  rw [h.isNanCode_iff, h.nan, Option.getD_some, Nat.mod_eq_of_lt h.nan_lt]
  exact h.inf_lt

/-- A code that stands at the infinity or below it is not NaN, whatever its sign. -/
theorem Fmt.Ordered.not_isNanCode_sign_add (neg : Bool) {c : Nat} (hc : c ≤ i) :
    ¬ t.isNanCode (t.sign neg + c) = true := by
  rw [h.isNanCode_iff, t.sign_add_mod]
  exact Nat.not_lt.mpr (Nat.le_trans (Nat.mod_le _ _) hc)

theorem Fmt.Ordered.flush_of_isNanCode (z : Bool) {c : Nat} (hc : t.isNanCode c = true) : t.flush z c = c := by
  have hsub : ¬ c % 2 ^ (t.M + t.E) < 2 ^ t.M :=
    Nat.not_lt.mpr (Nat.le_trans h.subnormal_lt (Nat.le_of_lt ((h.isNanCode_iff c).mp hc)))
  simp [Fmt.flush, Fmt.isSub, hsub]

/-- Flushing makes no NaN. -/
theorem Fmt.Ordered.isNanCode_of_flush {z : Bool} {c : Nat} (hc : t.isNanCode (t.flush z c) = true) :
    t.isNanCode c = true := by
  unfold Fmt.flush at hc
  split at hc
  · exact absurd hc (h.not_isNanCode_sign_add _ (Nat.zero_le i))
  · exact hc

theorem Fmt.Ordered.decode_flush_of_isNanCode (z : Bool) {c : Nat} (hc : t.isNanCode c = true) :
    t.decode (t.flush z c) = .nan (bitOf c (t.M + t.E)) := by
  rw [h.flush_of_isNanCode z hc, Fmt.decode, if_pos hc]

/-- fsub reads its second source with the sign inverted, which leaves a NaN a NaN (R102). -/
theorem Fmt.Ordered.isNanCode_flipSign {c : Nat} (hc : t.isNanCode c = true) :
    t.isNanCode (Nat.xor (c % 2 ^ t.width) (2 ^ (t.M + t.E))) = true := by
  have hbody : Nat.xor (c % 2 ^ t.width) (2 ^ (t.M + t.E)) % 2 ^ (t.M + t.E) = c % 2 ^ (t.M + t.E) := by
    change (c % 2 ^ t.width ^^^ 2 ^ (t.M + t.E)) % 2 ^ (t.M + t.E) = _
    rw [Nat.xor_mod_two_pow, Nat.mod_self, Nat.xor_zero, Nat.mod_mod_of_dvd]
    exact Nat.pow_dvd_pow 2 (Nat.le_succ _)
  rw [h.isNanCode_iff, hbody]
  exact (h.isNanCode_iff c).mp hc

/-! ### Results that are NaN -/

theorem Fmt.Ordered.not_isNanCode_infResult (neg : Bool) : ¬ t.isNanCode (t.infResult neg false) = true := by
  simp only [Fmt.infResult, h.inf, Bool.false_eq_true, if_false]
  exact h.not_isNanCode_sign_add neg (Nat.le_refl i)

theorem Fmt.Ordered.not_isNanCode_overflowResult (md : Rnd) (neg : Bool) :
    ¬ t.isNanCode (t.overflowResult md neg false) = true := by
  have htop := h.not_isNanCode_sign_add neg (Nat.le_of_lt h.max_lt)
  have hinf := h.not_isNanCode_infResult neg
  cases md with
  | rne => exact hinf
  | rtz => exact htop
  | rup => cases neg <;> assumption
  | rdn => cases neg <;> assumption
  | sr g => exact hinf

/-- A value that is not NaN converts to no NaN (R38). -/
theorem Fmt.Ordered.isNan_of_isNanCode_convert {x : FVal} {md : Rnd} (hc : t.isNanCode (convert t x md false) = true) :
    x.isNan = true := by
  unfold convert at hc
  split at hc
  · rfl
  · exact absurd hc (h.not_isNanCode_infResult _)
  · exact absurd hc (h.not_isNanCode_sign_add _ (Nat.zero_le i))
  · dsimp only at hc
    split at hc
    · exact absurd hc (h.not_isNanCode_overflowResult _ _)
    · next hle => exact absurd hc (h.not_isNanCode_sign_add _ (Nat.le_trans (Nat.not_lt.mp hle) (Nat.le_of_lt h.max_lt)))

/-- An arithmetic result that is NaN is the canonical NaN (R36). -/
theorem Fmt.Ordered.flush_arith_eq_canon (z : Bool) {x : FVal} {md : Rnd}
    (hr : t.isNanCode (t.flush z (arith t x md)) = true) : t.flush z (arith t x md) = t.nan.getD 0 := by
  have hc := h.isNanCode_of_flush hr
  have hnan := h.isNan_of_isNanCode_convert (x := x) (md := md)
  rw [h.flush_of_isNanCode z hc]
  cases x with
  | nan b => rfl
  | inf b => exact absurd (hnan hc) Bool.false_ne_true
  | fin b num den e => exact absurd (hnan hc) Bool.false_ne_true

/-- An exact value that is NaN gives the canonical NaN. -/
theorem Fmt.Ordered.flush_arith_nan (z b : Bool) (md : Rnd) : t.flush z (arith t (.nan b) md) = t.nan.getD 0 :=
  h.flush_of_isNanCode z h.isNanCode_canon

end

/-! ### NaN sources -/

@[simp] theorem FVal.nan_add (b : Bool) (y : FVal) (md : Rnd) : FVal.add (.nan b) y md = .nan false := rfl
@[simp] theorem FVal.add_nan (x : FVal) (b : Bool) (md : Rnd) : FVal.add x (.nan b) md = .nan false := by
  cases x <;> rfl
@[simp] theorem FVal.nan_mul (b : Bool) (y : FVal) : FVal.mul (.nan b) y = .nan false := rfl
@[simp] theorem FVal.mul_nan (x : FVal) (b : Bool) : FVal.mul x (.nan b) = .nan false := by
  cases x <;> rfl

section
variable {t : Fmt} {i n : Nat} (h : t.Ordered i n) (z : Bool) (md : Rnd) {a : Nat} (ha : t.isNanCode a = true) (b c : Nat)
include h ha

theorem Fmt.Ordered.fAdd_nan_left : fAdd t z md a b = t.nan.getD 0 := by
  simp only [fAdd, h.decode_flush_of_isNanCode _ ha, FVal.nan_add, h.flush_arith_nan]

theorem Fmt.Ordered.fAdd_nan_right : fAdd t z md b a = t.nan.getD 0 := by
  simp only [fAdd, h.decode_flush_of_isNanCode _ ha, FVal.add_nan, h.flush_arith_nan]

theorem Fmt.Ordered.fSub_nan_left : fSub t z md a b = t.nan.getD 0 := h.fAdd_nan_left z md ha _

theorem Fmt.Ordered.fSub_nan_right : fSub t z md b a = t.nan.getD 0 :=
  h.fAdd_nan_right z md (h.isNanCode_flipSign ha) b

theorem Fmt.Ordered.fMul_nan_left : fMul t z md a b = t.nan.getD 0 := by
  simp only [fMul, h.decode_flush_of_isNanCode _ ha, FVal.nan_mul, h.flush_arith_nan]

theorem Fmt.Ordered.fMul_nan_right : fMul t z md b a = t.nan.getD 0 := by
  simp only [fMul, h.decode_flush_of_isNanCode _ ha, FVal.mul_nan, h.flush_arith_nan]

theorem Fmt.Ordered.fFma_nan_first : fFma t z md a b c = t.nan.getD 0 := by
  simp only [fFma, h.decode_flush_of_isNanCode _ ha, FVal.nan_mul, FVal.nan_add, h.flush_arith_nan]

theorem Fmt.Ordered.fFma_nan_second : fFma t z md b a c = t.nan.getD 0 := by
  simp only [fFma, h.decode_flush_of_isNanCode _ ha, FVal.mul_nan, FVal.nan_add, h.flush_arith_nan]

theorem Fmt.Ordered.fFma_nan_addend : fFma t z md b c a = t.nan.getD 0 := by
  simp only [fFma, h.decode_flush_of_isNanCode _ ha, FVal.add_nan, h.flush_arith_nan]

theorem Fmt.Ordered.fRcp_nan : fRcp t z md a = t.nan.getD 0 := by
  simp only [fRcp, h.decode_flush_of_isNanCode _ ha, FVal.recip, h.flush_arith_nan]

theorem Fmt.Ordered.fSqrt_nan : fSqrt t z md a = t.nan.getD 0 := by
  simp only [fSqrt, h.decode_flush_of_isNanCode _ ha, FVal.sqrt, h.flush_arith_nan]

theorem Fmt.Ordered.fRnd_nan : fRnd t z md a = t.nan.getD 0 := by
  simp only [fRnd, h.decode_flush_of_isNanCode _ ha, FVal.round, h.flush_arith_nan]

theorem Fmt.Ordered.fScl_nan (k : Int) : fScl t z md a k = t.nan.getD 0 := by
  simp only [fScl, h.decode_flush_of_isNanCode _ ha, h.flush_arith_nan]

end

/-- Settles O6: the quotient's floor and remainder give each rounding mode, and of the arithmetic only a NaN exact value
converts to a NaN code, which is then the canonical one. -/
theorem roundingAndNans : Obligations.RoundingAndNans := by
  refine ⟨fun neg num den hd => ?_, fun t ht z md a b c k => ?_⟩
  · obtain ⟨hup, hdnNeg⟩ := roundNat_away_isCeil num hd
    obtain ⟨hupNeg, hdn⟩ := roundNat_toward_isFloor num hd
    refine ⟨roundNat_rne_isNearestEven neg num hd, roundNat_rtz_isFloor neg num hd, hup, hupNeg, hdn, hdnNeg,
      fun g _ => ?_⟩
    simpa only [IsFloor, Nat.mul_assoc] using roundNat_sr_isFloor g neg num hd
  · obtain ⟨i, n, h⟩ := t.ordered_of_mem ht
    refine ⟨fun r hr hnan => ?_, fun ha => ?_⟩
    · have hform : ∃ x, r = t.flush (t.ftz z) (arith t x md) := by
        simp only [List.mem_cons, List.not_mem_nil, or_false] at hr
        rcases hr with rfl | rfl | rfl | rfl | rfl | rfl | rfl | rfl <;> exact ⟨_, rfl⟩
      obtain ⟨x, rfl⟩ := hform
      exact h.flush_arith_eq_canon _ hnan
    · exact ⟨h.fAdd_nan_left z md ha b, h.fAdd_nan_right z md ha b, h.fSub_nan_left z md ha b,
        h.fSub_nan_right z md ha b, h.fMul_nan_left z md ha b, h.fMul_nan_right z md ha b,
        h.fFma_nan_first z md ha b c, h.fFma_nan_second z md ha b c, h.fFma_nan_addend z md ha b c,
        h.fRcp_nan z md ha, h.fSqrt_nan z md ha, h.fRnd_nan z md ha, h.fScl_nan z md ha k⟩

end Sys2Proof.Machine
end

section
/-! What a commit leaves of the set of waves (05_wave.md R135). The operations behind a store at its home touch no wave but through
`State.noteSignals` and `State.noteLost`, which change waves in place; so a boundary that opens still finds its wave. -/

namespace Sys2Proof.Machine

open Sys2Proof

/-! ### Operations that touch no wave -/

theorem foldl_waves {β : Type} (f : State → β → State) (hf : ∀ s x, (f s x).waves = s.waves) (xs : List β) (s : State) :
    (xs.foldl f s).waves = s.waves := by
  induction xs generalizing s with
  | nil => rfl
  | cons x xs ih => rw [List.foldl_cons, ih, hf]

@[simp] theorem modMeta_waves (s : State) (pa : Nat) (f : LineMeta → LineMeta) : (s.modMeta pa f).waves = s.waves := by
  unfold State.modMeta
  split <;> rfl

@[simp] theorem syncUpdate_waves (s : State) (pa scope : Nat) (party : Nat × Nat) :
    (s.syncUpdate pa scope party).waves = s.waves := modMeta_waves _ _ _

@[simp] theorem setShutter_waves (s : State) (c i : Nat) (sh : Shutter) : (s.setShutter c i sh).waves = s.waves := rfl

@[simp] theorem setShut_waves (s : State) (fs : List Nat) (b : Bool) : (s.setShut fs b).waves = s.waves := rfl

@[simp] theorem freeEpochs_waves (s : State) (c : Nat) (es : List Nat) : (s.freeEpochs c es).waves = s.waves := rfl

@[simp] theorem dropTileLine_waves (s : State) (pa : Nat) (b : Option (Nat × Nat)) :
    (s.dropTileLine pa b).waves = s.waves := rfl

@[simp] theorem countDevice_waves (s : State) (line : Nat) (r : Bool) : (s.countDevice line r).waves = s.waves := rfl

@[simp] theorem l2Flush_waves (s : State) (p : Nat → Bool) : (s.l2Flush p).waves = s.waves :=
  foldl_waves _ (fun t x => by dsimp only; split <;> simp) _ _

@[simp] theorem l2Enter_waves (s : State) (line : Nat) (d : Bool) : (s.l2Enter line d).waves = s.waves := by
  unfold State.l2Enter
  dsimp only
  split
  · rfl
  · split <;> simp

@[simp] theorem countAccess_waves (s : State) (pa : Nat) (r : Bool) : (s.countAccess pa r).waves = s.waves := by
  unfold State.countAccess
  dsimp only
  split
  · simp
  · split
    · rfl
    · cases r <;> simp

@[simp] theorem homeWrite_waves (s : State) (pa : Nat) : (s.homeWrite pa).waves = s.waves := by
  unfold State.homeWrite
  split <;> simp

@[simp] theorem publish_waves (s : State) (p : Publish) : (s.publish p).waves = s.waves := by
  cases p with
  | done c q d irq => cases irq <;> rfl
  | _ => rfl

@[simp] theorem settleShutter_waves (s : State) (c i : Nat) : (s.settleShutter c i).waves = s.waves := by
  unfold State.settleShutter
  split
  · rfl
  · dsimp only
    split
    · simp
    · split <;> simp

@[simp] theorem restoreLine_waves (s : State) (pa : Nat) : (s.restoreLine pa).waves = s.waves := by
  unfold State.restoreLine
  split
  · split <;> simp
  · rfl

@[simp] theorem takeShadows_waves (s : State) (pa : Nat) : (s.takeShadows pa).waves = s.waves := by
  unfold State.takeShadows
  split
  · rfl
  · dsimp only
    split <;> simp

@[simp] theorem setCache_waves (s : State) (agent line : Nat) (c : CacheLine) : (s.setCache agent line c).waves = s.waves := rfl

@[simp] theorem loseCopies_waves (s : State) (agent line : Nat) : (s.loseCopies agent line).waves = s.waves := rfl

@[simp] theorem l0Drop_waves (s : State) (core : Nat) (p : L0Line → Bool) : (s.l0Drop core p).waves = s.waves := rfl

@[simp] theorem sendWbk_waves (s : State) (agent line : Nat) (c : CacheLine) : (s.sendWbk agent line c).waves = s.waves := rfl

@[simp] theorem evictLine_waves (s : State) (agent line : Nat) : (s.evictLine agent line).waves = s.waves := by
  unfold State.evictLine
  split
  · split <;> simp
  · rfl

theorem makeRoom_waves {s t : State} {agent line : Nat} (h : s.makeRoom agent line = some t) : t.waves = s.waves := by
  unfold State.makeRoom at h
  dsimp only at h
  split at h
  · cases h
    rfl
  · obtain ⟨_, _, rfl⟩ := Option.map_eq_some_iff.mp h
    exact evictLine_waves _ _ _

@[simp] theorem cacheMiss_waves (s : State) (agent line : Nat) (store stream : Bool) :
    (s.cacheMiss agent line store stream).waves = s.waves := by
  unfold State.cacheMiss
  split
  · rfl
  · next t ht => split <;> simp [makeRoom_waves ht]

@[simp] theorem cacheHit_waves (s : State) (agent line : Nat) (c : CacheLine) :
    (s.cacheHit agent line c).waves = s.waves := by
  unfold State.cacheHit
  split <;> simp

@[simp] theorem cacheStore_waves (s : State) (agent pa : Nat) (old : List Byte) :
    (s.cacheStore agent pa old).waves = s.waves := by
  have hold : ∀ o : Option Nat, (match o with
      | none => s
      | some k => if (Cells.find s.devOld (k / 128)).isSome then s
        else { s with devOld := Cells.put s.devOld (k / 128) old }).waves = s.waves := by
    intro o
    split
    · rfl
    · split <;> rfl
  unfold State.cacheStore
  dsimp only
  split
  · exact (cacheMiss_waves _ _ _ _ _).trans (hold _)
  · exact (cacheHit_waves _ _ _ _).trans (hold _)

@[simp] theorem afterStore_waves (s : State) (core pa : Nat) (bs old : List Byte) :
    (s.afterStore core pa bs old).waves = s.waves := by
  unfold State.afterStore
  rw [cacheStore_waves]
  split <;> rfl

@[simp] theorem shadowWriteBack_waves (s : State) (agent pa : Nat) : (s.shadowWriteBack agent pa).waves = s.waves := by
  unfold State.shadowWriteBack
  split
  · split <;> simp
  · rfl

@[simp] theorem modNode_waves (s : State) (n : Nat) (f : NodeLink → NodeLink) : (s.modNode n f).waves = s.waves := rfl

@[simp] theorem transmit_waves (s : State) (n : Nat) (m : OutMsg) : (s.transmit n m).waves = s.waves := by
  unfold State.transmit
  dsimp only
  split <;> rfl

@[simp] theorem keepPast_waves (s : State) (k pa n : Nat) : (s.keepPast k pa n).waves = s.waves := rfl

/-! ### Operations that keep every wave -/

/-- A wave stands under a key. -/
def State.HasWave (s : State) (k : Nat) : Prop := (Cells.find s.waves k).isSome = true

theorem State.HasWave.congr {s t : State} {k : Nat} (h : s.HasWave k) (ht : t.waves = s.waves) : t.HasWave k := by
  unfold State.HasWave
  rw [ht]
  exact h

theorem State.HasWave.exists {s : State} {k : Nat} (h : s.HasWave k) : ∃ w, Cells.find s.waves k = some w :=
  Option.isSome_iff_exists.mp h

/-- Changing values in place leaves the keys of a map. -/
theorem Cells.find_map_isSome {α : Type} (g : Nat → α → α) (m : Cells α) (x : Nat) :
    (Cells.find (m.map (fun (k, v) => (k, g k v))) x).isSome = (Cells.find m x).isSome := by
  induction m with
  | nil => rfl
  | cons e m ih =>
    simp only [List.map_cons, Cells.find]
    split
    · rfl
    · exact ih

section
variable {s : State} {k : Nat} (h : s.HasWave k)
include h

theorem State.HasWave.modWave (j : Nat) (f : Wave → Wave) : (s.modWave j f).HasWave k := by
  unfold State.HasWave
  by_cases hkj : k = j
  · subst hkj
    rw [State.find_modWave_self, Option.isSome_map]
    exact h
  · rw [State.find_modWave_ne s f hkj]
    exact h

theorem State.HasWave.noteSignals (pa : Nat) : (s.noteSignals pa).HasWave k :=
  (Cells.find_map_isSome (fun _ (w : Wave) => w.noteSignal (pa / 128) (fun a => s.peekNat a 8)) s.waves k).trans h

theorem State.HasWave.performWrite (pa : Nat) (bs : List Byte) (but : Option (Nat × Nat)) :
    (s.performWrite pa bs but).HasWave k := by
  unfold State.performWrite
  split
  · exact h
  · dsimp only
    split
    · split
      · exact (h.congr (by simp)).noteSignals pa
      · exact h.congr rfl
    · exact (h.congr (by simp)).noteSignals pa

theorem State.HasWave.waveWrite {t : State} {pa : Nat} {bs : List Byte} {but : Option (Nat × Nat)}
    (ht : s.waveWrite pa bs but = .ok t) : t.HasWave k := by
  have hr : (s.restoreLine pa).HasWave k := h.congr (restoreLine_waves s pa)
  unfold State.waveWrite at ht
  dsimp only at ht
  split at ht
  · cases ht
    exact hr.performWrite pa bs but
  · split at ht
    · cases ht
      exact (hr.congr (takeShadows_waves _ pa)).performWrite pa bs but
    · cases ht

theorem State.HasWave.tryWrite {t : State} {pa : Nat} {bs : List Byte} (ht : s.tryWrite pa bs = some t) : t.HasWave k := by
  have hr : (s.restoreLine pa).HasWave k := h.congr (restoreLine_waves s pa)
  unfold State.tryWrite at ht
  dsimp only at ht
  split at ht
  · cases ht
    exact hr.performWrite pa bs none
  · split at ht
    · cases ht
      exact (hr.congr (takeShadows_waves _ pa)).performWrite pa bs none
    · cases ht

theorem State.HasWave.coreStore {t : State} {core pa : Nat} {bs : List Byte} {but : Option (Nat × Nat)}
    (ht : s.coreStore core pa bs but = .ok t) : t.HasWave k := by
  unfold State.coreStore at ht
  dsimp only at ht
  split at ht
  · cases ht
  · next u hu =>
    cases ht
    exact (State.HasWave.waveWrite (h.congr (by simp)) hu).congr (afterStore_waves _ _ _ _ _)

/-- A fold of operations that keep the wave keeps it. -/
theorem State.HasWave.foldl {β : Type} (f : State → β → State) (hf : ∀ s x, s.HasWave k → (f s x).HasWave k)
    (xs : List β) : (xs.foldl f s).HasWave k := by
  induction xs generalizing s with
  | nil => exact h
  | cons x xs ih => exact ih (hf s x h)

theorem State.HasWave.deviceWrite (pa : Nat) (bs : List Byte) (p : Publish) : (s.deviceWrite pa bs p).HasWave k := by
  have hparts := h.foldl (fun (t : State) (x : Nat × List Byte) => match t.tryWrite x.1 x.2 with
    | some u => u.homeWrite x.1
    | none => { t with shadowWaits := t.shadowWaits ++
        [⟨((Cells.find t.place (x.1 / 65536)).map (·.ctx)).getD 0, x.1, x.2, some p⟩] }) (fun t x ht => by
      split
      · next u hu => exact (ht.tryWrite hu).congr (homeWrite_waves u x.1)
      · exact ht.congr rfl) (splitLines (bs.length + 1) pa bs)
  unfold State.deviceWrite
  dsimp only
  split
  · exact hparts.congr rfl
  · exact hparts.congr (publish_waves _ _)

theorem State.HasWave.lostWrite (c seq kind node addr : Nat) : (s.lostWrite c seq kind node addr).HasWave k := by
  unfold State.lostWrite
  dsimp only
  split
  · exact h.congr rfl
  · exact State.HasWave.deviceWrite (h.congr (State.modCtx_waves s c _)) _ _ _

theorem State.HasWave.postWrite (node c wave kind addr : Nat) (fop : FabricOp) (sync : Option (Nat × Nat)) (op : Option Nat)
    (lanes : Word) : (s.postWrite node c wave kind addr fop sync op lanes).1.HasWave k := by
  unfold State.postWrite
  dsimp only
  split
  · exact h.lostWrite _ _ _ _ _
  · split
    · exact h.lostWrite _ _ _ _ _
    · split <;> exact h.congr (by simp)

theorem State.HasWave.postLine (j node : Nat) (l : HeldLine) : (s.postLine j node l).HasWave k := by
  have hp := fun sync => h.postWrite node (s.waveAt j).ctx j 0 l.pa (.store l.bytes) sync none l.lanes
  unfold State.postLine
  dsimp only
  split
  · exact (hp _).modWave j _
  · exact hp _

end

/-- A fold that stops at the first error keeps what each of its steps keeps. -/
theorem foldl_except_keeps {ε σ β : Type} {P : σ → Prop} {F : Except ε σ → β → Except ε σ}
    (hF : ∀ a x, (∀ u, a = .ok u → P u) → ∀ u, F a x = .ok u → P u) (xs : List β) (a : Except ε σ)
    (ha : ∀ u, a = .ok u → P u) : ∀ u, xs.foldl F a = .ok u → P u := by
  induction xs generalizing a with
  | nil => exact ha
  | cons x xs ih => exact ih (F a x) (hF a x ha)

theorem State.HasWave.writeRuns {s t : State} {k core : Nat} {l : HeldLine} {bytes : Cells Byte} (h : s.HasWave k)
    (ht : s.writeRuns core l bytes = .ok t) : t.HasWave k := by
  refine foldl_except_keeps (P := fun u => u.HasWave k) (fun a x ha u hu => ?_) (byteRuns bytes) (.ok s)
    (fun u hu => by cases hu; exact h) t ht
  split at hu
  · cases hu
  · next v =>
    split at hu
    · cases hu
    · next w hw =>
      cases hu
      exact (ha v rfl).coreStore hw

theorem State.HasWave.commitPlain {s t : State} {k j : Nat} {l : HeldLine} (h : s.HasWave k)
    (ht : s.commitPlain j l = .ok t) : t.HasWave k := by
  unfold State.commitPlain at ht
  split at ht
  · cases ht
  · split at ht
    · cases ht
      split
      · exact h.postLine _ _ _
      · exact h
    · exact State.HasWave.writeRuns (h.congr (keepPast_waves s j l.pa 128)) ht

theorem State.HasWave.commitReleased {s t : State} {k j : Nat} {l : HeldLine} (h : s.HasWave k)
    (ht : s.commitReleased j l = .ok t) : t.HasWave k := by
  unfold State.commitReleased at ht
  split at ht
  · cases ht
    exact h
  · split at ht
    · cases ht
      exact h.postLine _ _ _
    · dsimp only at ht
      split at ht
      · cases ht
      · next u hu =>
        cases ht
        exact (State.HasWave.writeRuns (h.congr (keepPast_waves s j l.pa 128)) hu).congr (syncUpdate_waves _ _ _ _)

theorem State.HasWave.commitLines {k : Nat} {act : State → HeldLine → Except Trap State}
    (hact : ∀ s t l, s.HasWave k → act s l = .ok t → t.HasWave k) {s : State} (h : s.HasWave k) (ls : List HeldLine) :
    (s.commitLines act ls).1.HasWave k := by
  induction ls generalizing s with
  | nil => exact h
  | cons l ls ih =>
    unfold State.commitLines
    split
    · exact h
    · next t ht => exact ih (hact s t l h ht)

theorem State.HasWave.commit {s : State} {k : Nat} (h : s.HasWave k) (j : Nat) : (s.commit j).1.HasWave k := by
  have hplain := State.HasWave.commitLines (act := fun t l => t.commitPlain j l)
    (fun _ _ _ hs ht => hs.commitPlain ht) (h.modWave j (fun w => { w with held := [] })) (s.waveAt j).held
  unfold State.commit
  dsimp only
  split
  · exact h
  · split
    · next t f ht =>
      rw [ht] at hplain
      exact hplain
    · next t ht =>
      rw [ht] at hplain
      exact State.HasWave.commitLines (fun _ _ _ hs hr => hs.commitReleased hr) hplain _

/-- The wave of a boundary still stands behind its commit. -/
theorem State.Opens.hasWave {s s1 : State} {e : Env} (ho : s.Opens e s1) (h : s.HasWave e.key) : s1.HasWave e.key := by
  have hcommit := h.commit e.key
  have hopen := ho.opens
  unfold State.openBoundary at hopen
  split at hopen
  · cases hopen
  · next u hu =>
    rw [hu] at hcommit
    obtain ⟨rfl, -⟩ := Prod.mk.inj hopen
    exact hcommit.modWave e.key _

end Sys2Proof.Machine
end

section
/-! fence and waitc (07_consistency.md R186 to R192). What a fence does to the core's L0 and to the ticket order comes first; then it
either writes pd, or holds its wave for the posted writes. -/

namespace Sys2Proof.Machine

open Sys2Proof

/-! ### Frames of the parts -/

section
variable {s t : State} {k : Nat} (h : t.OnlyWave s k)
include h

theorem State.OnlyWave.mem : t.mem = s.mem := (congrArg State.mem h.1 :)
theorem State.OnlyWave.ctxs : t.ctxs = s.ctxs := (congrArg State.ctxs h.1 :)
theorem State.OnlyWave.l0 : t.l0 = s.l0 := (congrArg State.l0 h.1 :)
theorem State.OnlyWave.tickets : t.tickets = s.tickets := (congrArg State.tickets h.1 :)

end

/-- Only read-only lines are left in the L0 of a core that acquires (R311). -/
theorem acquire_l0_ro (s : State) (core scope : Nat) : ∀ x ∈ (s.acquire core scope).l0, x.core = core → x.ro.isSome := by
  intro x hx hcore
  obtain ⟨-, hkept⟩ := List.mem_filter.mp hx
  cases hro : x.ro with
  | none => simp [hcore, hro] at hkept
  | some r => rfl

theorem setPredAll_onlyWave (s : State) (e : Env) (n : Nat) (b : Bool) : (s.setPredAll e n b).OnlyWave s e.key :=
  (State.foldl_setPred s e n (fun _ => b) (laneList e.act)).1

/-- A predicate set in every active lane reads true there, p0 included (03_encoding.md R66). -/
theorem setPredAll_pGet_true {s : State} {e : Env} {w : Wave} (hw : Cells.find s.waves e.key = some w) (n : Nat) :
    ∀ l ∈ laneList e.act, ((s.setPredAll e n true).waveAt e.key).regs.pGet w.trapMode n l = true := by
  intro l hl
  have hfind := (State.foldl_setPred s e n (fun _ => true) (laneList e.act)).2 w hw
  rw [show (s.setPredAll e n true).waveAt e.key = w.putPreds n (fun _ => true) (laneList e.act) from
    State.waveAt_of_find hfind, RegFile.pGet]
  by_cases hn : n = 0
  · simp [hn]
  · simp [Wave.putPreds_get_in w n (fun _ => true) _ l hn (laneList_nodup _) hl]

/-! ### The effect of a fence -/

/-- What a fence of any kind orders at once: an acquire makes the core's L0 forget (R187), and a sequentially consistent fence at
.pkg or .sys takes a ticket (R188). -/
def State.fenceOrders (s : State) (e : Env) (f : FWord) : State :=
  let kind := bitsOf f.q 1 0
  let scope := bitsOf f.q 4 2
  { s with l0 := if kind % 2 = 1 then (s.acquire (s.waveAt e.key).core scope).l0 else s.l0
           tickets := s.tickets + if kind = 3 ∧ (scope = 3 ∨ scope = 4) then 1 else 0 }

theorem bitOf_zero_iff (n : Nat) : bitOf n 0 = true ↔ n % 2 = 1 := by simp [bitOf]

/-- The kinds of fence that release are .rel and .ar (R186). -/
theorem bitOf_kind_one_iff (q : Nat) : bitOf (bitsOf q 1 0) 1 = true ↔ 2 ≤ bitsOf q 1 0 := by
  have hlt : bitsOf q 1 0 < 4 := Nat.mod_lt _ (by decide)
  simp only [bitOf, beq_iff_eq]
  omega

/-- Behind its orders, a fence that releases at .sys holds its wave for the posted writes of its lanes; any other writes pd (R189). -/
theorem fenceEffect_eq (s : State) (e : Env) (f : FWord) :
    s.fenceEffect e f = if bitsOf f.q 4 2 = 4 ∧ 2 ≤ bitsOf f.q 1 0 then (s.fenceOrders e f).modWave e.key
        (fun w => { w with hold := some (.fence e.act f.fd.toNat e.pc e.size 0) })
      else (s.fenceOrders e f).setPredAll e f.fd.toNat true := by
  unfold State.fenceEffect State.fenceOrders
  simp only [bitOf_zero_iff, bitOf_kind_one_iff]
  by_cases hacq : bitsOf f.q 1 0 % 2 = 1
  · by_cases hticket : bitsOf f.q 1 0 = 3 ∧ (bitsOf f.q 4 2 = 3 ∨ bitsOf f.q 4 2 = 4)
    · simp only [if_pos hacq, if_pos hticket] <;> rfl
    · simp only [if_pos hacq, if_neg hticket] <;> rfl
  · have hticket : ¬ (bitsOf f.q 1 0 = 3 ∧ (bitsOf f.q 4 2 = 3 ∨ bitsOf f.q 4 2 = 4)) := by omega
    simp only [if_neg hacq, if_neg hticket] <;> rfl

/-- The end of a fence changes its wave alone. -/
theorem fenceEffect_onlyWave (s : State) (e : Env) (f : FWord) :
    (s.fenceEffect e f).OnlyWave (s.fenceOrders e f) e.key := by
  rw [fenceEffect_eq]
  split
  · exact State.onlyWave_modWave _ _ _
  · exact setPredAll_onlyWave _ _ _ _

theorem fenceOrders_l0_ro {s : State} {e : Env} {f : FWord} (h : bitsOf f.q 1 0 % 2 = 1) :
    ∀ x ∈ (s.fenceOrders e f).l0, x.core = (s.waveAt e.key).core → x.ro.isSome := by
  simp only [State.fenceOrders, if_pos h]
  exact acquire_l0_ro s _ _

theorem fenceEffect_holds {s : State} {e : Env} {f : FWord} {w : Wave} (hw : Cells.find s.waves e.key = some w)
    (hkind : 2 ≤ bitsOf f.q 1 0) (hscope : bitsOf f.q 4 2 = 4) :
    (s.fenceEffect e f).waveAt e.key = { w with hold := some (.fence e.act f.fd.toNat e.pc e.size 0) } := by
  rw [fenceEffect_eq, if_pos ⟨hscope, hkind⟩]
  exact State.waveAt_modWave_self _ hw

theorem fenceEffect_pd {s : State} {e : Env} {f : FWord} {w : Wave} (hw : Cells.find s.waves e.key = some w)
    (h : bitsOf f.q 1 0 = 1 ∨ bitsOf f.q 4 2 ≠ 4) :
    ∀ l ∈ laneList e.act, ((s.fenceEffect e f).waveAt e.key).regs.pGet w.trapMode f.fd.toNat l = true := by
  rw [fenceEffect_eq, if_neg (by omega)]
  exact setPredAll_pGet_true (s := s.fenceOrders e f) hw f.fd.toNat

/-! ### Completion -/

/-- A fence whose boundary opens completes with its effect, and ends where it waits for nothing. -/
theorem exec_fence_opens {f : FWord} {s s1 : State} {e : Env} (hi : Issues (fenceSpec f) f s e) (ho : s.Opens e s1) :
    exec (.fence f) s = .next (((s1.fenceEffect e f).closed e).settleFence e.key) := by
  rw [exec_fence, execFence, runWord_issues hi, openBoundary_none ho _ _ rfl]

theorem exec_waitc_passes {f : FWord} {s : State} {e : Env} (hi : Issues (waitcSpec f) f s e)
    (h : (s.waveAt e.key).counter (f.q % 8) ≤ s.uvalue e 10 f.fa) :
    exec (.waitc f) s = .next ((s.acquire (s.waveAt e.key).core 1).advance e) := by
  rw [exec_waitc, execWaitc, runWord_issues hi]
  simp only [decide_eq_false (Nat.not_lt.mpr h)]
  rfl

theorem exec_waitc_waits {f : FWord} {s : State} {e : Env} (hi : Issues (waitcSpec f) f s e)
    (h : s.uvalue e 10 f.fa < (s.waveAt e.key).counter (f.q % 8)) : exec (.waitc f) s = .next (s.block e .counter) := by
  rw [exec_waitc, execWaitc, runWord_issues hi]
  simp only [decide_eq_true h]
  rfl

/-- Settles O24: behind the commit, which leaves the wave standing, a fence orders and then ends or holds its wave; waitc compares
the counter of its class. -/
theorem fences : Obligations.Fences := by
  refine ⟨fun f s e s1 hi ho => ?_, fun f s e hi hle => ?_, fun f s e hi hlt => exec_waitc_waits hi hlt⟩
  · obtain ⟨w, hw⟩ := (envOf_wave hi.env).1
    obtain ⟨w1, hw1⟩ := (ho.hasWave (Option.isSome_of_eq_some hw)).exists
    have honly := fenceEffect_onlyWave s1 e f
    refine ⟨s1.fenceEffect e f, exec_fence_opens hi ho, honly.mem, honly.ctxs, fun hacq => ?_, honly.tickets,
      fun hkind hscope => ?_, fun hpd => ?_⟩
    · rw [honly.l0]
      exact fenceOrders_l0_ro hacq
    · rw [fenceEffect_holds hw1 hkind hscope, State.waveAt_of_find hw1]
      exact ⟨rfl, rfl⟩
    · rw [State.waveAt_of_find hw1]
      exact fenceEffect_pd hw1 hpd
  · obtain ⟨w, hw⟩ := (envOf_wave hi.env).1
    obtain ⟨u, hu, hother, hpcs⟩ := State.advance_wave (s.acquire (s.waveAt e.key).core 1) e w hw
    have hwave := State.waveAt_of_find hw
    refine ⟨_, exec_waitc_passes hi hle, ?_, ?_, rfl, acquire_l0_ro s _ 1⟩
    · unfold State.MovesOn
      rw [State.waveAt_of_find hu, hwave]
      exact hpcs
    · rw [State.waveAt_of_find hu, hwave, hother]

end Sys2Proof.Machine
end

section
/-! Lists with rising keys, as the machine keeps its waves, operations and results in flight: what is found in them behind a run of
writes, behind the removal of keys, and in the longest beginning with a property. -/

namespace Sys2Proof.Machine

variable {α : Type}

/-! ### Runs of writes -/

/-- Of several writes under one key the last one stands. -/
theorem Cells.get_foldl_set [DecidableEq α] (d : α) (xs : List (Nat × α)) (m : Cells α) (k : Nat) :
    Cells.get d (xs.foldl (fun m x => Cells.set d m x.1 x.2) m) k =
      ((xs.reverse.find? (fun x => x.1 == k)).map (·.2)).getD (Cells.get d m k) := by
  induction xs generalizing m with
  | nil => rfl
  | cons x xs ih =>
    rw [List.foldl_cons, ih, List.reverse_cons, List.find?_append]
    cases xs.reverse.find? (fun y => y.1 == k) with
    | some y => rfl
    | none =>
      rw [Option.none_or, List.find?_singleton]
      by_cases hx : x.1 = k
      · subst hx
        rw [if_pos (beq_self_eq_true x.1)]
        exact Cells.get_set_self d m x.1 x.2
      · rw [if_neg (by simpa using hx)]
        exact Cells.get_set_ne d m x.2 (Ne.symm hx)

/-- A key of a run of writes holds the value that the run gives it. -/
theorem Cells.get_foldl_set_keys [DecidableEq α] (d : α) (f : Nat → α) {ks : List Nat} (m : Cells α) {k : Nat} (hk : k ∈ ks) :
    Cells.get d (ks.foldl (fun m l => Cells.set d m l (f l)) m) k = f k := by
  have hrun := Cells.get_foldl_set d (ks.map (fun l => (l, f l))) m k
  rw [List.foldl_map] at hrun
  rw [hrun]
  cases hfound : (ks.map (fun l => (l, f l))).reverse.find? (fun x => x.1 == k) with
  | none =>
    have hmem : (k, f k) ∈ (ks.map (fun l => (l, f l))).reverse := List.mem_reverse.mpr (List.mem_map.mpr ⟨k, hk, rfl⟩)
    exact absurd (beq_self_eq_true k) (List.find?_eq_none.mp hfound _ hmem)
  | some x =>
    obtain ⟨l, -, rfl⟩ := List.mem_map.mp (List.mem_reverse.mp (List.mem_of_find?_eq_some hfound))
    have hlk : (l == k) = true := List.find?_some (p := fun x : Nat × α => x.1 == k) hfound
    exact congrArg f (beq_iff_eq.mp hlk)

/-! ### Members -/

theorem Cells.mem_of_find {m : Cells α} {k : Nat} {v : α} (h : Cells.find m k = some v) : (k, v) ∈ m := by
  induction m with
  | nil => cases h
  | cons e m ih =>
    obtain ⟨j, w⟩ := e
    simp only [Cells.find] at h
    split at h
    · next hkj =>
      cases h
      rw [hkj]
      exact List.mem_cons_self
    · exact List.mem_cons_of_mem _ (ih h)

theorem Cells.mem_put_self (m : Cells α) (k : Nat) (v : α) : (k, v) ∈ Cells.put m k v :=
  Cells.mem_of_find (Cells.find_put_self m k v)

/-- An entry stands behind a write unless it is the one that is found under the written key. -/
theorem Cells.mem_put_or_find (k : Nat) (v : α) {m : Cells α} {x : Nat × α} (h : x ∈ m) :
    x ∈ Cells.put m k v ∨ Cells.find m k = some x.2 := by
  induction m with
  | nil => cases h
  | cons e m ih =>
    obtain ⟨j, w⟩ := e
    simp only [Cells.put, Cells.find]
    rcases List.mem_cons.mp h with rfl | hm
    · split
      · exact .inr rfl
      · split <;> simp
    · split
      · exact .inl (List.mem_cons_of_mem _ hm)
      · split
        · exact .inl (List.mem_cons_of_mem _ h)
        · exact (ih hm).imp_left (List.mem_cons_of_mem _)

/-- A change of one value loses no value of what it keeps. -/
theorem Cells.exists_mem_modify {β : Type} (g : α → β) (k : Nat) {f : α → α} (hf : ∀ v, g (f v) = g v) {m : Cells α}
    {x : Nat × α} (h : x ∈ m) : ∃ y ∈ Cells.modify m k f, g y.2 = g x.2 := by
  unfold Cells.modify
  split
  · exact ⟨x, h, rfl⟩
  · next v hv =>
    rcases Cells.mem_put_or_find k (f v) h with hx | hx
    · exact ⟨x, hx, rfl⟩
    · refine ⟨(k, f v), Cells.mem_put_self m k _, ?_⟩
      rw [hv] at hx
      rw [← Option.some.inj hx]
      exact hf v

/-! ### Rising keys -/

theorem Cells.risingFrom_some_pairwise {lo : Nat} {m : Cells α} (h : Cells.risingFrom (some lo) m = true) :
    (∀ x ∈ m, lo < x.1) ∧ m.Pairwise (fun x y => x.1 < y.1) := by
  induction m generalizing lo with
  | nil => simp
  | cons e m ih =>
    obtain ⟨k, v⟩ := e
    simp only [Cells.risingFrom, Bool.and_eq_true, decide_eq_true_eq] at h
    obtain ⟨habove, hpair⟩ := ih h.2
    refine ⟨fun x hx => ?_, List.pairwise_cons.mpr ⟨habove, hpair⟩⟩
    rcases List.mem_cons.mp hx with rfl | hx
    · exact h.1
    · exact Nat.lt_trans h.1 (habove x hx)

theorem Cells.rising_pairwise {m : Cells α} (h : Cells.risingFrom none m = true) : m.Pairwise (fun x y => x.1 < y.1) := by
  cases m with
  | nil => exact List.Pairwise.nil
  | cons e m => exact List.pairwise_cons.mpr (Cells.risingFrom_some_pairwise (lo := e.1) h)

theorem Cells.find_eq_some_iff_mem {m : Cells α} (hm : m.Pairwise (fun x y => x.1 < y.1)) {k : Nat} {v : α} :
    Cells.find m k = some v ↔ (k, v) ∈ m := by
  refine ⟨Cells.mem_of_find, fun h => ?_⟩
  induction m with
  | nil => cases h
  | cons e m ih =>
    obtain ⟨habove, hpair⟩ := List.pairwise_cons.mp hm
    rcases List.mem_cons.mp h with rfl | htail
    · simp [Cells.find]
    · have hlt : e.1 < k := habove _ htail
      simp only [Cells.find, if_neg (Nat.ne_of_gt hlt)]
      exact ih hpair htail

theorem Cells.keys_nodup {m : Cells α} (hm : m.Pairwise (fun x y => x.1 < y.1)) : (m.map (·.1)).Nodup :=
  List.pairwise_map.mpr (hm.imp Nat.ne_of_lt)

/-- The longest beginning with a property holds the entries up to which every entry has it. -/
theorem mem_takeWhile_iff_of_rising {d : Nat × α → Bool} {m : Cells α} (hm : m.Pairwise (fun x y => x.1 < y.1)) {x : Nat × α} :
    x ∈ m.takeWhile d ↔ x ∈ m ∧ ∀ y ∈ m, y.1 ≤ x.1 → d y = true := by
  induction m with
  | nil => simp
  | cons e m ih =>
    obtain ⟨habove, hpair⟩ := List.pairwise_cons.mp hm
    rw [List.takeWhile_cons]
    by_cases hd : d e = true
    · rw [if_pos hd, List.mem_cons, List.mem_cons, ih hpair, List.forall_mem_cons]
      constructor
      · rintro (rfl | ⟨hx, hall⟩)
        · exact ⟨.inl rfl, fun _ => hd, fun y hy hle => absurd hle (Nat.not_le.mpr (habove y hy))⟩
        · exact ⟨.inr hx, fun _ => hd, hall⟩
      · rintro ⟨rfl | hx, -, hall⟩
        · exact .inl rfl
        · exact .inr ⟨hx, hall⟩
    · simp only [hd, Bool.false_eq_true, if_false, List.not_mem_nil, false_iff, not_and]
      intro hx hall
      refine hd (hall e List.mem_cons_self ?_)
      rcases List.mem_cons.mp hx with rfl | hx
      · exact Nat.le_refl _
      · exact Nat.le_of_lt (habove x hx)

/-! ### Removed keys -/

/-- A map behind the removal of the keys of a list. -/
def Cells.without (m : Cells α) (gone : List Nat) : Cells α := m.filter (fun x => !gone.contains x.1)

theorem Cells.find_without_mem (m : Cells α) {gone : List Nat} {k : Nat} (hk : k ∈ gone) :
    Cells.find (m.without gone) k = none := by
  cases h : Cells.find (m.without gone) k with
  | none => rfl
  | some v =>
    have hkept := (List.mem_filter.mp (Cells.mem_of_find h)).2
    simp [hk] at hkept

theorem Cells.find_without_not_mem (m : Cells α) {gone : List Nat} {k : Nat} (hk : k ∉ gone) :
    Cells.find (m.without gone) k = Cells.find m k := by
  induction m with
  | nil => rfl
  | cons e m ih =>
    rw [Cells.without, List.filter_cons]
    by_cases he : e.1 ∈ gone
    · have hne : k ≠ e.1 := fun h => hk (h ▸ he)
      rw [if_neg (by simpa using he), Cells.find, if_neg hne]
      exact ih
    · rw [if_pos (by simpa using he), Cells.find, Cells.find]
      exact congrArg (ite _ _) ih

/-- Each key that is removed takes one entry with it. -/
theorem Cells.length_without {m : Cells α} (hm : m.Pairwise (fun x y => x.1 < y.1)) {gone : List Nat}
    (hgone : gone.Sublist (m.map (·.1))) : (m.without gone).length + gone.length = m.length := by
  have hkeys := Cells.keys_nodup hm
  have hperm : ((m.map (·.1)).filter gone.contains).Perm gone :=
    (List.perm_ext_iff_of_nodup (hkeys.filter _) (hkeys.sublist hgone)).mpr (fun a =>
      ⟨fun h => by simpa using (List.mem_filter.mp h).2, fun h => List.mem_filter.mpr ⟨hgone.subset h, by simpa using h⟩⟩)
  have hlen := hperm.length_eq
  rw [List.filter_map, List.length_map] at hlen
  have hsplit := List.length_eq_countP_add_countP (l := m) (fun x => gone.contains x.1)
  simp only [List.countP_eq_length_filter, Bool.not_eq_true, Bool.decide_eq_false] at hsplit
  rw [← hlen]
  exact (Nat.add_comm _ _).trans hsplit.symm

end Sys2Proof.Machine
end

section
/-! Engine operations (07_consistency.md R190): what the issue of one adds, and which of its wave and class retire with one that has
ended. -/

namespace Sys2Proof.Machine

open Sys2Proof

/-! ### Issue -/

/-- A wave whose counter of a class, where the operation is counted, has risen. -/
def Wave.countUp (w : Wave) : Option Nat → Wave
  | none => w
  | some c => { w with counters := Cells.set 0 w.counters c (w.counter c + 1) }

theorem Wave.countUp_other (w : Wave) (cls : Option Nat) : w.countUp cls = { w with counters := (w.countUp cls).counters } := by
  cases cls <;> rfl

theorem Wave.counter_countUp (w : Wave) (cls : Option Nat) (c : Nat) :
    (w.countUp cls).counter c = w.counter c + if cls = some c then 1 else 0 := by
  cases cls with
  | none => rfl
  | some d =>
    by_cases hdc : d = c
    · subst hdc
      simp [Wave.countUp, Wave.counter]
    · simp only [Wave.countUp, Wave.counter, Cells.get_set_ne _ _ _ (Ne.symm hdc), Option.some.injEq, hdc, if_false,
        Nat.add_zero]

/-- The counter of an issuing wave rises. -/
def State.countOp (s : State) (k : Nat) : Option Nat → State
  | none => s
  | some c => s.modWave k (fun w => w.countUp (some c))

theorem State.find_countOp_self {s : State} {k : Nat} {w : Wave} (hw : Cells.find s.waves k = some w) (cls : Option Nat) :
    Cells.find (s.countOp k cls).waves k = some (w.countUp cls) := by
  cases cls with
  | none => exact hw
  | some c => rw [State.countOp, State.find_modWave_self, hw, Option.map_some]

theorem State.find_countOp_ne (s : State) {k j : Nat} (cls : Option Nat) (h : j ≠ k) :
    Cells.find (s.countOp k cls).waves j = Cells.find s.waves j := by
  cases cls with
  | none => rfl
  | some c => exact State.find_modWave_ne s _ h

/-- The operation that an issuing group adds. -/
def State.newOp (s : State) (e : Env) (cls : Option Nat) (kind : OpKind) : EngineOp :=
  { wave := e.key, block := (s.waveAt e.key).block, core := (s.waveAt e.key).core, cls := cls, kind := kind,
    arrival := some s.nextId }

theorem issueOp_eq (s : State) (e : Env) (cls : Option Nat) (kind : OpKind) :
    s.issueOp e cls kind = { s with
      ops := Cells.put s.ops s.nextId (s.newOp e cls kind)
      nextId := s.nextId + 1
      agenda := s.agenda ++ ((s.newOp e cls kind).event s.nextId).toList
      waves := (s.countOp e.key cls).waves } := by
  have hevent : ∀ (t : State) (o : Option Instr), (match o with
      | none => t
      | some i => t.post i) = { t with agenda := t.agenda ++ o.toList } := by
    intro t o
    cases o with
    | none => simp
    | some i => rfl
  unfold State.issueOp
  simp only [State.fresh]
  cases cls <;> exact hevent _ _

/-! ### Retirement -/

/-- The operations of a wave and class that retire are those that have ended, up to the first that has not. -/
theorem mem_retiring_iff {s : State} {id : Nat} {o : EngineOp} {c : Nat} (hcls : o.cls = some c)
    (hrise : Cells.risingFrom none s.ops = true) (i : Nat) :
    i ∈ s.retiring id o ↔ ∃ p, Cells.find s.ops i = some p ∧ p.wave = o.wave ∧ p.cls = some c ∧
      ∀ j q, Cells.find s.ops j = some q → q.wave = o.wave → q.cls = some c → j ≤ i → q.done = true := by
  have hpair := Cells.rising_pairwise hrise
  simp only [State.retiring, hcls, List.mem_map, mem_takeWhile_iff_of_rising (hpair.filter _), List.mem_filter,
    Bool.and_eq_true, beq_iff_eq, Cells.find_eq_some_iff_mem hpair, Prod.exists, exists_and_right, exists_eq_right, Prod.forall]
  simp only [and_imp, ← exists_and_right, and_assoc]

theorem retiring_sublist {s : State} {id : Nat} {o : EngineOp} {c : Nat} (hcls : o.cls = some c) :
    (s.retiring id o).Sublist (s.ops.map (·.1)) := by
  simp only [State.retiring, hcls]
  exact ((List.takeWhile_sublist _).trans List.filter_sublist).map _

/-- A wave that is not in ENDING stays (05_wave.md R144). -/
theorem tryLeave_of_not_ending {s : State} {k : Nat} {w : Wave} (hw : Cells.find s.waves k = some w) (hlife : w.life ≠ .ending) :
    s.tryLeave k = s := by
  simp [State.tryLeave, hw, hlife]

/-- A block one of whose waves stands does not retire (R144). -/
theorem tryRetire_of_wave {s : State} {b : Nat} (h : ∃ y ∈ s.waves, y.2.block = some b) : s.tryRetire b = s := by
  have hany : s.waves.any (fun x => x.2.block == some b) = true := by
    obtain ⟨y, hy, hblock⟩ := h
    exact List.any_eq_true.mpr ⟨y, hy, by simp [hblock]⟩
  unfold State.tryRetire
  split
  · rfl
  · simp [hany]

theorem retireNear_of_waves {s : State} (h : ∀ x ∈ s.blocks, ∃ y ∈ s.waves, y.2.block = some x.1) (core : Nat) :
    s.retireNear core = s := by
  have hfold : ∀ bs : List (Nat × Block), (∀ x ∈ bs, ∃ y ∈ s.waves, y.2.block = some x.1) →
      bs.foldl (fun t (x : Nat × Block) => t.tryRetire x.1) s = s := by
    intro bs
    induction bs with
    | nil => exact fun _ => rfl
    | cons x bs ih =>
      intro hbs
      rw [List.foldl_cons, tryRetire_of_wave (hbs x List.mem_cons_self)]
      exact ih (fun y hy => hbs y (List.mem_cons_of_mem _ hy))
  exact hfold _ (fun x hx => h x (List.mem_filter.mp hx).1)

theorem carryOn_of_done {s : State} {id : Nat} {o : EngineOp} (ho : Cells.find s.ops id = some o) (hdone : o.done = true) :
    s.carryOn id = s.retireOp id := by
  simp [State.carryOn, ho, hdone]

/-- A state behind the retirement of operations of a wave and class: they are gone, and the counter has fallen by their number. -/
def State.retired (s : State) (gone : List Nat) (k c : Nat) : State :=
  ({ s with ops := s.ops.without gone } : State).modWave k
    (fun w => { w with counters := Cells.set 0 w.counters c (w.counter c - gone.length) })

/-- Where the wave goes on and every block has a wave, an operation's retirement changes nothing else. -/
theorem retireOp_eq {s : State} {id c : Nat} {o : EngineOp} {w : Wave} (ho : Cells.find s.ops id = some o)
    (hdone : o.done = true) (hcls : o.cls = some c) (hw : Cells.find s.waves o.wave = some w) (hlife : w.life ≠ .ending)
    (hblocks : ∀ x ∈ s.blocks, ∃ y ∈ s.waves, y.2.block = some x.1) :
    s.retireOp id = s.retired (s.retiring id o) o.wave c := by
  have hfind : ∀ gone, Cells.find (s.retired gone o.wave c).waves o.wave =
      some { w with counters := Cells.set 0 w.counters c (w.counter c - gone.length) } := by
    intro gone
    rw [State.retired, State.find_modWave_self]
    exact congrArg (Option.map _) hw
  have hstay : ∀ gone, ∀ x ∈ (s.retired gone o.wave c).blocks, ∃ y ∈ (s.retired gone o.wave c).waves, y.2.block = some x.1 := by
    intro gone x hx
    obtain ⟨y, hy, hblock⟩ := hblocks x hx
    obtain ⟨z, hz, hzy⟩ := Cells.exists_mem_modify Wave.block o.wave
      (f := fun w => { w with counters := Cells.set 0 w.counters c (w.counter c - gone.length) }) (fun _ => rfl) hy
    exact ⟨z, hz, hzy.trans hblock⟩
  have hleave := tryLeave_of_not_ending (hfind (s.retiring id o)) hlife
  have hnear := retireNear_of_waves (hstay (s.retiring id o)) o.core
  unfold State.retireOp
  simp only [ho, hdone, hcls]
  change ((s.retired (s.retiring id o) o.wave c).tryLeave o.wave).retireNear o.core = _
  rw [hleave, hnear]

/-! ### The two clauses -/

theorem issueOp_effect {s : State} {e : Env} {w : Wave} (cls : Option Nat) (kind : OpKind)
    (hw : Cells.find s.waves e.key = some w) :
    let t := s.issueOp e cls kind
    let o : EngineOp :=
      { wave := e.key, block := w.block, core := w.core, cls := cls, kind := kind, arrival := some s.nextId }
    t.ops = Cells.put s.ops s.nextId o ∧ t.nextId = s.nextId + 1 ∧ (∀ i, o.event s.nextId = some i → i ∈ t.agenda) ∧
    (∀ c, (t.waveAt e.key).counter c = w.counter c + if cls = some c then 1 else 0) ∧
    t.waveAt e.key = { w with counters := (t.waveAt e.key).counters } ∧
    (∀ j, j ≠ e.key → Cells.find t.waves j = Cells.find s.waves j) ∧
    { t with ops := s.ops, nextId := s.nextId, agenda := s.agenda, waves := s.waves } = s := by
  intro t o
  have hop : s.newOp e cls kind = o := by rw [State.newOp, State.waveAt_of_find hw]
  have ht : t = { s with
      ops := Cells.put s.ops s.nextId o
      nextId := s.nextId + 1
      agenda := s.agenda ++ (o.event s.nextId).toList
      waves := (s.countOp e.key cls).waves } := hop ▸ issueOp_eq s e cls kind
  have hwave : t.waveAt e.key = w.countUp cls := by
    rw [ht]
    exact State.waveAt_of_find (State.find_countOp_self hw cls)
  rw [hwave]
  refine ⟨by rw [ht], by rw [ht], fun i hi => ?_, w.counter_countUp cls, w.countUp_other cls, fun j hj => ?_, by rw [ht]⟩
  · rw [ht]
    simp [hi]
  · rw [ht]
    exact State.find_countOp_ne s cls hj

theorem engineOpRetire_effect {s : State} {id c : Nat} {o : EngineOp} {w : Wave} (ho : Cells.find s.ops id = some o)
    (hdone : o.done = true) (hcls : o.cls = some c) (hw : Cells.find s.waves o.wave = some w) (hlife : w.life ≠ .ending)
    (hrise : Cells.risingFrom none s.ops = true) (hblocks : ∀ x ∈ s.blocks, ∃ y ∈ s.waves, y.2.block = some x.1) :
    ∃ t : State, exec (.engineOpRetire id) s = .next t ∧
      (∀ i p, Cells.find s.ops i = some p →
        let goes : Prop := p.wave = o.wave ∧ p.cls = some c ∧ ∀ j q, Cells.find s.ops j = some q → q.wave = o.wave →
          q.cls = some c → j ≤ i → q.done = true
        (goes → Cells.find t.ops i = none) ∧ (¬ goes → Cells.find t.ops i = some p)) ∧
      (t.waveAt o.wave).counter c = w.counter c - (s.ops.length - t.ops.length) ∧
      t.waveAt o.wave = { w with counters := (t.waveAt o.wave).counters } ∧ t.mem = s.mem ∧ t.ctxs = s.ctxs := by
  have hlen := Cells.length_without (Cells.rising_pairwise hrise) (retiring_sublist (s := s) (id := id) hcls)
  have hwave : (s.retired (s.retiring id o) o.wave c).waveAt o.wave =
      { w with counters := Cells.set 0 w.counters c (w.counter c - (s.retiring id o).length) } :=
    State.waveAt_modWave_self (s := { s with ops := s.ops.without (s.retiring id o) }) _ hw
  refine ⟨s.retired (s.retiring id o) o.wave c, ?_, fun i p hp => ⟨fun hgoes => ?_, fun hstays => ?_⟩, ?_, ?_, rfl, rfl⟩
  · rw [exec_engineOpRetire, execEngineOpRetire, carryOn_of_done ho hdone, retireOp_eq ho hdone hcls hw hlife hblocks]
  · exact Cells.find_without_mem s.ops ((mem_retiring_iff hcls hrise i).mpr ⟨p, hp, hgoes⟩)
  · refine (Cells.find_without_not_mem s.ops fun hmem => hstays ?_).trans hp
    obtain ⟨q, hq, hgoes⟩ := (mem_retiring_iff hcls hrise i).mp hmem
    rw [hp] at hq
    obtain rfl := Option.some.inj hq
    exact hgoes
  · have hgone : s.ops.length - (s.ops.without (s.retiring id o)).length = (s.retiring id o).length := by omega
    change _ = w.counter c - (s.ops.length - (s.ops.without (s.retiring id o)).length)
    rw [hgone, hwave]
    simp [Wave.counter]
  · rw [hwave]

end Sys2Proof.Machine
end

section
/-! Events of waves: a result in flight (03_encoding.md R70), the active set (05_wave.md R141), a stalled region (R134), and a word
that no opcode is assigned to (03_encoding.md R75). -/

namespace Sys2Proof.Machine

open Sys2Proof

/-! ### Results in flight -/

/-- A wave to which a result in flight has been written, its registers full. -/
def Wave.filled (w : Wave) (x : Fill) : Wave :=
  { w with
    regs := { w.regs with v := x.vs.foldl (fun m y => Cells.set 0 m y.1 y.2) w.regs.v
                          s := x.ss.foldl (fun m y => Cells.set 0 m y.1 y.2) w.regs.s }
    vEmpty := x.vKeys.foldl (fun m k => Cells.set false m k false) w.vEmpty
    sEmpty := x.sKeys.foldl (fun m k => Cells.set false m k false) w.sEmpty }

theorem Wave.foldl_setV (xs : List (Nat × Word)) (w : Wave) :
    xs.foldl (fun (u : Wave) (k, v) => u.setV (k / 32) (k % 32) v) w =
      { w with regs := { w.regs with v := xs.foldl (fun m y => Cells.set 0 m y.1 y.2) w.regs.v } } := by
  induction xs generalizing w with
  | nil => rfl
  | cons x xs ih =>
    rw [List.foldl_cons, ih]
    simp only [Wave.setV, Nat.div_add_mod', List.foldl_cons]

theorem Wave.foldl_setSAt (xs : List (Nat × DWord)) (w : Wave) :
    xs.foldl (fun (u : Wave) (k, v) => u.setSAt k v) w =
      { w with regs := { w.regs with s := xs.foldl (fun m y => Cells.set 0 m y.1 y.2) w.regs.s } } := by
  induction xs generalizing w with
  | nil => rfl
  | cons x xs ih =>
    rw [List.foldl_cons, ih]
    rfl

theorem finishFill_eq {s : State} {id : Nat} {x : Fill} (hx : Cells.find s.fills id = some x) :
    s.finishFill id = ({ s with fills := Cells.del s.fills id } : State).modWave x.wave (fun w => w.filled x) := by
  unfold State.finishFill
  simp only [hx, Wave.foldl_setV, Wave.foldl_setSAt]
  rfl

theorem registerFill_effect {s : State} {id : Nat} {x : Fill} {w : Wave} (hx : Cells.find s.fills id = some x)
    (hw : Cells.find s.waves x.wave = some w) (hlife : w.life ≠ .ending) :
    exec (.registerFill id) s = .next (s.finishFill id) ∧ (s.finishFill id).waveAt x.wave = w.filled x := by
  have hfind : Cells.find (s.finishFill id).waves x.wave = some (w.filled x) := by
    rw [finishFill_eq hx, State.find_modWave_self]
    exact congrArg (Option.map _) hw
  refine ⟨?_, State.waveAt_of_find hfind⟩
  rw [exec_registerFill, execRegisterFill, hx]
  exact congrArg _ (tryLeave_of_not_ending hfind hlife)

/-! ### The wave that comes first -/

section
variable {P : Wave → Prop} {r : Nat → Nat → Prop} {F : Option (Nat × Nat) → Nat × Wave → Option (Nat × Nat)}

/-- A step of a search through the waves for the one with a property whose age comes first in `r`: what it makes of the age and the
key it has found so far. -/
structure SearchStep (P : Wave → Prop) (r : Nat → Nat → Prop) (F : Option (Nat × Nat) → Nat × Wave → Option (Nat × Nat)) :
    Prop where
  skips : ∀ b x, ¬ P x.2 → F b x = b
  starts : ∀ x, P x.2 → F none x = some (x.2.age, x.1)
  improves : ∀ a j x, P x.2 → r x.2.age a → F (some (a, j)) x = some (x.2.age, x.1)
  keeps : ∀ a j x, P x.2 → ¬ r x.2.age a → F (some (a, j)) x = some (a, j)

variable (hF : SearchStep P r F) {k : Nat} {w : Wave}
include hF

theorem SearchStep.foldl_found {m : List (Nat × Wave)} (hm : ∀ x ∈ m, P x.2 → x = (k, w) ∨ ¬ r x.2.age w.age) :
    m.foldl F (some (w.age, k)) = some (w.age, k) := by
  induction m with
  | nil => rfl
  | cons x m ih =>
    have hstep : F (some (w.age, k)) x = some (w.age, k) := by
      by_cases hP : P x.2
      · by_cases hr : r x.2.age w.age
        · obtain rfl := (hm x List.mem_cons_self hP).resolve_right (not_not_intro hr)
          exact hF.improves _ _ _ hP hr
        · exact hF.keeps _ _ _ hP hr
      · exact hF.skips _ _ hP
    rw [List.foldl_cons, hstep]
    exact ih (fun y hy => hm y (List.mem_cons_of_mem _ hy))

/-- The search finds the wave whose age comes before that of every other wave with the property. -/
theorem SearchStep.foldl_eq {m : List (Nat × Wave)} (hmem : (k, w) ∈ m) (hP : P w) (hasymm : ∀ a b, r a b → ¬ r b a)
    (hm : ∀ x ∈ m, P x.2 → x = (k, w) ∨ r w.age x.2.age) {b : Option (Nat × Nat)} (hb : ∀ y, b = some y → r w.age y.1) :
    m.foldl F b = some (w.age, k) := by
  induction m generalizing b with
  | nil => cases hmem
  | cons x m ih =>
    rw [List.foldl_cons]
    by_cases hx : x = (k, w)
    · have hstep : F b x = some (w.age, k) := by
        subst hx
        cases b with
        | none => exact hF.starts (k, w) hP
        | some y => exact hF.improves y.1 y.2 (k, w) hP (hb y rfl)
      rw [hstep]
      exact hF.foldl_found (fun y hy hPy => (hm y (List.mem_cons_of_mem _ hy) hPy).imp_right (hasymm _ _))
    · refine ih ((List.mem_cons.mp hmem).resolve_left (Ne.symm hx)) (fun y hy => hm y (List.mem_cons_of_mem _ hy)) ?_
      by_cases hPx : P x.2
      · have hlater : r w.age x.2.age := (hm x List.mem_cons_self hPx).resolve_left hx
        cases b with
        | none =>
          rw [hF.starts x hPx]
          rintro y ⟨⟩
          exact hlater
        | some y =>
          by_cases hr : r x.2.age y.1
          · rw [hF.improves y.1 y.2 x hPx hr]
            rintro z ⟨⟩
            exact hlater
          · rw [hF.keeps y.1 y.2 x hPx hr]
            exact hb
      · rw [hF.skips b x hPx]
        exact hb

end

/-! ### The active set -/

/-- A wave of a pane's pending list that is ready (R140, R141). -/
def Wave.readyIn (w : Wave) (core pane : Nat) : Prop :=
  w.core = core ∧ w.pane = pane ∧ w.life = .pending ∧ w.blocked = none ∧ w.ready ≠ 0

theorem readyPending_eq {s : State} {core pane k : Nat} {w : Wave} (hw : Cells.find s.waves k = some w)
    (hready : w.readyIn core pane) (hage : ∀ x ∈ s.waves, x.2.readyIn core pane → x = (k, w) ∨ w.age < x.2.age) :
    s.readyPending core pane = some k := by
  have hF : SearchStep (fun u => u.readyIn core pane) (· < ·) (fun best x =>
      if x.2.core = core ∧ x.2.pane = pane ∧ x.2.life = .pending ∧ x.2.blocked = none ∧ x.2.ready ≠ 0 then
        match best with
        | none => some (x.2.age, x.1)
        | some (a, _) => if x.2.age < a then some (x.2.age, x.1) else best
      else best) :=
    ⟨fun _ _ hP => if_neg hP, fun _ hP => if_pos hP, fun _ _ _ hP hr => (if_pos hP).trans (if_pos hr),
      fun _ _ _ hP hr => (if_pos hP).trans (if_neg hr)⟩
  exact congrArg (Option.map (·.2)) (hF.foldl_eq (b := none) (Cells.mem_of_find hw) hready (fun _ _ => Nat.lt_asymm) hage
    (by simp))

theorem waveEnterActive_effect {s : State} {core pane k : Nat} (hroom : s.activeCount core pane < 8)
    (hfirst : s.readyPending core pane = some k) :
    exec (.waveEnterActive core pane) s = .next (s.modWave k (fun u => { u with life := .active })) := by
  rw [exec_waveEnterActive, execWaveEnterActive, State.enterActive, if_neg (Nat.not_le.mpr hroom), hfirst]

/-! ### A stalled region -/

/-- A wave of a core that stalls for a line while it holds one (R134). -/
def Wave.stallsIn (w : Wave) (core : Nat) : Prop :=
  w.core = core ∧ .shadowOrLine ∈ w.reasons ∧ w.held ≠ [] ∧ (w.life = .active ∨ w.life = .pending)

theorem Wave.stallsIn_iff (w : Wave) (core : Nat) : w.stallsIn core ↔
    w.core = core ∧ w.reasons.contains .shadowOrLine ∧ !w.held.isEmpty ∧ (w.life = .active ∨ w.life = .pending) := by
  simp [Wave.stallsIn]

theorem youngestStalled_eq {s : State} {core k : Nat} {w : Wave} (hw : Cells.find s.waves k = some w)
    (hstalls : w.stallsIn core) (hage : ∀ x ∈ s.waves, x.2.stallsIn core → x = (k, w) ∨ x.2.age < w.age) :
    s.youngestStalled core = some k := by
  have hF : SearchStep (fun u => u.stallsIn core) (· > ·) (fun best x =>
      if x.2.core = core ∧ x.2.reasons.contains .shadowOrLine ∧ !x.2.held.isEmpty ∧
          (x.2.life = .active ∨ x.2.life = .pending) then
        match best with
        | none => some (x.2.age, x.1)
        | some (a, _) => if a < x.2.age then some (x.2.age, x.1) else best
      else best) := by
    have hpos := fun u : Wave => (u.stallsIn_iff core).mp
    exact ⟨fun _ x hP => if_neg (mt (x.2.stallsIn_iff core).mpr hP), fun _ hP => if_pos (hpos _ hP),
      fun _ _ _ hP hr => (if_pos (hpos _ hP)).trans (if_pos hr), fun _ _ _ hP hr => (if_pos (hpos _ hP)).trans (if_neg hr)⟩
  exact congrArg (Option.map (·.2)) (hF.foldl_eq (b := none) (Cells.mem_of_find hw) hstalls (fun _ _ => Nat.lt_asymm) hage
    (by simp))

theorem Wave.setPcs_pcOf_mem (w : Wave) {ls : List Nat} (f : Nat → DWord) {l : Nat} (h : l ∈ ls) : (w.setPcs ls f).pcOf l = f l :=
  Cells.get_foldl_set_keys 0 f w.pcs h

/-- Marking registers full or empty changes no other part of a wave. -/
theorem Wave.foldl_mark_other (xs : List (Nat × Fill)) (b : Bool) (w : Wave) :
    ∃ vEmpty sEmpty, xs.foldl (fun (u : Wave) (_, x) => u.mark x.vKeys x.sKeys b) w =
      { w with vEmpty := vEmpty, sEmpty := sEmpty } := by
  induction xs generalizing w with
  | nil => exact ⟨_, _, rfl⟩
  | cons x xs ih => exact ih (w.mark x.2.vKeys x.2.sKeys b)

/-- Cancelling the results in flight of a wave changes its full/empty bits alone (03_encoding.md R73). -/
theorem cancelFills_find {s : State} {k : Nat} {w : Wave} (hw : Cells.find s.waves k = some w) :
    ∃ vEmpty sEmpty, Cells.find (s.cancelFills k).waves k = some { w with vEmpty := vEmpty, sEmpty := sEmpty } := by
  obtain ⟨vEmpty, sEmpty, hmarked⟩ := Wave.foldl_mark_other (s.fills.filter (fun (_, x) => x.wave == k)) false w
  refine ⟨vEmpty, sEmpty, ?_⟩
  rw [State.cancelFills, State.find_modWave_self]
  exact (congrArg (Option.map _) hw).trans (congrArg some hmarked)

/-- A region that runs again stands at its entries, holds nothing and waits for nothing (R136). -/
theorem restartRegion_wave {s : State} {k : Nat} {w : Wave} (hw : Cells.find s.waves k = some w) :
    let u := (s.restartRegion k).waveAt k
    u.held = [] ∧ u.blocked = none ∧ u.reasons = [] ∧ u.life = w.life ∧ u.regs = w.regs ∧
      ∀ l ∈ laneList w.m0, u.pcOf l = Cells.get 0 w.entries l := by
  obtain ⟨vEmpty, sEmpty, hcancelled⟩ := cancelFills_find hw
  rw [State.restartRegion, State.waveAt_modWave_self _ hcancelled]
  exact ⟨rfl, rfl, rfl, rfl, rfl, fun l hl => Wave.setPcs_pcOf_mem _ (fun l => Cells.get 0 w.entries l) hl⟩

theorem restartRegion_find_ne (s : State) {k j : Nat} (h : j ≠ k) :
    Cells.find (s.restartRegion k).waves j = Cells.find s.waves j :=
  (State.find_modWave_ne _ _ h).trans (State.find_modWave_ne _ _ h)

/-! ### An unassigned word -/

theorem unassignedOpcode_raises {s : State} (word : DWord) (ext : Option DWord) {i : Issue} (hi : s.cur = some i)
    (hw : (Cells.find s.waves i.wave).isSome) :
    exec (.unassignedOpcode word ext) s = .next (s.raise
      { key := i.wave, pc := i.pc, size := (if ext.isSome then 16 else 8), lanes := i.lanes, act := i.lanes, f := FWord0 }
      { code := 1 }) := by
  obtain ⟨w, hw⟩ := Option.isSome_iff_exists.mp hw
  rw [exec_unassignedOpcode, execUnassignedOpcode, hi]
  simp only [hw]

/-- Settles O25: the list of operations is cut by its keys, a result in flight is a run of register writes, and the searches for a
pane's oldest and a core's youngest wave are folds that find the one that comes first. -/
theorem operationsAndWaves : Obligations.OperationsAndWaves := by
  refine ⟨⟨fun s e cls kind w hw => issueOp_effect cls kind hw,
    fun s id o c w ho hdone hcls hw hlife hrise hblocks => engineOpRetire_effect ho hdone hcls hw hlife hrise hblocks⟩,
    fun s id x w hx hw hlife => ?_, fun s core pane k w hroom hw hready hage => ?_,
    fun s core k w hw hstalls hage => ?_, fun s word ext i hi hw => unassignedOpcode_raises word ext hi hw⟩
  · obtain ⟨hexec, hwave⟩ := registerFill_effect hx hw hlife
    refine ⟨s.finishFill id, hexec, ?_⟩
    rw [hwave, finishFill_eq hx]
    exact ⟨Cells.find_del_self _ _, fun k hk => Cells.get_foldl_set_keys false (fun _ => false) _ hk,
      fun k hk => Cells.get_foldl_set_keys false (fun _ => false) _ hk, fun k => Cells.get_foldl_set 0 x.vs _ k,
      fun k => Cells.get_foldl_set 0 x.ss _ k, fun j hj => State.find_modWave_ne _ _ hj, rfl⟩
  · exact waveEnterActive_effect hroom (readyPending_eq hw hready hage)
  · have hyoungest := youngestStalled_eq hw hstalls hage
    obtain ⟨hheld, hblocked, hreasons, hlife, hregs, hpcs⟩ := restartRegion_wave hw
    refine ⟨s.restartRegion k, ?_, hheld, hblocked, hreasons, hlife, hregs, hpcs, fun j hj => restartRegion_find_ne s hj,
      rfl, rfl⟩
    rw [exec_regionStallAbort, execRegionStallAbort, State.abortStalled, hyoungest]

end Sys2Proof.Machine
end
